-- ==== Sys2Proof/Word.lean ====
section
/-!
DEFINITION. The word types of the Harug 8: doublewords, bytes, and a sparse map from numbers to values.
-/
namespace Sys2Proof

/-- A doubleword: registers, CSRs and scalar registers are 64 bits wide. -/
abbrev Word := BitVec 64

/-- A byte of memory (R6: little-endian everywhere). -/
abbrev Byte := BitVec 8

/-- A sparse table: pairs of a key and a value, keys strictly rising, with no pair whose value is what an unlisted
key reads as (the canonical form, `SMap.wf`). -/
abbrev SMap (β : Type) := List (Nat × β)

end Sys2Proof
end

