-- ==== Sys2Proof/Syntax.lean ====
section
/-!
DEFINITION. The commands the module takes: one constructor per row of the spec's table of operations and events.
A command that belongs to a tile names the logical tile first.
-/
namespace Sys2Proof

/-- A master of control space. A tile stands for its supervisor (03, "TIL_ registers"). -/
inductive Master where
  | cox
  | tile (t : Nat)
  | host
  deriving DecidableEq, Repr


/-- The four doublewords of an ECT or pair header (Tables 13.1 and 14.1). -/
structure Hdr where
  w0 : Word
  w1 : Word
  w2 : Word
  w3 : Word
  deriving DecidableEq, Repr

/-- The head of an IEEE 1588 message: domain number, transport, log interval and the identity of the grandmaster (R29). -/
structure PtpHead where
  domain : BitVec 8
  transport : BitVec 2
  interval : BitVec 8
  gm : BitVec 64
  deriving DecidableEq, Repr

/-- The source address of a fabric packet, and whether it came with the mark CE (R319, R323). -/
structure IpFrom where
  addr : BitVec 128
  ce : Bool
  deriving DecidableEq, Repr

/-- The mark CE of a fabric packet and the bytes of its payload by the UDP length (R319, R323). -/
structure UdpIn where
  ce : Bool
  len : BitVec 13
  deriving DecidableEq, Repr

/-- A crew at an epoch boundary, and whether its leader has found every member ready (R328, R330). -/
structure CrewAt where
  crew : BitVec 10
  ready : Bool
  deriving DecidableEq, Repr

/-- The bits of a flit that change on the way: of its bytes, and of their parity (R255, R256). -/
structure FlitErr where
  bits : BitVec 2048
  parity : BitVec 256
  deriving DecidableEq, Repr

/-- Whether the sender sends its oldest unacknowledged flit again (R257), and for each chunk the VCs that have
chunks waiting and credit (R260). -/
structure FlitSend where
  again : Bool
  ready : List (BitVec 4)
  deriving DecidableEq, Repr

/-- The first doubleword of a GRAN payload (Table 14.2). -/
structure GranHead where
  seq : BitVec 32
  rsv : BitVec 32
  deriving DecidableEq, Repr

/-- What a SYNC payload holds ahead of its data: the RSV field of a GRAN payload and the device address (Table 14.2). -/
structure SyncHead where
  rsv : BitVec 32
  addr : BitVec 48
  deriving DecidableEq, Repr

/-- The tag, message type, vendor ID and message code of an MCTP message (R271). -/
structure MctpHead where
  tag : BitVec 8
  typ : BitVec 8
  vendor : BitVec 16
  code : BitVec 8
  deriving DecidableEq, Repr

/-- MSI-X Enable, the MSI-X function mask and power state D3hot (Table 12.1, R308). -/
structure CfgWrite where
  msix : Bool
  fmask : Bool
  d3 : Bool
  deriving DecidableEq, Repr

/-- Who waits for a completion of an outbound read: a data-mover descriptor by tile and ticket, or an FW_STAGE by handle. -/
inductive OutReq where
  | mover (t : BitVec 8) (ticket : BitVec 32)
  | stage (h : BitVec 32)
  deriving DecidableEq, Repr

/-- The commands and events of the module, one per row of the table of operations. -/
inductive Instr where
  /-- R24: A pulse on STRK_IN_P/N is classified by its high time, counted as spurious or, with SRC 1, accepted and matched to a catch. -/
  | strokePulse (width : BitVec 16) (t : BitVec 24) (interval : Option (BitVec 32))
  /-- R23: The stroke PLL reaches a catch: the stroke number increments, the phase returns to 0 and catch-bound actions run. -/
  | catchCmd (vin iin pin : BitVec 16)
  /-- R33: An acceptance window closes without an accepted edge, incrementing STK_CNT_MISS and, at the second in a row, declaring the input lost. -/
  | missedWindow
  /-- R30: An IEEE 1588 Sync received on the selected fabric port updates the stroke number and phase derived from STK_EPOCH and STK_PERIOD. -/
  | ptpSync (p : BitVec 3) (time : BitVec 64) (offset : BitVec 17) (ptp : PtpHead)
  /-- R33: Eight Sync intervals pass without a valid Sync and the 1588 source is declared lost. -/
  | syncIntervalLoss
  /-- R36: STK_HOLD_CNT reaches 65,536 catches and STK_STATUS.AGED is set, making the module free-running for crew admission. -/
  | holdoverAged
  /-- R54: A write to STK_CTRL.SRC or PTP_PORT that changes the source ends lock or acquisition, enters FREE and discards a pending load. -/
  | stkSourceSelect (m : Master) (v : Word)
  /-- R38: A write of STK_PERIOD in FREE sets the period from the next catch; otherwise it is discarded with ARG_ERR. -/
  | stkPeriodWrite (m : Master) (v : Word)
  /-- R50: A write of STK_CTRL.EVT_EN enables the catch-event table or starts its drain under R11. -/
  | evtEn (m : Master) (on : Bool)
  /-- R50: The one-stroke drain limit of the catch-event table expires and undelivered events end ABORTED_DISABLE. -/
  | evtDrainLimit
  /-- R11: Draining of a disabled block completes, ACTIVE falls and any held write of the enable takes effect. -/
  | drainEnd
  /-- R28: A write of STK_NUM_LOAD.NUM_HI makes a stroke-number load pending, or is discarded with ARG_ERR when SRC is 2. -/
  | stkNumLoad (m : Master) (v : Word)
  /-- R28: A write with STK_NUM_LOAD.CANCEL set discards the pending load and clears PEND. -/
  | strokeLoadCancel (m : Master) (v : Word)
  /-- R42: A write of 1 to an entry's STATE validates and arms the catch-event entry, clearing FIRE_CNT and LATE. -/
  | catchEventArm (m : Master) (ix : BitVec 9)
  /-- R44: A write of 0 to an entry's STATE frees it, unless the entry fires in the same phase unit. -/
  | catchEventFree (m : Master) (idx : BitVec 9)
  /-- R43: A write to the fields of a catch-event entry is stored, or discarded with BUSY_ERR when the entry is ARMED. -/
  | catchEventWrite (m : Master) (idx : BitVec 9) (j : BitVec 2) (v : Word)
  /-- R45: An ARMED entry reaches its DUE and PHASE and fires, dispatching its event, counting FIRE_CNT and repeating or moving to FIRED. -/
  | eventFire (idx : BitVec 9)
  /-- R40: A 1 ms management tick latches stroke time into STK_TICK_LATCH and drives tick-based sampling and estimates. -/
  | managementTick (p : BitVec 10) (inlet outlet : BitVec 8)
  /-- R55: Integer add of two registers, wrapping modulo 2^64. -/
  | add (t : BitVec 8) (rd rs1 rs2 : BitVec 5)
  /-- R55: Integer subtract of two registers, wrapping modulo 2^64. -/
  | sub (t : BitVec 8) (rd rs1 rs2 : BitVec 5)
  /-- R55: Bitwise AND of two registers. -/
  | andReg (t : BitVec 8) (rd rs1 rs2 : BitVec 5)
  /-- R55: Bitwise OR of two registers. -/
  | orReg (t : BitVec 8) (rd rs1 rs2 : BitVec 5)
  /-- R55: Bitwise XOR of two registers. -/
  | xorReg (t : BitVec 8) (rd rs1 rs2 : BitVec 5)
  /-- R479: Shift left logical by rs2 bits [5:0]. -/
  | sll (t : BitVec 8) (rd rs1 rs2 : BitVec 5)
  /-- R479: Shift right logical by rs2 bits [5:0]. -/
  | srl (t : BitVec 8) (rd rs1 rs2 : BitVec 5)
  /-- R479: Shift right arithmetic by rs2 bits [5:0]. -/
  | sra (t : BitVec 8) (rd rs1 rs2 : BitVec 5)
  /-- R55: Set rd to 1 when rs1 is less than rs2, signed. -/
  | slt (t : BitVec 8) (rd rs1 rs2 : BitVec 5)
  /-- R55: Set rd to 1 when rs1 is less than rs2, unsigned. -/
  | sltu (t : BitVec 8) (rd rs1 rs2 : BitVec 5)
  /-- R55: Signed minimum of two registers. -/
  | minS (t : BitVec 8) (rd rs1 rs2 : BitVec 5)
  /-- R55: Signed maximum of two registers. -/
  | maxS (t : BitVec 8) (rd rs1 rs2 : BitVec 5)
  /-- R55: Unsigned minimum of two registers. -/
  | minu (t : BitVec 8) (rd rs1 rs2 : BitVec 5)
  /-- R55: Unsigned maximum of two registers. -/
  | maxu (t : BitVec 8) (rd rs1 rs2 : BitVec 5)
  /-- R55: Low 64 bits of the product of two registers. -/
  | mul (t : BitVec 8) (rd rs1 rs2 : BitVec 5)
  /-- R55: High 64 bits of the signed product. -/
  | mulh (t : BitVec 8) (rd rs1 rs2 : BitVec 5)
  /-- R55: High 64 bits of the unsigned product. -/
  | mulhu (t : BitVec 8) (rd rs1 rs2 : BitVec 5)
  /-- R55: Signed division with the defined results for zero and overflow, taking a quotient-dependent latency. -/
  | divS (t : BitVec 8) (rd rs1 rs2 : BitVec 5)
  /-- R55: Unsigned division, giving all ones on division by zero. -/
  | divu (t : BitVec 8) (rd rs1 rs2 : BitVec 5)
  /-- R55: Signed remainder, equal to the dividend on division by zero. -/
  | rem (t : BitVec 8) (rd rs1 rs2 : BitVec 5)
  /-- R55: Unsigned remainder, equal to the dividend on division by zero. -/
  | remu (t : BitVec 8) (rd rs1 rs2 : BitVec 5)
  /-- R479: Count of leading zero bits, 64 for zero. -/
  | clz (t : BitVec 8) (rd rs1 : BitVec 5)
  /-- R479: Count of trailing zero bits, 64 for zero. -/
  | ctz (t : BitVec 8) (rd rs1 : BitVec 5)
  /-- R479: Count of 1 bits. -/
  | popc (t : BitVec 8) (rd rs1 : BitVec 5)
  /-- R55: Add a sign-extended 14-bit immediate. -/
  | addi (t : BitVec 8) (rd rs1 : BitVec 5) (imm : BitVec 14)
  /-- R55: AND with a zero-extended immediate. -/
  | andi (t : BitVec 8) (rd rs1 : BitVec 5) (imm : BitVec 14)
  /-- R55: OR with a zero-extended immediate. -/
  | ori (t : BitVec 8) (rd rs1 : BitVec 5) (imm : BitVec 14)
  /-- R55: XOR with a zero-extended immediate. -/
  | xori (t : BitVec 8) (rd rs1 : BitVec 5) (imm : BitVec 14)
  /-- R65: Shift left logical by imm14[5:0]. -/
  | slli (t : BitVec 8) (rd rs1 : BitVec 5) (imm : BitVec 14)
  /-- R65: Shift right logical by imm14[5:0]. -/
  | srli (t : BitVec 8) (rd rs1 : BitVec 5) (imm : BitVec 14)
  /-- R65: Shift right arithmetic by imm14[5:0]. -/
  | srai (t : BitVec 8) (rd rs1 : BitVec 5) (imm : BitVec 14)
  /-- R55: Signed compare with an immediate. -/
  | slti (t : BitVec 8) (rd rs1 : BitVec 5) (imm : BitVec 14)
  /-- R55: Unsigned compare with an immediate. -/
  | sltiu (t : BitVec 8) (rd rs1 : BitVec 5) (imm : BitVec 14)
  /-- R59: Jump to rs1 plus imm14 with bits [1:0] cleared, writing the return address. -/
  | jalr (t : BitVec 8) (rd rs1 : BitVec 5) (imm : BitVec 14)
  /-- R59: Jump by a signed word offset, writing the return address. -/
  | jal (t : BitVec 8) (rd : BitVec 5) (off : BitVec 23)
  /-- R59: Branch on COND eq, ne, lt, ge, ltu or geu by a signed word offset with static prediction. -/
  | conditionalBranch (t : BitVec 8) (cond : BitVec 3) (rs1 rs2 : BitVec 5) (off : BitVec 15)
  /-- R55: Set or replace a 16-bit field of rd from imm16 at shift SH. -/
  | moveWide (t : BitVec 8) (rd : BitVec 5) (sh : BitVec 2) (keep : Bool) (imm : BitVec 16)
  /-- R69: Load a sign-extended byte. -/
  | lb (t : BitVec 8) (rd rs1 : BitVec 5) (imm : BitVec 14)
  /-- R69: Load a sign-extended halfword. -/
  | lh (t : BitVec 8) (rd rs1 : BitVec 5) (imm : BitVec 14)
  /-- R69: Load a sign-extended word. -/
  | lw (t : BitVec 8) (rd rs1 : BitVec 5) (imm : BitVec 14)
  /-- R69: Load a doubleword, including control-space reads at supervisor level. -/
  | ld (t : BitVec 8) (rd rs1 : BitVec 5) (imm : BitVec 14)
  /-- R69: Load a zero-extended byte. -/
  | lbu (t : BitVec 8) (rd rs1 : BitVec 5) (imm : BitVec 14)
  /-- R69: Load a zero-extended halfword. -/
  | lhu (t : BitVec 8) (rd rs1 : BitVec 5) (imm : BitVec 14)
  /-- R69: Load a zero-extended word. -/
  | lwu (t : BitVec 8) (rd rs1 : BitVec 5) (imm : BitVec 14)
  /-- R149: Load an FP64 value unchanged into an f register. -/
  | fld (t : BitVec 8) (rd rs1 : BitVec 5) (imm : BitVec 14)
  /-- R157: Load an FP32 value and widen it to FP64 as a conversion. -/
  | flw (t : BitVec 8) (rd rs1 : BitVec 5) (imm : BitVec 14)
  /-- R478: Store a byte, retiring at issue. -/
  | sb (t : BitVec 8) (rd rs1 : BitVec 5) (imm : BitVec 14)
  /-- R478: Store a halfword, retiring at issue. -/
  | sh (t : BitVec 8) (rd rs1 : BitVec 5) (imm : BitVec 14)
  /-- R478: Store a word, retiring at issue. -/
  | sw (t : BitVec 8) (rd rs1 : BitVec 5) (imm : BitVec 14)
  /-- R478: Store a doubleword, including control-space writes that travel to their block. -/
  | sd (t : BitVec 8) (rd rs1 : BitVec 5) (imm : BitVec 14)
  /-- R149: Store an FP64 register unchanged. -/
  | fsd (t : BitVec 8) (rd rs1 : BitVec 5) (imm : BitVec 14)
  /-- R157: Narrow an FP64 register to FP32 by FRM and store it. -/
  | fsw (t : BitVec 8) (rd rs1 : BitVec 5) (imm : BitVec 14)
  /-- R55: FP64 add rounded by FRM. -/
  | fadd (t : BitVec 8) (rd rs1 rs2 : BitVec 5)
  /-- R55: FP64 subtract rounded by FRM. -/
  | fsub (t : BitVec 8) (rd rs1 rs2 : BitVec 5)
  /-- R55: FP64 multiply rounded by FRM. -/
  | fmul (t : BitVec 8) (rd rs1 rs2 : BitVec 5)
  /-- R55: FP64 divide, blocking the divider. -/
  | fdiv (t : BitVec 8) (rd rs1 rs2 : BitVec 5)
  /-- R479: FP64 square root of rs1. -/
  | fsqrt (t : BitVec 8) (rd rs1 : BitVec 5)
  /-- R481: FP64 minimum with the NaN and signed-zero rules. -/
  | fmin (t : BitVec 8) (rd rs1 rs2 : BitVec 5)
  /-- R481: FP64 maximum with the NaN and signed-zero rules. -/
  | fmax (t : BitVec 8) (rd rs1 rs2 : BitVec 5)
  /-- R149: Sign injection moving bits unchanged. -/
  | fsgnj (t : BitVec 8) (rd rs1 rs2 : BitVec 5)
  /-- R149: Negated sign injection moving bits unchanged. -/
  | fsgnjn (t : BitVec 8) (rd rs1 rs2 : BitVec 5)
  /-- R149: XOR sign injection moving bits unchanged. -/
  | fsgnjx (t : BitVec 8) (rd rs1 rs2 : BitVec 5)
  /-- R55: FP64 equality compare into an s register. -/
  | feq (t : BitVec 8) (rd rs1 rs2 : BitVec 5)
  /-- R55: FP64 less-than compare into an s register. -/
  | flt (t : BitVec 8) (rd rs1 rs2 : BitVec 5)
  /-- R55: FP64 less-or-equal compare into an s register. -/
  | fle (t : BitVec 8) (rd rs1 rs2 : BitVec 5)
  /-- R479: Write a one-hot class of rs1 into bits [9:0] of rd. -/
  | fclass (t : BitVec 8) (rd rs1 : BitVec 5)
  /-- R157: Convert a signed 64-bit integer to FP64. -/
  | fcvtDL (t : BitVec 8) (rd rs1 : BitVec 5)
  /-- R157: Convert FP64 to a signed 64-bit integer with saturation. -/
  | fcvtLD (t : BitVec 8) (rd rs1 : BitVec 5)
  /-- R157: Convert an unsigned 64-bit integer to FP64. -/
  | fcvtDLu (t : BitVec 8) (rd rs1 : BitVec 5)
  /-- R157: Convert FP64 to an unsigned 64-bit integer with saturation. -/
  | fcvtLuD (t : BitVec 8) (rd rs1 : BitVec 5)
  /-- R149: Move FP64 bits to an s register unchanged. -/
  | fmvXD (t : BitVec 8) (rd rs1 : BitVec 5)
  /-- R149: Move s register bits to an f register unchanged. -/
  | fmvDX (t : BitVec 8) (rd rs1 : BitVec 5)
  /-- R479: Fused rs1 × rs2 + rs3 with one rounding. -/
  | fmadd (t : BitVec 8) (rd rs1 rs2 rs3 : BitVec 5)
  /-- R479: Fused rs1 × rs2 − rs3 with one rounding. -/
  | fmsub (t : BitVec 8) (rd rs1 rs2 rs3 : BitVec 5)
  /-- R479: Fused −(rs1 × rs2) − rs3 with one rounding. -/
  | fnmadd (t : BitVec 8) (rd rs1 rs2 rs3 : BitVec 5)
  /-- R479: Fused −(rs1 × rs2) + rs3 with one rounding. -/
  | fnmsub (t : BitVec 8) (rd rs1 rs2 rs3 : BitVec 5)
  /-- R477: CSR access with OP 0 writes the CSR's value into rd. -/
  | csrRead (t : BitVec 8) (rd rs1 : BitVec 5) (csr : BitVec 12)
  /-- R477: CSR access with OP 1 writes rs1 field by field under the privilege and RSV rules. -/
  | csrWrite (t : BitVec 8) (rd rs1 : BitVec 5) (csr : BitVec 12)
  /-- R477: CSR access with OP 2 ORs rs1 into RW fields and applies W1C and W1S bits. -/
  | csrSet (t : BitVec 8) (rd rs1 : BitVec 5) (csr : BitVec 12)
  /-- R477: CSR access with OP 3 clears the mask bits of RW fields. -/
  | csrClear (t : BitVec 8) (rd rs1 : BitVec 5) (csr : BitVec 12)
  /-- R67: Fast call: save the return address in s31, enter supervisor level and continue at entryN. -/
  | ecall (t : BitVec 8) (n : BitVec 2)
  /-- R67: Return from a fast call to user level at s31. -/
  | cret (t : BitVec 8)
  /-- R79: Restore state from the frame at fsp, return to its doubleword 0 and pop the frame. -/
  | eret (t : BitVec 8)
  /-- R78: Raise the BREAK exception. -/
  | ebreak (t : BitVec 8)
  /-- R85: Wait with the core clock gated until an enabled interrupt is pending. -/
  | wfi (t : BitVec 8)
  /-- R85: An enabled interrupt becomes pending and the waiting wfi retires. -/
  | wfiWake (t : BitVec 8)
  /-- R58: Wait for earlier stores, discard the instruction buffer and refetch. -/
  | ifence (t : BitVec 8)
  /-- R82: Wait for vector, matrix and drain work, then trap with ARITH on enabled accumulated flags or report a deferred error. -/
  | afence (t : BitVec 8)
  /-- R84: Wait until earlier K-streams, data-mover operations or buckle waits selected by the mask have completed. -/
  | ofence (t : BitVec 8) (mask : BitVec 3)
  /-- R194: Wait until earlier stores, messages or buckle signals selected by the mask have taken effect. -/
  | mfence (t : BitVec 8) (mask : BitVec 3)
  /-- R61: Start a counted hardware loop on pair lcN and lsN. -/
  | loopStart (t : BitVec 8) (pair : Bool) (ra : BitVec 5) (body : BitVec 12)
  /-- R73: A pending enabled interrupt above mask.LEVEL, or debug halt, is recognised at an instruction boundary and taken. -/
  | interrupt (t : BitVec 8)
  /-- R72: A write of a translation-entry doubleword is checked and applied, clearing V on a PPN write. -/
  | tilXlatWrite (m : Master) (t : BitVec 8) (idx : BitVec 10) (hi : Bool) (v : Word)
  /-- R74: A Cox write of TIL_COX_NOTE stores the note, sets UNREAD or OVR and makes interrupt 0x06 pending. -/
  | tilCoxNoteWrite (t : BitVec 8) (v : Word)
  /-- R89: Set GF and EW in grp and len to min(request, VLMAX), returning len. -/
  | vsetl (t : BitVec 8) (rd rs1 : BitVec 5) (gf ew : BitVec 2)
  /-- R94: Load len elements or a whole group from the own tile store into vector registers. -/
  | vld (t : BitVec 8) (vd rs1 fmt : BitVec 5) (pm : BitVec 4) (whole : Bool)
  /-- R97: First-fault load that shortens len at the first faulting element after element 0. -/
  | vldFf (t : BitVec 8) (vd rs1 fmt : BitVec 5) (pm : BitVec 4)
  /-- R94: Store len elements or a whole group to the own tile store. -/
  | vst (t : BitVec 8) (vs rs1 fmt : BitVec 5) (pm : BitVec 4) (whole : Bool)
  /-- R106: Load all 2,048 bytes of a predicate. -/
  | pld (t : BitVec 8) (pd : BitVec 3) (rs1 : BitVec 5)
  /-- R106: Store all 2,048 bytes of a predicate. -/
  | pst (t : BitVec 8) (ps : BitVec 3) (rs1 : BitVec 5)
  /-- R99: Element-wise add, vector–vector or vector–scalar. -/
  | vadd (t : BitVec 8) (vs : Bool) (vd vs1 b fmt : BitVec 5) (pm : BitVec 4)
  /-- R99: Element-wise subtract. -/
  | vsub (t : BitVec 8) (vs : Bool) (vd vs1 b fmt : BitVec 5) (pm : BitVec 4)
  /-- R99: Element-wise multiply, low W bits for integers. -/
  | vmul (t : BitVec 8) (vs : Bool) (vd vs1 b fmt : BitVec 5) (pm : BitVec 4)
  /-- R103: Element-wise FP divide at a quarter rate. -/
  | vdiv (t : BitVec 8) (vs : Bool) (vd vs1 b fmt : BitVec 5) (pm : BitVec 4)
  /-- R101: Element-wise minimum. -/
  | vmin (t : BitVec 8) (vs : Bool) (vd vs1 b fmt : BitVec 5) (pm : BitVec 4)
  /-- R101: Element-wise maximum. -/
  | vmax (t : BitVec 8) (vs : Bool) (vd vs1 b fmt : BitVec 5) (pm : BitVec 4)
  /-- R101: Element-wise AND. -/
  | vand (t : BitVec 8) (vs : Bool) (vd vs1 b fmt : BitVec 5) (pm : BitVec 4)
  /-- R101: Element-wise OR. -/
  | vor (t : BitVec 8) (vs : Bool) (vd vs1 b fmt : BitVec 5) (pm : BitVec 4)
  /-- R101: Element-wise XOR. -/
  | vxor (t : BitVec 8) (vs : Bool) (vd vs1 b fmt : BitVec 5) (pm : BitVec 4)
  /-- R101: Element-wise shift left by the second operand modulo W. -/
  | vsll (t : BitVec 8) (vs : Bool) (vd vs1 b fmt : BitVec 5) (pm : BitVec 4)
  /-- R101: Element-wise logical shift right. -/
  | vsrl (t : BitVec 8) (vs : Bool) (vd vs1 b fmt : BitVec 5) (pm : BitVec 4)
  /-- R101: Element-wise arithmetic shift right. -/
  | vsra (t : BitVec 8) (vs : Bool) (vd vs1 b fmt : BitVec 5) (pm : BitVec 4)
  /-- R99: Element-wise vd + a × b with one rounding for F. -/
  | vfma (t : BitVec 8) (vs : Bool) (vd vs1 b fmt : BitVec 5) (pm : BitVec 4)
  /-- R99: Element-wise vd − a × b with one rounding for F. -/
  | vfnms (t : BitVec 8) (vs : Bool) (vd vs1 b fmt : BitVec 5) (pm : BitVec 4)
  /-- R102: Saturating add setting VXSAT. -/
  | vsadd (t : BitVec 8) (vs : Bool) (vd vs1 b fmt : BitVec 5) (pm : BitVec 4)
  /-- R102: Saturating subtract setting VXSAT. -/
  | vssub (t : BitVec 8) (vs : Bool) (vd vs1 b fmt : BitVec 5) (pm : BitVec 4)
  /-- R102: Averaging add with VXRM rounding. -/
  | vaadd (t : BitVec 8) (vd vs1 vs2 fmt : BitVec 5) (pm : BitVec 4)
  /-- R102: Averaging subtract with VXRM rounding. -/
  | vasub (t : BitVec 8) (vd vs1 vs2 fmt : BitVec 5) (pm : BitVec 4)
  /-- R102: Fixed-point saturating multiply of two Q vectors. -/
  | smulVv (t : BitVec 8) (vd vs1 vs2 fmt : BitVec 5) (pm : BitVec 4)
  /-- R102: Fixed-point saturating multiply by a scalar. -/
  | smulVs (t : BitVec 8) (vd vs1 rs2 fmt : BitVec 5) (pm : BitVec 4)
  /-- R102: Rounding shift right by a scalar count. -/
  | ssr (t : BitVec 8) (vd vs1 rs2 fmt : BitVec 5) (pm : BitVec 4)
  /-- R102: Narrowing rounding shift with saturation to half width. -/
  | nclip (t : BitVec 8) (vd vs1 rs2 fmt : BitVec 5) (pm : BitVec 4)
  /-- R149: Unary negate of each element. -/
  | vneg (t : BitVec 8) (vd vs1 fmt : BitVec 5) (pm : BitVec 4)
  /-- R149: Unary absolute value of each element. -/
  | vabs (t : BitVec 8) (vd vs1 fmt : BitVec 5) (pm : BitVec 4)
  /-- R103: Unary FP square root at a quarter rate. -/
  | vsqrt (t : BitVec 8) (vd vs1 fmt : BitVec 5) (pm : BitVec 4)
  /-- R101: Unary bitwise NOT of each element. -/
  | vnot (t : BitVec 8) (vd vs1 fmt : BitVec 5) (pm : BitVec 4)
  /-- R149: Unary copy of each element unchanged. -/
  | vcopy (t : BitVec 8) (vd vs1 fmt : BitVec 5) (pm : BitVec 4)
  /-- R107: Fold active elements with rd along a fixed tree by sum, max, min, and, or or xor. -/
  | vred (t : BitVec 8) (rd vs1 fn fmt : BitVec 5) (pm : BitVec 4)
  /-- R108: Merge the largest active element and its index with the running best. -/
  | vmaxi (t : BitVec 8) (rd vs1 rx fmt : BitVec 5) (pm : BitVec 4)
  /-- R108: Merge the smallest active element and its index with the running best. -/
  | vmini (t : BitVec 8) (rd vs1 rx fmt : BitVec 5) (pm : BitVec 4)
  /-- R104: Convert each active element between formats, writing MX scales where needed. -/
  | vcvt (t : BitVec 8) (vd vs1 dst fmt : BitVec 5) (pm : BitVec 4)
  /-- R109: Pass elements through the fused chain described by a tile-store descriptor. -/
  | vchain (t : BitVec 8) (vd vs1 ra fmt : BitVec 5) (pm : BitVec 4)
  /-- R105: Compare two vectors under COND into a predicate. -/
  | vcmpVv (t : BitVec 8) (pd cond : BitVec 3) (vs1 vs2 fmt : BitVec 5) (gov : BitVec 3)
  /-- R105: Compare a vector with a scalar under COND into a predicate. -/
  | vcmpVs (t : BitVec 8) (pd cond : BitVec 3) (vs1 b fmt : BitVec 5) (gov : BitVec 3)
  /-- R106: Apply a logic function to two predicates. -/
  | plogic (t : BitVec 8) (pd pa pb fn : BitVec 3)
  /-- R106: Set predicate bits below len to VAL. -/
  | pset (t : BitVec 8) (pd : BitVec 3) (val : Bool)
  /-- R106: Count predicate 1 bits below len into rd. -/
  | pcount (t : BitVec 8) (rd : BitVec 5) (pa : BitVec 3)
  /-- R106: Write the index of the lowest predicate 1 bit below len, or all ones. -/
  | pfirst (t : BitVec 8) (rd : BitVec 5) (pa : BitVec 3)
  /-- R100: Broadcast a scalar into the active elements of a vector. -/
  | vsplat (t : BitVec 8) (vd r fmt : BitVec 5) (pm : BitVec 4)
  /-- R100: Copy element 0, exactly widened, into a scalar register. -/
  | vext (t : BitVec 8) (rd vs fmt : BitVec 5)
  /-- R115: After 2,048 idle tile cycles the vector engine gates its datapath. -/
  | vectorGate (t : BitVec 8)
  /-- R124: A two-word K-stream is checked and handed to the K-stream unit to accumulate operand panels into a bank. -/
  | kStream (t : BitVec 8) (rs1 rs2 rs3 : BitVec 5) (bank : BitVec 2) (zero : Bool) (desc : BitVec 32)
  /-- R125: The ready buckle yields a count and the array begins reading the next ring panel, adding to the free buckle after it. -/
  | ringTake (t : BitVec 8)
  /-- R132: A K-stream finishes its last K index, retiring in precise mode and freeing its bank for later operations. -/
  | kstreamComplete (t : BitVec 8)
  /-- R134: An uncorrectable operand or nonzero trailer byte stops the K-stream, discards later unit operations and sets mprog.ERR. -/
  | deferredError (t : BitVec 8)
  /-- R135: After a trap entry the K-stream unit pauses at the next boundary and writes KDONE and PCW into mprog. -/
  | kstreamPause (t : BitVec 8) (kdone : BitVec 32)
  /-- R140: Send bank rows through the fused chain into ROW or PANEL layout. -/
  | mdrain (t : BitVec 8) (dst desc par arg : BitVec 5) (bank : BitVec 2) (panel : Bool)
  /-- R133: A drain writes its last results and counts as retired. -/
  | mdrainComplete (t : BitVec 8)
  /-- R129: Set every element of a bank to +0. -/
  | mzero (t : BitVec 8) (bank : BitVec 2)
  /-- R144: Load a raw bank image into a bank. -/
  | mload (t : BitVec 8) (rs1 : BitVec 5) (bank : BitVec 2)
  /-- R144: Add a raw bank image into a bank with one RNE rounding per element. -/
  | madd (t : BitVec 8) (rs1 : BitVec 5) (bank : BitVec 2)
  /-- R120: A write that changes accmode.MODE waits for matrix work and zeroes the accumulator file. -/
  | accmodeChange (t : BitVec 8) (op : BitVec 2) (rd rs1 : BitVec 5)
  /-- R139: Writing 1 to mprog.VALID discards the paused or held stream and later K-stream unit operations. -/
  | mprogDiscard (t : BitVec 8) (op : BitVec 2) (rd rs1 : BitVec 5)
  /-- R146: After 2,048 idle tile cycles the matrix array gates its clock. -/
  | matrixGate (t : BitVec 8)
  /-- R167: Counts from a vchain or drain slice reach the numerics watch, raising a threshold event when an enabled counter reaches THRESH. -/
  | nwtCount (t : BitVec 9)
  /-- R168: A write of NWT_CTRL.EN enables or disables the numerics watch under R11. -/
  | nwtEn (m : Master) (d : BitVec 3) (v : Word)
  /-- R167: Writing 1 to NWT_THR_g.CLR clears the tag's four counters. -/
  | nwtClear (m : Master) (d : BitVec 3) (g : BitVec 8) (v : Word)
  /-- R177: dmpost checks and queues a COPY descriptor moving rows between memory classes. -/
  | copy (t : BitVec 8) (rd rs1 : BitVec 5) (nb : Bool)
  /-- R177: dmpost checks and queues a GATHER descriptor collecting indexed elements into the own store. -/
  | gather (t : BitVec 8) (rd rs1 : BitVec 5) (nb : Bool)
  /-- R177: dmpost checks and queues a SCATTER descriptor spreading elements to indexed addresses. -/
  | scatter (t : BitVec 8) (rd rs1 : BitVec 5) (nb : Bool)
  /-- R177: dmpost checks and queues a PUT descriptor writing rows into a tile-store window. -/
  | put (t : BitVec 8) (rd rs1 : BitVec 5) (nb : Bool)
  /-- R177: dmpost checks and queues a GET descriptor reading rows from a tile-store window. -/
  | getOp (t : BitVec 8) (rd rs1 : BitVec 5) (nb : Bool)
  /-- R180: dmpost checks and queues a REDUCE_PUT member descriptor of a fixed-tree reduction across tiles. -/
  | reducePut (t : BitVec 8) (rd rs1 : BitVec 5) (nb : Bool)
  /-- R174: Write the number of queued and active descriptors into rd. -/
  | dmstat (t : BitVec 8) (rd : BitVec 5)
  /-- R176: A queued descriptor enters a free active slot and registers its gate wait if GBV is set. -/
  | descriptorEnterSlot (t : BitVec 8)
  /-- R176: A descriptor's gate wait completes and it starts performing its units. -/
  | gateSatisfied (t : BitVec 8) (ticket : BitVec 32)
  /-- R179: A descriptor ends: writes visible, RB add, record written, CB add and IRQ set in order. -/
  | descriptorComplete (t : BitVec 8) (ticket : BitVec 32)
  /-- R181: A child partial or failure mark reaches a REDUCE_PUT member's staging slot and is combined at its level. -/
  | reducePartial (t : BitVec 8) (ticket : BitVec 32)
  /-- R183: A write of TIL_DM_CTRL.EN enables the data mover or starts its 4-stroke drain. -/
  | tilDmEn (m : Master) (t : BitVec 8) (v : Word)
  /-- R183: The data-mover drain limit expires and unfinished descriptors complete ABORTED_DISABLE. -/
  | dmDrainLimit (t : BitVec 8) (more : BitVec 32)
  /-- R184: Copy registers and a TAG into the outbound queue for a logical tile. -/
  | msend (t : BitVec 8) (rt rs : BitVec 5) (n : BitVec 3) (tag : BitVec 11)
  /-- R185: 64 tile cycles after a refusal the sender offers the head message again. -/
  | messageRefusalRetry (t : BitVec 8)
  /-- R186: Take the oldest inbox slot into the own store and return its header. -/
  | mrecv (t : BitVec 8) (rd rsDst : BitVec 5)
  /-- R186: Write the number of occupied inbox slots into rd. -/
  | mcount (t : BitVec 8) (rd : BitVec 5)
  /-- R187: A write of TIL_MSG_CTRL.EN opens the inbox or starts its drain. -/
  | tilMsgEn (m : Master) (t : BitVec 8) (v : Word)
  /-- R187: The inbox drain limit expires and senders discard still-refused messages with ABORT set. -/
  | msgDrainLimit (t : BitVec 8)
  /-- R192: Hand off an add of n to a buckle's home. -/
  | bsig (t : BitVec 8) (rb rn : BitVec 5)
  /-- R192: Hand off an add with buckle and count in the instruction. -/
  | bsigi (t : BitVec 8) (b : BitVec 14) (count : BitVec 10)
  /-- R191: Hand off a wait for n to a buckle's home and retire. -/
  | bwait (t : BitVec 8) (rb rn : BitVec 5) (irq : Bool)
  /-- R192: Request a buckle's count and wait for the result. -/
  | bread (t : BitVec 8) (rd rb : BitVec 5)
  /-- R192: Hand off a replacement of a buckle's count. -/
  | bset (t : BitVec 8) (rb rn : BitVec 5)
  /-- R192: The home's count reaches the waiting bread and it retires. -/
  | breadResult (t : BitVec 8)
  /-- R191: A satisfied wait reaches its waiter, completing the bwait and setting WAIT_DONE when IRQ was set. -/
  | waitComplete (t : BitVec 8) (irq : Bool)
  /-- R192: A write to a TIL_BKL COUNT acts as bset at the home. -/
  | tilBklWrite (m : Master) (t : BitVec 8) (idx : BitVec 6) (v : Word)
  /-- R217: A cache way's eighth parity event within 65,536 strokes starts its clean and disable. -/
  | automaticWayDisable (d : BitVec 3) (way : BitVec 4)
  /-- R203: A write of LLS_CTRL.EN enables caching, is refused with SEQ_ERR, or starts write-back draining. -/
  | llsEn (m : Master) (d : BitVec 3) (v : Word)
  /-- R203: The 1,024-stroke LLS drain limit expires, aborting requests and discarding unwritten dirty lines. -/
  | llsDrainLimit (d : BitVec 3)
  /-- R211: Burnisher command writing back dirty lines of a range. -/
  | clean (m : Master) (d : BitVec 3) (slot : BitVec 6) (v : Word)
  /-- R211: Burnisher command writing back and invalidating lines of a range. -/
  | flush (m : Master) (d : BitVec 3) (slot : BitVec 6) (v : Word)
  /-- R211: Burnisher command invalidating lines of a range without write-back. -/
  | invalidate (m : Master) (d : BitVec 3) (slot : BitVec 6) (v : Word)
  /-- R211: Burnisher command zeroing lines of a range in memory. -/
  | zero (m : Master) (d : BitVec 3) (slot : BitVec 6) (v : Word)
  /-- R211: Burnisher command filling absent lines of a range as advice. -/
  | prefetch (m : Master) (d : BitVec 3) (slot : BitVec 6) (v : Word)
  /-- R202: Burnisher command invalidating every cache line and setting TAGS_VALID. -/
  | invalidateAll (m : Master) (d : BitVec 3) (slot : BitVec 6) (v : Word)
  /-- R206: Burnisher command converting a cache way into zeroed scratch SRAM. -/
  | wayToScratch (m : Master) (d : BitVec 3) (slot : BitVec 6) (v : Word)
  /-- R207: Burnisher command returning a scratch way to cache, discarding its contents. -/
  | wayToCache (m : Master) (d : BitVec 3) (slot : BitVec 6) (v : Word)
  /-- R209: Burnisher command flushing every cache way. -/
  | flushAll (m : Master) (d : BitVec 3) (slot : BitVec 6) (v : Word)
  /-- R217: Burnisher command disabling a way as the automatic disable does. -/
  | wayDisable (m : Master) (d : BitVec 3) (slot : BitVec 6) (v : Word)
  /-- R210: Burnisher command invalidating a disabled way and making it eligible. -/
  | wayEnable (m : Master) (d : BitVec 3) (slot : BitVec 6) (v : Word)
  /-- R209: The idle Burnisher takes the next queued command in submission order and runs it. -/
  | burnisherStart (d : BitVec 3)
  /-- R213: A Burnisher command completes, writing RESULT and LINES, setting DONE and adding to CB. -/
  | burnisherComplete (d : BitVec 3) (lines : BitVec 32)
  /-- R214: Writing 1 to a slot's CANCEL ends its queued or running range command. -/
  | burnisherCancel (m : Master) (d : BitVec 3) (slot : BitVec 6)
  /-- R216: A Cox write of 1 to LLS_LOST_e.V removes a lost-line entry. -/
  | lostEntryRemove (m : Master) (d : BitVec 3) (e : BitVec 6)
  /-- R223: A memory window's length in strokes expires and the window closes. -/
  | memoryWindowEnd (mem : BitVec 6)
  /-- R224: A target without a retrain window for 3,600,000 ms is retrained without one and UNSCHED is set. -/
  | unscheduledRetrain (mem : BitVec 6)
  /-- R226: Patrol scrub reads each codeword once per day, writing back corrections and recording row failures. -/
  | patrolScrub (a : BitVec 48)
  /-- R471: After the first training following a reset the controller rewrites every codeword with agreeing check bytes. -/
  | initialSweep (mem : BitVec 6) (upTo : BitVec 48)
  /-- R233: A tick's temperature sample moves a memory between NORMAL, WARN, THROTTLE and OFFLINE. -/
  | memoryTemperatureSample (mem : BitVec 6) (temp : BitVec 8) (exceeded : Bool) (left : BitVec 32)
  /-- R234: The 64-stroke OFFLINE drain expires and unwritten dirty lines enter the lost-line table. -/
  | offlineDrainLimit (mem : BitVec 6)
  /-- R232: A write of HBM_THR or BLK_THR sets thresholds or is discarded with ARG_ERR. -/
  | thrWrite (w : Master) (mem : BitVec 6) (v : Word)
  /-- R241: A write of CXS_POOL_ADD appends a frame to the pool or is discarded with POOL_ERR. -/
  | cxsPoolAdd (m : Master) (d : BitVec 3) (v : Word)
  /-- R251: A write of CXS_POOL_BASE sets and empties the frame ring, or is discarded with POOL_ERR. -/
  | cxsPoolBaseWrite (m : Master) (d : BitVec 3) (v : Word)
  /-- R243: Streamer command that brings BULK pages into HBM frames. -/
  | fetch (m : Master) (d : BitVec 3) (idx : BitVec 6) (w0 w1 w2 w3 : Word)
  /-- R243: Streamer command that writes back and frees HBM frames of pages. -/
  | evict (m : Master) (d : BitVec 3) (idx : BitVec 6) (w0 w1 w2 w3 : Word)
  /-- R245: Streamer command that converts pages into a tile store or scratch way. -/
  | stage (m : Master) (d : BitVec 3) (idx : BitVec 6) (w0 w1 w2 w3 : Word)
  /-- R243: Streamer command that adds new HBM-resident pages at NPAGES. -/
  | append (m : Master) (d : BitVec 3) (idx : BitVec 6) (w0 w1 w2 w3 : Word)
  /-- R243: Streamer command that writes HBM pages to their bulk slots. -/
  | writeback (m : Master) (d : BitVec 3) (idx : BitVec 6) (w0 w1 w2 w3 : Word)
  /-- R243: Streamer command that makes pages ABSENT and frees their frames. -/
  | drop (m : Master) (d : BitVec 3) (idx : BitVec 6) (w0 w1 w2 w3 : Word)
  /-- R247: At the catch of START a queued command becomes eligible and runs when among the 16 earliest-DUE commands. -/
  | cxsEligible (d : BitVec 3)
  /-- R248: At the catch of DUE a FETCH or APPEND still waiting for a frame ends with NO_FRAME. -/
  | cxsDue (d : BitVec 3) (idx : BitVec 8)
  /-- R249: A streamer command completes: pages visible, record written with LATE if due passed, CB added. -/
  | cxsComplete (d : BitVec 3) (idx : BitVec 8)
  /-- R250: A write of CXS_CTRL.EN enables the streamer or starts its 1,024-stroke drain. -/
  | cxsEn (m : Master) (d : BitVec 3) (v : Word)
  /-- R251: A write setting a context's EN checks its fields, or clearing it drains its commands. -/
  | contextEn (m : Master) (d : BitVec 3) (c : BitVec 7) (v : Word)
  /-- R250: The streamer or context drain limit expires and remaining commands complete ABORTED_DISABLE. -/
  | cxsDrainLimit (d : BitVec 3) (ctx : BitVec 8)
  /-- R256: A received rigger flit is checked, accepted with its ACK, NAK and credits, or rejected with a NAK. -/
  | flit (k : BitVec 4) (p : BitVec 3) (f : BitVec 2048) (err : FlitErr) (send : FlitSend)
  /-- R258: A rigger recovery completes and replays from ACK + 1, or after three failures the port enters FAILED. -/
  | recoveryEnd (k : BitVec 4) (p : BitVec 3) (tested : Option (List Nat))
  /-- R258: A Cox write of 1 to PCTRL.RECOV starts a rigger port recovery. -/
  | recov (m : Master) (k : BitVec 4) (p : BitVec 3)
  /-- R267: A write of PCTRL.EN reroutes traffic and drains the port, or starts its training. -/
  | vknPortEn (m : Master) (k : BitVec 4) (p : BitVec 3) (v : Word)
  /-- R267: A rigger port's one-stroke drain expires and undelivered messages end under R265. -/
  | vknDrainLimit (k : BitVec 4) (p : BitVec 3)
  /-- R197: A Vekin read request reaches its home die and is performed at the LLS. -/
  | rd (cls : BitVec 3) (src : BitVec 4) (unit : BitVec 12) (tag : BitVec 16) (a : BitVec 48)
  /-- R197: A Vekin full-line write reaches its home die and is performed. -/
  | wr (cls : BitVec 3) (src : BitVec 4) (unit : BitVec 12) (tag : BitVec 16) (a : BitVec 48) (v : BitVec 1024)
  /-- R225: A Vekin masked partial write reaches its home and is merged. -/
  | wrp (idx : BitVec 16)
  /-- R262: Read data returns to its requester. -/
  | rdata (dst : BitVec 4) (unit : BitVec 12)
  /-- R262: A write acknowledgement returns to its requester. -/
  | wack (dst : BitVec 4) (unit : BitVec 12)
  /-- R227: An error response returns the uncorrectable or completion status to its requester. -/
  | err (dst : BitVec 4) (unit : BitVec 12)
  /-- R188: A buckle operation reaches its home, changes or reads the count and serves the waiter queue in order. -/
  | bkl (t h : BitVec 8)
  /-- R185: A message reaches its target inbox and is stored and acknowledged, or refused when full or disabled. -/
  | msg (t : BitVec 8)
  /-- R45: A catch-event dispatch reaches its target on a compute die. -/
  | evt (idx : BitVec 9)
  /-- R478: A control-space read reaches its block. -/
  | crd (t : BitVec 8)
  /-- R478: A control-space write reaches its block and takes effect in program order. -/
  | cwr (t : BitVec 8) (a : BitVec 48)
  /-- R478: A control-space response returns to its requester. -/
  | crsp (t : BitVec 8)
  /-- R268: An event from a compute-die block reaches the Cox. -/
  | note (d : BitVec 3)
  /-- R4: A write to a register without a row of its own is stored, discarded for RSV or permission, or clears W1C bits. -/
  | registerWrite (m : Master) (a : BitVec 52) (v : Word)
  /-- R273: A read of MB_CLAIM claims the lowest FREE mailbox or returns NONE. -/
  | mbClaim (tag : BitVec 14)
  /-- R272: A doorbell hands a CLAIMED or DONE mailbox to the Cox, or is recorded in MB_ERR. -/
  | mbDoorbell (v : Word)
  /-- R272: A release frees a CLAIMED or DONE mailbox, or is recorded in MB_ERR. -/
  | mbRelease (v : Word)
  /-- R273: A mailbox CLAIMED for 1,000 ticks without a doorbell returns to FREE. -/
  | claimExpiry (m : BitVec 9)
  /-- R271: A Cox command arrives as an MCTP vendor message, or a ninth outstanding one is answered BUSY. -/
  | mctpRequest (ep : BitVec 8) (m : MctpHead) (h0 h1 : Word) (rest : Bool) (ws : List Word)
  /-- R282: A session with no command for 1,000 ticks closes at a tick boundary. -/
  | sessionLeaseExpiry (n : BitVec 16)
  /-- R285: A lockstep mismatch or activation restarts the Cox, latching doorbells and stopping leases. -/
  | coxRestart (activation : Bool)
  /-- R285: The Cox finishes restarting, resumes long operations and serves latched requests. -/
  | coxRestartEnd
  /-- R287: A long operation reaches DONE, FAILED or CANCELLED and reports a LOP_STATE event. -/
  | longOperationEnd (h : BitVec 32) (ok : Bool)
  /-- R286: 60,000 ticks after an operation ended its handle expires. -/
  | handleExpiry (h : BitVec 32)
  /-- R279: Open a session with agreed minor version and role. -/
  | hello
  /-- R282: Close the session. -/
  | bye
  /-- R289: Return the tick and stroke. -/
  | ping
  /-- R288: Return and remove the oldest event records with the lost count. -/
  | eventRead
  /-- R288: Replace the session's event mask. -/
  | eventMask
  /-- R287: Return a long operation's query record. -/
  | lopQuery
  /-- R287: Suspend a long operation at its next safe point. -/
  | lopSuspend
  /-- R287: Return a suspended operation to QUEUED. -/
  | lopResume
  /-- R287: Cancel a long operation. -/
  | lopCancel
  /-- R289: List the client's handles and states. -/
  | lopList
  /-- R289: Return identity, ordering code, interface version, spares and memory states. -/
  | devInfo
  /-- R301: Fill a telemetry slot and return its stroke. -/
  | telemSnap
  /-- R289: Return numerics-watch counters summed over the eight dies. -/
  | nwtSum
  /-- R381: Return error-log or Cox-log records from a sequence. -/
  | logRead
  /-- R378: Return retire-list entries from an index. -/
  | retireRead
  /-- R290: Create a launch ring and its doorbell page in BAR4. -/
  | ringCreate
  /-- R292: Destroy a launch ring, discarding undelivered entries and withdrawing its free-buckle takes. -/
  | ringDestroy
  /-- R303: Write a BAR2 window entry. -/
  | winMap
  /-- R304: Invalidate a BAR2 window. -/
  | winUnmap
  /-- R295: Load start CSRs into idle tiles and start them. -/
  | tileStart
  /-- R295: Restart escalated tiles, clearing TIL_ESC.VALID. -/
  | tileRestart
  /-- R295: Halt tiles, withdraw waits, drain the data mover and return them to the start state. -/
  | tileReset
  /-- R74: Make debug halt, interrupt code 0x07, pending in tiles. -/
  | tileHalt
  /-- R74: Write a 48-bit note to tiles' TIL_COX_NOTE. -/
  | tileNote
  /-- R289: Arm a catch-event entry of kind 0x5, 0x6 or 0x7 for the host. -/
  | eventArm
  /-- R289: Free a host catch-event entry and return its final state. -/
  | eventFree
  /-- R289: Configure stroke source, stepping, output, period, compensation, epoch and PTP. -/
  | strokeCfg
  /-- R28: Make a stroke-number load pending. -/
  | strokeLoad
  /-- R226: Scrub a device range immediately, counting corrections. -/
  | scrub
  /-- R214: Run a range Burnisher operation through slot 32 for the host. -/
  | burnish
  /-- R206: Run a way operation through slot 32 for the host. -/
  | llsWay
  /-- R235: Return an OFFLINE memory to NORMAL after retraining. -/
  | memOnline
  /-- R317: Configure a fabric port's addresses and mode and enable it. -/
  | fabCfg
  /-- R328: Found or join a crew, completing when the crew becomes active. -/
  | crewForm
  /-- R330: Depart a crew at a permitted epoch boundary. -/
  | crewLeave
  /-- R325: Return members, epoch, pace and deadline state of a crew. -/
  | crewStatus
  /-- R349: Start joining a pair with checkpoint and staging parameters. -/
  | pairJoin
  /-- R349: Stop checkpoints, free partner images and return to UNPAIRED. -/
  | pairLeave
  /-- R351: Declare, change or free a mirrored or journal region. -/
  | mirrorRegion (refused : Bool)
  /-- R364: Configure journal interval, phase and ring. -/
  | journalCfg
  /-- R387: Fill a cap slot and arm a power step at a due stroke. -/
  | powerCap
  /-- R402: Request entry into Easy at the first quiescent catch. -/
  | easyEnter
  /-- R407: Start or adopt a patina re-plan over selected dies. -/
  | marginReplan
  /-- R408: Return patina rows for physical tiles. -/
  | patinaRead
  /-- R422: Read and verify a firmware image into staging SRAM. -/
  | fwStage
  /-- R423: Reverify, write to flash and restart the Cox into the staged image. -/
  | fwActivate
  /-- R426: Issue a nonce or present a signed token to set the debug level. -/
  | debugUnlock
  /-- R441: Reset the data plane at the given scope and bring it back to READY. -/
  | dataReset
  /-- R283: Release every object of a CLIENT_ID and origin. -/
  | reclaim
  /-- R328: A joiner's request for admission reaches the leader. -/
  | crewJoin
  /-- R330: The leader's roster announces members effective at an epoch boundary. -/
  | crewRoster
  /-- R328: A member reports its contexts open for the roster. -/
  | crewReady
  /-- R330: A member's departure request reaches the leader. -/
  | crewDepart
  /-- R289: A member asks another for its CREW_STATUS result. -/
  | crewQuery
  /-- R291: A host write of RING_TAIL makes entries available, or stops the ring with OVERRUN. -/
  | ringTail (n : BitVec 6) (v : Word)
  /-- R292: The launch engine takes a free count and writes an entry into a tile's landing slot, adding to the ready buckle. -/
  | launchDelivery (n : BitVec 6)
  /-- R294: A write of RING_NOTIFY counts and raises the ring's vector when NIRQ is set. -/
  | ringNotify (m : Master) (n : BitVec 6)
  /-- R291: Writing 1 to RING_RESTART leaves ERR and resumes delivery at HEAD. -/
  | ringRestart (n : BitVec 6) (v : Word)
  /-- R305: An inbound host read through a BAR is served after earlier posted writes, or fails under R306. -/
  | hostRead (bar : BitVec 3) (o : BitVec 42) (n : BitVec 13) (tag : BitVec 14)
  /-- R305: An inbound posted write is performed at its home in order, or discarded under R306. -/
  | hostWrite (bar : BitVec 3) (o : BitVec 42) (n : BitVec 10) (v : BitVec 4096) (ep : Bool)
  /-- R297: An AtomicOp or other unsupported request is answered Unsupported Request and logged in AER. -/
  | unsupportedRequest (tag : BitVec 14) (posted : Bool)
  /-- R308: Clearing a mask bit whose cause is set raises MSI-X vector 0. -/
  | hostIntMaskWrite (v : Word)
  /-- R308: Unmasking an MSI-X vector with its pending bit set sends it once. -/
  | msixUnmask (v : BitVec 11)
  /-- R304: A Resizable BAR write changes BAR2's size and which windows decode. -/
  | bar2Resize (log2 : BitVec 6)
  /-- R311: A host completion for an outbound read returns data, or ends the unit with FAULT or MEM_UNCORR. -/
  | outboundCompletion (r : OutReq) (how : BitVec 2) (data : List Byte)
  /-- R311: An outbound read reaches its 50 ms completion timeout and its unit ends with FAULT. -/
  | outboundTimeout (r : OutReq)
  /-- R312: An FLR resets the host-facing state of Table 12.8 within 10 ms. -/
  | functionLevelReset
  /-- R430: PERST_N assertion, hot reset or link loss resets the host-facing function, ending host-side transfers ABORTED_HOST. -/
  | hostFunctionReset (kind : BitVec 2)
  /-- R315: A fabric port trains, degrades, fails or drops, changing its STATE. -/
  | fabLinkChange (p : BitVec 3) (what : BitVec 2) (lanes : BitVec 3)
  /-- R316: A received fabric frame is delivered as ECT, PTP or ARP/ND, or discarded and counted. -/
  | fabricFrame (p : BitVec 3) (kind : BitVec 3) (ptp : PtpHead)
  /-- R343: A write of FAB_PCTRL.EN enables a fabric port or drains it. -/
  | fabPortEn (m : Master) (p : BitVec 3) (v : Word)
  /-- R343: A fabric port's drain expires and queued packets are recovered on other ports. -/
  | fabPortDrainLimit (p : BitVec 3)
  /-- R321: A standalone ECT acknowledgement advances the sender's acknowledged PSNs. -/
  | ectAck (p : BitVec 3) (h : Hdr) (src : IpFrom)
  /-- R325: An ECT heartbeat records LAST_HEARD on its context. -/
  | heartbeat (p : BitVec 3) (h : Hdr) (src : IpFrom)
  /-- R334: A collective chunk is placed and combined at its tree position or stored as a result. -/
  | coll (p : BitVec 3) (h : Hdr) (src : BitVec 128) (ce : Bool) (w0 w1 w2 : Word) (flags : BitVec 5) (n : BitVec 13) (data : BitVec 32768)
  /-- R336: PUT data is placed in the receive range, or refused outside it. -/
  | ectPut (p : BitVec 3) (h : Hdr) (src : BitVec 128) (ce : Bool) (w0 w1 w2 : Word) (n : BitVec 13) (data : BitVec 32768)
  /-- R341: A pace advisory or withdrawal notice is delivered in PSN order and forwarded down the tree. -/
  | ctrl (p : BitVec 3) (h : Hdr) (src : BitVec 128) (u : UdpIn) (k : BitVec 10) (kind : BitVec 2) (a : Word) (b : BitVec 4)
  /-- R327: A Cox request or response carried over ECT is delivered on the ECT origin. -/
  | mgmt (p : BitVec 3) (h : Hdr) (src : BitVec 128) (ce resp : Bool) (ws : List Word)
  /-- R322: A packet unacknowledged for RTO strokes is retransmitted, or the context enters LOST. -/
  | retransmitTimeout (pair : Bool) (x : BitVec 16) (psn : BitVec 32)
  /-- R322: HB_LOSS strokes pass without any packet and the context enters LOST. -/
  | heartbeatLoss (x : BitVec 16)
  /-- R334: Submit a crew ALLREDUCE along rotated fixed trees. -/
  | allreduce (m : Master) (idx : BitVec 9) (ws : List Word)
  /-- R334: Submit a crew REDUCE to the PEER. -/
  | reduce (m : Master) (idx : BitVec 9) (ws : List Word)
  /-- R333: Submit a crew BROADCAST from the PEER. -/
  | broadcast (m : Master) (idx : BitVec 9) (ws : List Word)
  /-- R333: Submit a crew ALLGATHER. -/
  | allgather (m : Master) (idx : BitVec 9) (ws : List Word)
  /-- R334: Submit a crew REDUCE_SCATTER. -/
  | reduceScatter (m : Master) (idx : BitVec 9) (ws : List Word)
  /-- R333: Submit a crew BARRIER. -/
  | barrier (m : Master) (idx : BitVec 9) (ws : List Word)
  /-- R336: Submit a crew PUT into a member's receive range. -/
  | crewPut (m : Master) (idx : BitVec 9) (ws : List Word)
  /-- R337: A crew operation completes: DST visible, record written, CB added. -/
  | crewOpComplete (k : BitVec 10) (phase : BitVec 32) (opid : BitVec 16)
  /-- R338: At phase start plus DEADLINE plus stretch an unfinished operation ends with DEADLINE. -/
  | crewDeadline (k : BitVec 10) (phase : BitVec 32) (opid : BitVec 16)
  /-- R330: An epoch boundary applies announced membership changes and may make a crew active. -/
  | epochBoundary (n : CrewAt)
  /-- R343: A write of CRW_CTRL.EN enables the crew engine or drains it. -/
  | crwEn (m : Master) (v : Word)
  /-- R343: The 256-stroke crew-engine drain expires and operations complete ABORTED_DISABLE. -/
  | crwDrainLimit
  /-- R345: A pair port comes UP or goes DOWN, moving DEGRADED pairs to SYNCING or PAIRED pairs to DEGRADED. -/
  | pairLinkChange (p : BitVec 1) (what : BitVec 2) (lanes : BitVec 3)
  /-- R348: A pair heartbeat frame records MIR_HEARD.PAIR and the partner's state flags. -/
  | hb (p : BitVec 1) (h : Hdr)
  /-- R349: A pair HELLO frame carries the partner's parameters and is checked for cabling and agreement. -/
  | pairHello (p : BitVec 1) (h : Hdr) (ws : List Word) (period : BitVec 17)
  /-- R357: A checkpoint granule is written into the staging area. -/
  | gran (p : BitVec 1) (h : Hdr) (seq : GranHead) (a : BitVec 48) (data : BitVec 32768)
  /-- R357: A checkpoint END with matching count makes the receiver apply staging and send COMMIT. -/
  | endFrame (p : BitVec 1) (h : Hdr) (seq count : BitVec 32)
  /-- R357: A COMMIT records the checkpoint as committed at both modules. -/
  | commit (p : BitVec 1) (h : Hdr) (seq : BitVec 32)
  /-- R350: A partner region declaration or removal is accepted or refused. -/
  | regionFrame (p : BitVec 1) (h : Hdr) (r : BitVec 8) (lo hi : Word × Word)
  /-- R359: A SYNC frame writes a granule directly, or carries a restore request or answer. -/
  | syncFrame (p : BitVec 1) (h : Hdr) (a : SyncHead) (data : Option (BitVec 32768))
  /-- R363: A chunk of the partner's firmware image arrives for recovery. -/
  | image (p : BitVec 1) (h : Hdr) (off : BitVec 32) (data : List Byte)
  /-- R347: A pair acknowledgement clears FROZEN bits of sent granules and releases waiting writes. -/
  | pairAck (p : BitVec 1) (h : Hdr)
  /-- R354: A checkpoint freeze reaches an LLS slice and moves CUR into FROZEN. -/
  | llsFreeze (d : BitVec 3)
  /-- R358: 64 silent strokes on pair and fabric heartbeat make the module take over, or enter DEGRADED if the fabric is heard. -/
  | partnerLost
  /-- R364: After an interval's copies complete the engine appends a journal record and raises a MIR event. -/
  | journalRecord (failed : List (BitVec 36))
  /-- R367: A write of MIR_CTRL.EN enables the mirror engine or drains it. -/
  | mirEn (m : Master) (v : Word)
  /-- R367: The 64-stroke mirror drain expires: the checkpoint is uncommitted or the record ends ABORTED_DISABLE. -/
  | mirDrainLimit
  /-- R373: No restore answer within 8 strokes: held accesses receive the uncorrectable response and lines enter the lost-line table. -/
  | restoreTimeout (a : BitVec 48)
  /-- R363: New firmware fails to set COX_UP within 1,000 ticks and the boot ROM recovers from the partner or enters recovery. -/
  | coxUpTimeout
  /-- R380: Writing 1 to RAS_Q_POP removes the head RAS record for the error log. -/
  | rasQPop (m : Master) (k : BitVec 4) (v : Word)
  /-- R382: A RAS_INJECT write arms an error at an address when debug is unlocked, or sets PERM_ERR. -/
  | rasInject (m : Master) (k : BitVec 4) (v : Word)
  /-- R374: A Cox write of 1 to RAS_LOSTPG_e.V removes a lost-page entry and may unfence the die. -/
  | lostPageRemove (m : Master) (d : BitVec 3) (e : BitVec 4)
  /-- R377: Cox firmware writes a retirement, disable, repair or substitution record to flash. -/
  | rasFlashRecord
  /-- R383: The input held above 66 V for 10 ms starts the power-up sequence. -/
  | inputQualified (strap : BitVec 4)
  /-- R385: A rail reports power-good and the next rail starts. -/
  | railPowerGood
  /-- R386: An under- or overvoltage, rail, regulator or thermal fault drops every rail and records PWR_TRIP. -/
  | trip (kind which : BitVec 8)
  /-- R390: Input current above 90 A for 2 µs sets every tile to 1,200 MHz without waiting for a catch. -/
  | emergencyClamp
  /-- R391: A write of PWR_CTRL.CAP_EN enables or suspends the application of power steps. -/
  | capEn (m : Master) (v : Word)
  /-- R392: Every 1,024 tile cycles a tile's trim loop adjusts its voltage and frequency from its monitors. -/
  | trimLoop (d : BitVec 3) (idx : BitVec 6) (slack : BitVec 2)
  /-- R392: A detected supply droop stretches the tile clock within 2 cycles. -/
  | supplyDroop (d : BitVec 3) (idx : BitVec 6)
  /-- R395: A due tile starts moving onto the lowest free spare at a permitted catch. -/
  | placementMove (d : BitVec 3)
  /-- R395: After S strokes the spare runs as the logical tile and held traffic is delivered. -/
  | placementMoveEnd (d : BitVec 3)
  /-- R397: A write of TRM_CTRL.PLACE_EN enables or holds placement moves. -/
  | placeEn (m : Master) (d : BitVec 3) (v : Word)
  /-- R399: A 10 µs die temperature sample raises WARN events or trips at 115 °C. -/
  | dieTemperatureSample (d : BitVec 4) (temps : List (BitVec 8))
  /-- R401: The flow estimate stays below 2.0 L/min for 1,000 ticks and FLOW_LOW is set. -/
  | coolantFlowLow
  /-- R403: At the first quiescent catch memories enter self-refresh, dies enter retention and EASY is set. -/
  | easyEntry
  /-- R405: A low held 1 µs on EASY_WAKE_N triggers wake from Easy. -/
  | easyWakeN
  /-- R405: At the catch of stroke n + W the data plane resumes, EASY clears and held events fire late. -/
  | easyResume
  /-- R407: 86,400,000 ms after the previous start Cox firmware starts a re-plan of all dies. -/
  | dailyReplan
  /-- R415: Writing 1 to SEC_CTRL.ADVANCE blows version fuses and revokes slots per the running header, or sets ADV_REJ. -/
  | advance (m : Master)
  /-- R420: SPDM request for supported versions. -/
  | getVersion (who : BitVec 8)
  /-- R420: SPDM request for capabilities. -/
  | getCapabilities (who : BitVec 8)
  /-- R420: SPDM negotiation of Falcon-1024 and SHAKE256. -/
  | negotiateAlgorithms (who : BitVec 8) (sig hash : Bool)
  /-- R420: SPDM request for certificate-chain digests. -/
  | getDigests (who : BitVec 8)
  /-- R420: SPDM request for the slot 0 certificate chain. -/
  | getCertificate (who slot : BitVec 8) (off len : BitVec 16)
  /-- R420: SPDM challenge signed with the alias key. -/
  | challenge (who slot : BitVec 8)
  /-- R420: SPDM request for measurement blocks, signed as a quote when asked. -/
  | getMeasurements (who index : BitVec 8) (sign : Bool)
  /-- R425: PLDM RequestUpdate opening a firmware update, or refused while one is live. -/
  | requestUpdate (who : BitVec 8)
  /-- R425: PLDM PassComponentTable for the Cox image. -/
  | passComponentTable (who : BitVec 8)
  /-- R425: PLDM UpdateComponent starting the image transfer. -/
  | updateComponent (who : BitVec 8) (len : BitVec 32)
  /-- R425: PLDM firmware data returned in answer to the device's request. -/
  | requestFirmwareData (data : List Byte)
  /-- R425: PLDM TransferComplete ending the image transfer. -/
  | transferComplete (who : BitVec 8)
  /-- R425: PLDM VerifyComplete after verification under R414. -/
  | verifyComplete (who : BitVec 8)
  /-- R425: PLDM ApplyComplete after the flash write. -/
  | applyComplete (who : BitVec 8) (ok : Bool)
  /-- R425: PLDM ActivateFirmware following the activation steps of R423. -/
  | activateFirmware (who : BitVec 8)
  /-- R425: PLDM GetStatus of the update. -/
  | getStatus (who : BitVec 8)
  /-- R425: PLDM CancelUpdate ending the update. -/
  | cancelUpdate (who : BitVec 8)
  /-- R426: A debug nonce expires 60,000 ticks after issue. -/
  | nonceExpiry
  /-- R428: MODULE_RESET_N held low for 10 ms enters module reset, or starts a power-on after a trip. -/
  | moduleReset
  /-- R428: The rising edge of MODULE_RESET_N begins boot stage 0x1. -/
  | moduleResetRelease (strap : BitVec 4)
  /-- R416: Boot stage 0x1 loads and verifies the image, derives keys and starts the Cox or enters recovery. -/
  | bootRom
  /-- R433: Boot stage 0x2 initialises hub blocks and reads RAS and patina records. -/
  | coxInit
  /-- R433: Stage 0x2 lasting 1,000 ticks makes the boot ROM enter recovery. -/
  | coxInitTimeout
  /-- R435: Boot stage 0x3 trains inner then ring links with spare lanes. -/
  | riggerTraining (bad : List (List (Nat × Nat)))
  /-- R222: Boot stage 0x4 trains every stack and bulk device with lane repair. -/
  | memoryTraining (lanes : List (List Nat))
  /-- R433: Boot stage 0x5 applies RAS records and invalidates and enables every LLS. -/
  | bootRestore
  /-- R439: Boot stage 0x6 applies substitutions and sets every hosted tile to its start state. -/
  | bootTiles
  /-- R450: I3C SETDASA assigns the dynamic address. -/
  | setdasa (addr dyn : BitVec 7)
  /-- R450: I3C ENTDAA assigns the dynamic address. -/
  | entdaa (dyn : BitVec 7)
  /-- R459: TRST_N low or five TMS-high clocks put the TAP in Test-Logic-Reset with IDCODE selected. -/
  | tapReset
  /-- R460: TAP instruction driving pins from the boundary register under module reset. -/
  | extest (v : Nat)
  /-- R459: TAP instruction selecting the 32-bit IDCODE register. -/
  | idcode
  /-- R461: TAP instruction sampling or preloading the boundary register. -/
  | samplePreload (pins preload : Nat)
  /-- R461: TAP IEEE 1149.6 AC pulse test under module reset. -/
  | extestPulse (v : Nat)
  /-- R461: TAP IEEE 1149.6 AC train test under module reset. -/
  | extestTrain (v : Nat)
  /-- R460: TAP instruction holding pins from the boundary register with bypass selected. -/
  | clamp
  /-- R460: TAP instruction placing outputs in high impedance. -/
  | highz
  /-- R462: TAP route to request a nonce and present a debug token. -/
  | dbgToken (token : Option (List (BitVec 8)))
  /-- R463: TAP access to a control-space register with the Cox's permissions at the debug level. -/
  | dbgAccess (v : BitVec 128)
  /-- R460: TAP instruction selecting DBG_DIETEST under module reset. -/
  | dietest (v : BitVec 64)
  /-- R459: TAP instruction selecting the 1-bit bypass register. -/
  | bypass
  /-- R464: Writing DBG_DIETEST.START runs memory and lane loopback tests on the selected dies. -/
  | dietestStart (m : Master) (v : BitVec 64)
  /-- R464: Every selected die finishes its test and results are latched with DONE. -/
  | dietestDone (mem lane : BitVec 8)
  /-- R65: An instruction word with an unlisted code, a reserved group or opcode 0xF, or a nonzero RSV or unused field raises ILLEGAL with its subcode. -/
  | illegalInstruction (t : BitVec 8) (word : BitVec 32)
  /-- R57: A fetch from outside the own tile store, with a nonzero high address, or without translation or X permission raises FETCH_ACCESS, FETCH_MISS or FETCH_PERM. -/
  | instructionFetchFault (t : BitVec 8)
  /-- R357: The receiver finishes applying the staged granules, records the checkpoint in MIR_CKPT.RCVD and sends COMMIT. -/
  | checkpointApplyEnd
  /-- R217: The clean of an automatically disabled LLS way finishes, and the way becomes disabled with WAY_EVT set and the event reported. -/
  | wayCleanEnd (d : BitVec 3) (way : BitVec 4)
  /-- R287: The Cox starts a QUEUED long operation, which enters RUNNING. -/
  | longOperationStart (h : BitVec 32)
  /-- R287: A RUNNING long operation with a requested suspension reaches its next safe point and enters SUSPENDED. -/
  | nextSafePoint (h : BitVec 32)
  /-- R263: A rigger port that PCTRL.EN restarted finishes training, and comes up at its width, DEGRADED, or FAILED. -/
  | vknPortTrained (k : BitVec 4) (p : BitVec 3) (bad : List (Nat × Nat))
  /-- R263: A rigger, fabric, pair or PCIe lane's margin falls below its trim loop's limit, and the lane is marked for spare replacement or reported. -/
  | laneMarginLow (what : BitVec 2) (k : BitVec 4) (p : BitVec 3) (m : BitVec 4)
  /-- R296: The PCIe link trains up, retrains, or runs at a lower rate or width, updating PCI_STATUS and raising AER link errors. -/
  | pcieLinkChange (speed : BitVec 3) (width : BitVec 5) (err : Bool)
  /-- R430: PERST_N rises, ending the host-function reset so that the link trains and the function answers configuration requests within 100 ms. -/
  | perstNRelease
  /-- R299: A host configuration write of Memory Space Enable or Bus Master Enable changes BAR claiming, MSI-X sending and use of the outbound window. -/
  | configurationWrite (mse bme : Bool) (c : CfgWrite)
  deriving DecidableEq, Repr

end Sys2Proof
end

