-- ==== Sys2Proof/Decode.lean ====
section
/-!
DEFINITION. The words that spell commands. The table of operations gives no row any bits: commands reach the module as
events, register accesses and frames, and no word spells one.
-/
namespace Sys2Proof

-- log 3: DESIGN CHOICE, safe; log 114: DEDUCED, unsafe.
/-- The command that a word of the table's bits spells: none, since no row of the table gives bits. -/
def decodeTableWord (_nbits _w : Nat) : Option Instr := none

end Sys2Proof
end

