-- ==== Sys2Proof/Machine/Float.lean ====
section
/-!
DEFINITION. Floating-point numbers as exact values m × 2^e, decoded from and rounded to the encodings of Tables 6.1 and
6.2 under the rules of R149, R150, R157 and R158. Flags are numbered as fflags [4:0]: NX 1, UF 2, OF 4, DZ 8, NV 16.
-/
namespace Sys2Proof.Machine

def flNX : Nat := 1
def flUF : Nat := 2
def flOF : Nat := 4
def flDZ : Nat := 8
def flNV : Nat := 16

/-- A binary format with infinities: exponent bits and fraction bits (Table 6.2). -/
structure FpFmt where
  eb : Nat
  fb : Nat
  deriving DecidableEq, Repr

def fp64 : FpFmt := ⟨11, 52⟩
def fp32 : FpFmt := ⟨8, 23⟩
def fp16 : FpFmt := ⟨5, 10⟩
def bf16 : FpFmt := ⟨8, 7⟩

def FpFmt.width (f : FpFmt) : Nat := 1 + f.eb + f.fb
def FpFmt.bias (f : FpFmt) : Nat := 2 ^ (f.eb - 1) - 1
def FpFmt.infBits (f : FpFmt) : Nat := (2 ^ f.eb - 1) * 2 ^ f.fb
/-- The canonical quiet NaN (Table 6.2). -/
def FpFmt.nan (f : FpFmt) : Nat := f.infBits + 2 ^ (f.fb - 1)
def FpFmt.signBit (f : FpFmt) : Nat := 2 ^ (f.eb + f.fb)
/-- The exponent of the least subnormal. -/
def FpFmt.qmin (f : FpFmt) : Int := 1 - (f.bias : Int) - f.fb

/-- What an encoding stands for; a finite value is ±m × 2^e. -/
inductive FVal where
  | nan (signalling : Bool)
  | inf (neg : Bool)
  | fin (neg : Bool) (m : Nat) (e : Int)
  deriving DecidableEq, Repr

/-- The value of the bits b in format f. -/
def FpFmt.decode (f : FpFmt) (b : Nat) : FVal :=
  let neg := b / f.signBit % 2 == 1
  let ex := b / 2 ^ f.fb % 2 ^ f.eb
  let fr := b % 2 ^ f.fb
  if ex = 2 ^ f.eb - 1 then (if fr = 0 then .inf neg else .nan (fr < 2 ^ (f.fb - 1)))
  else if ex = 0 then .fin neg fr f.qmin
  else .fin neg (2 ^ f.fb + fr) (f.qmin + (ex - 1 : Nat))

/-- Rounding modes of fflags.FRM: 0 RNE, 1 RTZ, 2 RDN, 3 RUP, 4 RMM (R150). Whether a magnitude n with a remainder is
rounded up: `half` compares the remainder with half a unit. -/
def roundsUp (mode : Nat) (neg : Bool) (n : Nat) (half : Ordering) (exact : Bool) : Bool :=
  if exact then false else
  match mode with
  | 0 => half == .gt || (half == .eq && n % 2 == 1)
  | 1 => false
  | 2 => neg
  | 3 => !neg
  | _ => half != .lt

/-- ±(m + s) × 2^e rounded to a multiple of 2^q, where s is 0, or some value strictly between 0 and 1 when `sticky`:
the multiple, and whether it is inexact. -/
def roundAt (mode : Nat) (neg : Bool) (m : Nat) (e q : Int) (sticky : Bool) : Nat × Bool :=
  if q ≤ e then (m * 2 ^ (e - q).toNat, sticky)
  else
    let sh := (q - e).toNat
    let n := m / 2 ^ sh
    let r := m % 2 ^ sh
    let half := if r = 2 ^ (sh - 1) ∧ sticky then .gt else compare r (2 ^ (sh - 1))
    let exact := r == 0 && !sticky
    (if roundsUp mode neg n half exact then n + 1 else n, !exact)

def bitLen (m : Nat) : Nat := if m = 0 then 0 else Nat.log2 m + 1

/-- R158: the result of an overflow. -/
def FpFmt.overflow (f : FpFmt) (mode : Nat) (neg : Bool) : Nat :=
  let toInf := match mode with | 0 => true | 1 => false | 2 => neg | 3 => !neg | _ => true
  (if neg then f.signBit else 0) + (if toInf then f.infBits else f.infBits - 1)

/-- ±(m + s) × 2^e rounded into format f: the bits and the flags (R150, R158). Tininess is detected after rounding. -/
def FpFmt.round (f : FpFmt) (mode : Nat) (neg : Bool) (m : Nat) (e : Int) (sticky : Bool) : Nat × Nat :=
  let sgn := if neg then f.signBit else 0
  if m = 0 ∧ !sticky then (sgn, 0)
  else
    let top := e + bitLen m - 1
    let q1 := top - f.fb
    let q := max q1 f.qmin
    let r := roundAt mode neg m e q sticky
    let bits := r.1 + (q - f.qmin).toNat * 2 ^ f.fb
    if f.infBits ≤ bits then (f.overflow mode neg, flOF + flNX)
    else
      let u := (roundAt mode neg m e q1 sticky).1
      let tiny := decide (q1 < f.qmin) && !(u == 2 ^ (f.fb + 1) && q1 + 1 == f.qmin)
      (sgn + bits, (if r.2 then flNX else 0) + (if r.2 && tiny then flUF else 0))

/-- An integer times 2^e rounded; a zero sum takes the sign of R55's binary64 rules: minus only under RDN. -/
def FpFmt.roundInt (f : FpFmt) (mode : Nat) (v : Int) (e : Int) : Nat × Nat :=
  if v = 0 then (if mode = 2 then f.signBit else 0, 0) else f.round mode (v < 0) v.natAbs e false

def signed (neg : Bool) (m : Nat) : Int := if neg then - (m : Int) else m

/-- NaN operands: NV when one of them signals (R149). -/
def nanFlags (vs : List FVal) : Nat := if vs.any (fun v => v == .nan true) then flNV else 0

def FVal.isNan : FVal → Bool | .nan _ => true | _ => false
def FVal.isInf : FVal → Bool | .inf _ => true | _ => false
def FVal.isZero : FVal → Bool | .fin _ m _ => m == 0 | _ => false
def FVal.neg : FVal → Bool | .nan _ => false | .inf n => n | .fin n _ _ => n
def FVal.negate : FVal → FVal | .nan s => .nan s | .inf n => .inf (!n) | .fin n m e => .fin (!n) m e

/-- The exact sum of two finite values: an integer and its exponent. -/
def addExact (n1 : Bool) (m1 : Nat) (e1 : Int) (n2 : Bool) (m2 : Nat) (e2 : Int) : Int × Int :=
  let e := min e1 e2
  (signed n1 (m1 * 2 ^ (e1 - e).toNat) + signed n2 (m2 * 2 ^ (e2 - e).toNat), e)

/-- The sum of two values, rounded once. -/
def FpFmt.addV (f : FpFmt) (mode : Nat) (a b : FVal) : Nat × Nat :=
  match a, b with
  | .fin n1 m1 e1, .fin n2 m2 e2 =>
    if m1 = 0 ∧ m2 = 0 ∧ n1 = n2 then (if n1 then f.signBit else 0, 0)
    else let s := addExact n1 m1 e1 n2 m2 e2; f.roundInt mode s.1 s.2
  | .inf n1, .inf n2 => if n1 = n2 then ((if n1 then f.signBit else 0) + f.infBits, 0) else (f.nan, flNV)
  | .inf n, .fin _ _ _ => ((if n then f.signBit else 0) + f.infBits, 0)
  | .fin _ _ _, .inf n => ((if n then f.signBit else 0) + f.infBits, 0)
  | _, _ => (f.nan, nanFlags [a, b])

/-- The exact product, or NaN with NV for 0 × ∞. -/
def mulV (a b : FVal) : FVal × Nat :=
  match a, b with
  | .fin n1 m1 e1, .fin n2 m2 e2 => (.fin (n1 != n2) (m1 * m2) (e1 + e2), 0)
  | .inf n1, .inf n2 => (.inf (n1 != n2), 0)
  | .inf n1, .fin n2 m _ => if m = 0 then (.nan false, flNV) else (.inf (n1 != n2), 0)
  | .fin n1 m _, .inf n2 => if m = 0 then (.nan false, flNV) else (.inf (n1 != n2), 0)
  | _, _ => (.nan false, nanFlags [a, b])

/-- A value rounded into the format. -/
def FpFmt.ofV (f : FpFmt) (mode : Nat) (v : FVal) : Nat × Nat :=
  match v with
  | .nan s => (f.nan, if s then flNV else 0)
  | .inf n => ((if n then f.signBit else 0) + f.infBits, 0)
  | .fin n m e => f.round mode n m e false

/-- a × b + c rounded once; NV for 0 × ∞ whatever the addend (R481). -/
def FpFmt.fmaV (f : FpFmt) (mode : Nat) (a b c : FVal) : Nat × Nat :=
  let p := mulV a b
  if p.1.isNan || c.isNan then (f.nan, p.2 ||| nanFlags [c])
  else let r := f.addV mode p.1 c; (r.1, r.2)

/-- Quotient rounded once; DZ for a finite nonzero value over zero. -/
def FpFmt.divV (f : FpFmt) (mode : Nat) (a b : FVal) : Nat × Nat :=
  match a, b with
  | .fin n1 m1 e1, .fin n2 m2 e2 =>
    let neg := n1 != n2
    if m2 = 0 then (if m1 = 0 then (f.nan, flNV) else ((if neg then f.signBit else 0) + f.infBits, flDZ))
    else if m1 = 0 then (if neg then f.signBit else 0, 0)
    else
      let k := f.fb + 5 + bitLen m2
      let n := m1 * 2 ^ k
      f.round mode neg (n / m2) (e1 - e2 - k) (n % m2 != 0)
  | .inf _, .inf _ => (f.nan, flNV)
  | .inf n1, .fin n2 _ _ => ((if n1 != n2 then f.signBit else 0) + f.infBits, 0)
  | .fin n1 _ _, .inf n2 => (if n1 != n2 then f.signBit else 0, 0)
  | _, _ => (f.nan, nanFlags [a, b])

/-- The integer square root of n below 2^(2k), bit by bit from bit k - 1. -/
def isqrtGo (n : Nat) : Nat → Nat → Nat
  | 0, r => r
  | k + 1, r => let c := r + 2 ^ k; isqrtGo n k (if c * c ≤ n then c else r)
def isqrt (n : Nat) : Nat := isqrtGo n (bitLen n / 2 + 1) 0

def FpFmt.sqrtV (f : FpFmt) (mode : Nat) (a : FVal) : Nat × Nat :=
  match a with
  | .nan s => (f.nan, if s then flNV else 0)
  | .inf n => if n then (f.nan, flNV) else (f.infBits, 0)
  | .fin n m e =>
    if m = 0 then (if n then f.signBit else 0, 0)
    else if n then (f.nan, flNV)
    else
      let odd := e % 2 != 0
      let m := (if odd then 2 * m else m) * 2 ^ (2 * (f.fb + 4))
      let e := (if odd then e - 1 else e) / 2 - (f.fb + 4)
      let r := isqrt m
      f.round mode false r e (r * r != m)

/-- Exact order of two values that are not NaN, with -0 equal to +0. -/
def FVal.cmp (a b : FVal) : Ordering :=
  match a, b with
  | .inf n, .inf k => if n = k then .eq else if n then .lt else .gt
  | .inf n, _ => if n then .lt else .gt
  | _, .inf n => if n then .gt else .lt
  | .fin n1 m1 e1, .fin n2 m2 e2 => compare (addExact n1 m1 e1 (!n2) m2 e2).1 0
  | _, _ => .eq

/-- R99, R481: minimum (or maximum) with -0 below +0; the other operand when one is a NaN. The bits of a or b. -/
def FpFmt.minMax (f : FpFmt) (isMax : Bool) (a b : Nat) : Nat × Nat :=
  let va := f.decode a
  let vb := f.decode b
  let fl := nanFlags [va, vb]
  if va.isNan && vb.isNan then (f.nan, fl)
  else if va.isNan then (b, fl)
  else if vb.isNan then (a, fl)
  else
    let lt := match va.cmp vb with | .lt => true | .gt => false | .eq => va.neg && !vb.neg
    (if lt != isMax then a else b, 0)

/-- F to I (Table 6.5): rounded by the mode into lo .. hi. -/
def toIntV (mode : Nat) (lo hi : Int) (v : FVal) : Int × Nat :=
  match v with
  | .nan _ => (0, flNV)
  | .inf n => (if n then lo else hi, flNV)
  | .fin n m e =>
    let r := roundAt mode n m e 0 false
    let k := signed n r.1
    if k < lo then (lo, flNV) else if hi < k then (hi, flNV) else (k, if r.2 then flNX else 0)

/-- The class bit of R479 for fclass. -/
def FpFmt.classOf (f : FpFmt) (b : Nat) : Nat :=
  match f.decode b with
  | .inf n => if n then 0 else 7
  | .nan s => if s then 8 else 9
  | .fin n m _ => if m = 0 then (if n then 3 else 4) else if m < 2 ^ f.fb then (if n then 2 else 5) else (if n then 1 else 6)

end Sys2Proof.Machine
end

