-- ==== Sys2Proof/Machine/Numerics.lean ====
section
/-!
DEFINITION. Format codes (Table 6.1), MX blocks and scale recipes (R151 to R163), conversions (R157, Table 4.2) and
fixed-point rounding (R101, R102).
-/
namespace Sys2Proof.Machine

/-! ### Format codes -/

def isF (f : Nat) : Bool := f < 4
def isI (f : Nat) : Bool := 4 ≤ f && f < 9
def isQ (f : Nat) : Bool := 9 ≤ f && f < 12
def isMX (f : Nat) : Bool := 16 ≤ f && f < 22
def isFIQ (f : Nat) : Bool := f < 12
/-- R148: a code that names a format of Table 6.1, E8M0 among them. -/
def isFormat (f : Nat) : Bool := f < 12 || (16 ≤ f && f < 23)

/-- W of Table 6.1. -/
def fmtW : Nat → Nat
  | 0 => 64 | 1 => 32 | 2 => 16 | 3 => 16 | 4 => 64 | 5 => 32 | 6 => 16 | 7 => 8 | 8 => 8 | 9 => 16 | 10 => 32 | 11 => 8
  | 18 => 6 | 19 => 6 | 20 => 4 | _ => 8

/-- The binary format of a class F code. -/
def fpOf : Nat → FpFmt
  | 0 => fp64 | 1 => fp32 | 2 => fp16 | _ => bf16

/-- The integer of a class I or Q element (UINT8 alone is unsigned). -/
def intOf (f b : Nat) : Int :=
  let w := fmtW f
  let b := b % 2 ^ w
  if f = 8 then b else if 2 ^ (w - 1) ≤ b then (b : Int) - 2 ^ w else b

/-- The low w bits of an integer. -/
def bitsOf (w : Nat) (v : Int) : Nat := (v % 2 ^ w).toNat

/-! ### Fixed point (R101, R102) -/

def roundoff (v : Int) (d vxrm : Nat) : Int :=
  if d = 0 then v
  else
    let q := v / 2 ^ d
    let lsb : Bool := q % 2 == 1
    let half : Bool := v / 2 ^ (d - 1) % 2 == 1
    let rest : Bool := v % 2 ^ (d - 1) != 0
    let inc := match vxrm with
      | 0 => half
      | 1 => half && (rest || lsb)
      | 2 => false
      | _ => !lsb && (half || rest)
    if inc then q + 1 else q

/-- The range of an integer element format. -/
def loOf (f : Nat) : Int := if f = 8 then 0 else - 2 ^ (fmtW f - 1)
def hiOf (f : Nat) : Int := if f = 8 then 255 else 2 ^ (fmtW f - 1) - 1

/-- clamp(x, W): the value and whether it saturated. -/
def clampTo (f : Nat) (v : Int) : Int × Bool :=
  if hiOf f < v then (hiOf f, true) else if v < loOf f then (loOf f, true) else (v, false)

/-! ### MX elements (Table 6.2, R151) -/

/-- Exponent bits, fraction bits and bias of an MX floating-point element. -/
def mxEb : Nat → Nat | 16 => 4 | 17 => 5 | 18 => 3 | _ => 2
def mxFb : Nat → Nat | 16 => 3 | 17 => 2 | 18 => 2 | 19 => 3 | _ => 1
def mxBias : Nat → Nat | 16 => 7 | 17 => 15 | 18 => 3 | _ => 1
/-- The exponent of the least unit of the element grid. -/
def mxQmin (f : Nat) : Int := if f = 21 then -6 else 1 - (mxBias f : Int) - mxFb f
/-- maxv in units of the least grid step: 448, 57,344, 28, 7.5, 6 and 127 × 2^-6 (R162). -/
def mxMax : Nat → Nat
  | 16 => 448 * 2 ^ 9 | 17 => 57344 * 2 ^ 16 | 18 => 448 | 19 => 60 | 20 => 12 | _ => 127
/-- emax (R162). -/
def mxEmax : Nat → Int
  | 16 => 8 | 17 => 15 | 18 => 4 | 19 => 2 | 20 => 2 | _ => 0

/-- dec(e), or the signed value of MXINT8. -/
def mxElem (f e : Nat) : FVal :=
  if f = 21 then
    let v := intOf 7 e
    .fin (v < 0) v.natAbs (-6)
  else
    let eb := mxEb f
    let fb := mxFb f
    let neg := e / 2 ^ (eb + fb) % 2 == 1
    let ex := e / 2 ^ fb % 2 ^ eb
    let fr := e % 2 ^ fb
    if f = 16 ∧ ex = 15 ∧ fr = 7 then .nan false
    else if f = 17 ∧ ex = 31 then (if fr = 0 then .inf neg else .nan false)
    else if ex = 0 then .fin neg fr (mxQmin f)
    else .fin neg (2 ^ fb + fr) (mxQmin f + (ex - 1 : Nat))

def FVal.scale (v : FVal) (k : Int) : FVal := match v with | .fin n m e => .fin n m (e + k) | v => v

/-- R151: the value of element e under scale code x. -/
def mxDecode (f e x : Nat) : FVal := if x = 255 then .nan false else (mxElem f e).scale ((x : Int) - 127)

/-- R159 step 3: the magnitude m × 2^e rounded by RNE onto the element grid with an unbounded exponent range, in units
of the least grid step. -/
def mxGrid (f m : Nat) (e : Int) : Nat :=
  let q := if f = 21 then (-6 : Int) else max (e + bitLen m - 1 - mxFb f) (mxQmin f)
  let r := (roundAt 0 false m e q false).1
  r * 2 ^ (q - mxQmin f).toNat

/-- The element code of a magnitude of u units. -/
def mxCode (f u : Nat) : Nat :=
  let fb := mxFb f
  if u < 2 ^ fb then u
  else let k := bitLen u - 1 - fb; (k + 1) * 2 ^ fb + (u / 2 ^ k - 2 ^ fb)

/-- What an observed output element counts as (R166): 0 none, 1 ZERO, 2 SAT, 3 NONFIN. -/
abbrev Mark := Nat

/-- R159 steps 3 to 5: element code of a finite value at scale exponent x, and its mark; `keep` is recipe 4. -/
def mxEncode (f : Nat) (x : Int) (keep : Bool) (v : FVal) : Nat × Mark :=
  match v with
  | .fin neg m e =>
    let u := mxGrid f m (e - x)
    let u' := if u = 0 ∧ m ≠ 0 ∧ keep then 1 else min u (mxMax f)
    let mark := if mxMax f < u then 2 else if u' = 0 ∧ m ≠ 0 then 1 else 0
    if f = 21 then ((if neg then bitsOf 8 (-(u' : Int)) else u'), mark)
    else ((if neg then 2 ^ (mxEb f + mxFb f) else 0) + mxCode f u', mark)
  | _ => (0, 3)

/-! ### Scale recipes (R163) -/

def FVal.mag : FVal → Nat × Int | .fin _ m e => (m, e) | _ => (0, 0)

/-- a magnitude exceeds another. -/
def magLt (a b : Nat × Int) : Bool :=
  let e := min a.2 b.2
  decide (a.1 * 2 ^ (a.2 - e).toNat < b.1 * 2 ^ (b.2 - e).toNat)

def amaxOf (vs : List FVal) : Nat × Int := vs.foldl (fun a v => if magLt a v.mag then v.mag else a) (0, 0)

/-- sse(v, f, x): differences, squares and partial sums each rounded to FP64. -/
def sse (f : Nat) (x : Int) (vs : List FVal) : FVal :=
  vs.foldl (fun acc v =>
    let d := (mxElem f (mxEncode f x false v).1).scale x
    let diff := fp64.decode (fp64.addV 0 v d.negate).1
    let sq := fp64.decode (fp64.ofV 0 (mulV diff diff).1).1
    fp64.decode (fp64.addV 0 acc sq).1) (.fin false 0 0)

/-- The scale code that a recipe gives a finite block (R163). -/
def recipeCode (f recipe : Nat) (vs : List FVal) : Nat :=
  let a := amaxOf vs
  if a.1 = 0 then 0
  else
    let xf := a.2 + bitLen a.1 - 1 - mxEmax f
    let tooBig := magLt (mxMax f, mxQmin f + xf) a
    let x := match recipe with
      | 0 => if (sse f xf vs).cmp (sse f (xf + 1) vs) == Ordering.lt then xf else xf + 1
      | 1 => xf
      | 2 => xf + 1
      | 3 => if mxMax f < mxGrid f a.1 (a.2 - xf) then xf + 1 else xf
      | _ => if tooBig then xf + 1 else xf
    (max 0 (min 254 (x + 127))).toNat

/-- R159: 32 values become an MX block: scale code, element codes with their marks, flags. -/
def mxBlock (f recipe : Nat) (vs : List FVal) : Nat × List (Nat × Mark) × Nat :=
  if vs.any (fun v => v.isNan || v.isInf) then
    (255, vs.map fun _ => (0, 3),
      (if vs.any (fun v => v.isInf || v == .nan true) then flNV else 0) ||| (if vs.all FVal.isNan then 0 else flNX))
  else
    let x := recipeCode f recipe vs
    let es := vs.map (mxEncode f ((x : Int) - 127) (recipe == 4))
    let exact := (vs.zip es).all fun p => (mxDecode f p.2.1 x).cmp p.1 == .eq
    (x, es, if exact then 0 else flNX)

/-! ### Conversions between class F, I and Q elements (Table 6.5, Table 4.2) -/

/-- The value of an element of class F, I or Q. -/
def valOf (f b : Nat) : FVal :=
  if isF f then (fpOf f).decode (b % 2 ^ fmtW f)
  else
    let v := intOf f b
    .fin (v < 0) v.natAbs (if isQ f then 1 - (fmtW f : Int) else 0)

/-- A value converted into an element of class F, I or Q by a rounding mode: bits, flags, saturated. -/
def cvtVal (mode dst : Nat) (v : FVal) : Nat × Nat × Bool :=
  if isF dst then let r := (fpOf dst).ofV mode v; (r.1, r.2, false)
  else
    let v := if isQ dst then v.scale ((fmtW dst : Int) - 1) else v
    let r := toIntV mode (loOf dst) (hiOf dst) v
    (bitsOf (fmtW dst) r.1, r.2, r.2 == flNV && !v.isNan)

/-- The pairs of Table 4.2 without MX. -/
def cvtPair (src dst : Nat) : Bool :=
  if isF src then isF dst && src != dst || isI dst || isQ dst
  else if isI src then isF dst || isI dst && fmtW src != fmtW dst
  else isQ src && (isF dst || isQ dst && src != dst)

/-- vcvt of one element: bits, flags, whether VXSAT is set. -/
def cvtElem (vfrm vxrm src dst b : Nat) : Nat × Nat × Bool :=
  if isI src && isI dst then (bitsOf (fmtW dst) (intOf src b), 0, false)
  else if isQ src && isQ dst then
    let v := intOf src b
    if fmtW src < fmtW dst then (bitsOf (fmtW dst) (v * 2 ^ (fmtW dst - fmtW src)), 0, false)
    else let c := clampTo dst (roundoff v (fmtW src - fmtW dst) vxrm); (bitsOf (fmtW dst) c.1, 0, c.2)
  else let r := cvtVal vfrm dst (valOf src b); (r.1, r.2.1, false)

/-- A class F element widened exactly to FP64: a NaN keeps only whether it signals. -/
def widenF (f b : Nat) : Nat :=
  match valOf f b with
  | .nan true => if f = 0 then b else fp64.infBits + 2 ^ (fp64.fb - 2)
  | .nan false => if f = 0 then b else fp64.nan
  | v => (fp64.ofV 0 v).1

/-- A class I or Q element widened to 64 bits (R107). -/
def widenI (f b : Nat) : Nat := bitsOf 64 (intOf f b)

end Sys2Proof.Machine
end

