-- ==== Sys2Proof/Config.lean ====
section
/-!
DEFINITION. What an implementation fixes, and the values the spec leaves open (free values: no body, so no proof can
see them).
-/
namespace Sys2Proof.Config

-- log 2: DESIGN CHOICE, safe.
/-- The n-th value the spec leaves open in a run (State.free counts them): log 2. -/
opaque freeValue : Nat → BitVec 64

-- log 68: DESIGN CHOICE, safe.
/-- Spare rows of a bank of a memory when the module is new (R229, R231): fixed by the memory device. -/
opaque spareRows : Nat → Nat → Nat

-- log 68: DESIGN CHOICE, safe.
/-- The redundant lanes of an HBM4 channel (R222): JEDEC HBM4 defines them. -/
opaque redundantLanes : Nat

-- log 68: DESIGN CHOICE, safe.
/-- The highest CRIT threshold a memory reports that it permits, in °C (R232). -/
opaque critLimit : Nat → Nat

-- log 76: DEDUCED, unsafe.
/-- The payload bytes of a CTRL packet, whose layout the manual does not give (Table 13.2). -/
opaque ctrlBytes : Nat

-- log 45: DESIGN CHOICE, safe.
/-- What a chain activation (its OP) gives for an FP32 input that is not a NaN, where that lies within the 2 ulp of R110,
and the flags it raises. -/
opaque activation : Nat → BitVec 32 → BitVec 32
opaque activationFlags : Nat → BitVec 32 → BitVec 5

-- log 158: DESIGN CHOICE, safe.
/-- The E8M0 code a conversion writes for a value given as FP64 bits: the spec states no such conversion. -/
opaque scaleCode : BitVec 64 → BitVec 8

/-- Doubleword i of the text of record n of the Cox log (R468). -/
opaque logText : Nat → Nat → BitVec 64

-- log 45: DESIGN CHOICE, safe; log 111: DESIGN CHOICE, safe.
/-- Falcon-1024: whether, with a public key and a digest, a signature verifies (R411, R414), a key pair's public key from
its 48-byte seed (R418, R419), and a signature over bytes with the key of a seed. The certificates and the boot ROM, as
bytes (R418, R419, Table 17.4). -/
opaque falconVerify : List (BitVec 8) → List (BitVec 8) → List (BitVec 8) → Bool
-- log 111: DESIGN CHOICE, safe.
opaque falconKey : List (BitVec 8) → List (BitVec 8)
-- log 111: DESIGN CHOICE, safe.
opaque falconSign : List (BitVec 8) → List (BitVec 8) → List (BitVec 8)
opaque issuedChain : List (BitVec 8)
opaque aliasCert : List (BitVec 8) → List (BitVec 8) → List (BitVec 8)
-- log 34: DEDUCED, unsafe.
opaque bootRom : List (BitVec 8)
-- log 34: DEDUCED, unsafe.
opaque brandCert : List (BitVec 8)

-- log 35: PRESUMED, unsafe.
/-- The SPDM transcript that signature n covers: its form is the SPDM specification's (R420). -/
opaque spdmTranscript : Nat → List (BitVec 8)

-- log 45: DESIGN CHOICE, safe; log 111: DESIGN CHOICE, safe.
/-- What the boot flash holds after a write whose readback failed (R423). -/
opaque flashBytes : Nat → List (BitVec 8)

-- log 103: DESIGN CHOICE, safe.
/-- The power model that Cox firmware keeps: the highest frequency in MHz whose full-load power is at most a cap in W
(R387). -/
opaque fstart : Nat → Nat

-- log 45: DESIGN CHOICE, safe; log 103: DESIGN CHOICE, safe.
/-- What re-plan n of physical tile p gives: VPLAN(f) in mV, and HOURS_LEFT (R406); and its monitor readings. -/
opaque vplan : Nat → Nat → Nat → Nat
-- log 103: DESIGN CHOICE, safe.
opaque hoursLeft : Nat → Nat → Nat
-- log 45: DESIGN CHOICE, safe; log 103: DESIGN CHOICE, safe.
opaque patina : Nat → Nat → Nat → BitVec 64

end Sys2Proof.Config
end

