-- ==== Sys2Proof/Machine/Regs.lean ====
section
/-!
DEFINITION. The control-space registers of the spec: addresses, fields and access types, block by block, as the
register tables of the chapters list them. A register address is a device address (Tables 12.11 and 12.12); the
registers that only BAR0 shows stand at the model's own addresses above 2^48, where no device address lies.
-/
namespace Sys2Proof.Machine

/-- A field of a register: its lowest bit and its width. -/
structure Fld where
  lo : Nat
  len : Nat
  deriving DecidableEq, Repr

/-- What a register table of the spec says of one register (or `cnt` registers `stride` bytes apart): its offset in
the block, its reset value, and the bits of each access type of Table 0.3 (RO bits are the rest). -/
structure RegDesc where
  off : Nat
  cnt : Nat
  stride : Nat
  reset : Word
  rw : Word
  w1c : Word
  w1s : Word
  wo : Word
  rsv : Word
  deriving DecidableEq, Repr

/-- Control space of compute die d (Table 12.11). -/
def dieBase (d : Nat) : Nat := 0x038000000000 + d * 0x02000000
/-- Hub control space (Table 12.12). -/
def hubBase : Nat := 0x038010000000
/-- The TIL_ block of logical tile t: 64 KiB each in the control space of its die (Table 12.11). -/
def tilBase (t : Nat) : Nat := dieBase (t / 32) + (t % 32) * 0x10000
/-- The registers of memory m: HBM stack m for m below 16, else bulk device m - 16 (09, "Controller registers"). -/
def memBase (m : Nat) : Nat :=
  if m < 16 then dieBase (m / 2) + 0x300000 + (m % 2) * 0x40000
  else dieBase ((m - 16) / 6) + 0x400000 + ((m - 16) % 6) * 0x1000
/-- The VKN_ block of die k, or of the hub for k = 8 (Tables 12.11 and 12.12). -/
def vknBase (k : Nat) : Nat := if k < 8 then dieBase k + 0x600000 else hubBase + 0x800000
/-- The RAS_ block of die k, or of the hub for k = 8. -/
def rasBase (k : Nat) : Nat := if k < 8 then dieBase k + 0x800000 else hubBase + 0x900000
/-- Where the model keeps the registers that only BAR0 shows: above every device address (R313). -/
def bar0Base : Nat := 0x1000000000000

/-! ### Table 2.7 (02 R52) -/

def STK_CTRL : Nat := hubBase + 0x0
def STK_CTRL_PTP_PORT : Fld := ⟨12, 3⟩
def STK_CTRL_SRC : Fld := ⟨8, 2⟩
def STK_CTRL_STEP_OK : Fld := ⟨7, 1⟩
def STK_CTRL_OUT_EN : Fld := ⟨6, 1⟩
def STK_CTRL_EVT_EN : Fld := ⟨5, 1⟩
def STK_STATUS : Nat := hubBase + 0x8
def STK_STATUS_EVT_ACTIVE : Fld := ⟨15, 1⟩
def STK_STATUS_AGED : Fld := ⟨14, 1⟩
def STK_STATUS_NUM_JUMP : Fld := ⟨13, 1⟩
def STK_STATUS_MARK_ERR : Fld := ⟨12, 1⟩
def STK_STATUS_PERIOD_ERR : Fld := ⟨11, 1⟩
def STK_STATUS_LATE : Fld := ⟨10, 1⟩
def STK_STATUS_BUSY_ERR : Fld := ⟨9, 1⟩
def STK_STATUS_ARG_ERR : Fld := ⟨8, 1⟩
def STK_STATUS_PERM_ERR : Fld := ⟨7, 1⟩
def STK_STATUS_VER_ERR : Fld := ⟨6, 1⟩
def STK_STATUS_STATE : Fld := ⟨0, 2⟩
def STK_PERIOD : Nat := hubBase + 0x10
def STK_PERIOD_PERIOD_NS : Fld := ⟨0, 17⟩
def STK_NOW : Nat := hubBase + 0x18
def STK_NOW_NUMBER : Fld := ⟨0, 64⟩
def STK_PHASE : Nat := hubBase + 0x20
def STK_PHASE_NUM_LO : Fld := ⟨10, 32⟩
def STK_PHASE_PHASE : Fld := ⟨0, 10⟩
def STK_NUM_LOAD : Nat := hubBase + 0x28
def STK_NUM_LOAD_NUM_HI : Fld := ⟨16, 48⟩
def STK_NUM_LOAD_CANCEL : Fld := ⟨1, 1⟩
def STK_NUM_LOAD_PEND : Fld := ⟨0, 1⟩
def STK_EPOCH : Nat := hubBase + 0x30
def STK_EPOCH_EPOCH_NS : Fld := ⟨0, 64⟩
def STK_IN_COMP : Nat := hubBase + 0x38
def STK_IN_COMP_COMP_NS : Fld := ⟨0, 12⟩
def STK_CNT_MISS : Nat := hubBase + 0x40
def STK_CNT_MISS_CLR : Fld := ⟨32, 1⟩
def STK_CNT_MISS_COUNT : Fld := ⟨0, 32⟩
def STK_CNT_SPUR : Nat := hubBase + 0x48
def STK_CNT_SPUR_CLR : Fld := ⟨32, 1⟩
def STK_CNT_SPUR_COUNT : Fld := ⟨0, 32⟩
def STK_CNT_LATE : Nat := hubBase + 0x50
def STK_CNT_LATE_CLR : Fld := ⟨32, 1⟩
def STK_CNT_LATE_COUNT : Fld := ⟨0, 32⟩
def STK_HOLD_CNT : Nat := hubBase + 0x58
def STK_HOLD_CNT_COUNT : Fld := ⟨0, 32⟩
def STK_TICK_LATCH : Nat := hubBase + 0x60
def STK_TICK_LATCH_TICK : Fld := ⟨42, 22⟩
def STK_TICK_LATCH_NUM_LO : Fld := ⟨10, 32⟩
def STK_TICK_LATCH_PHASE : Fld := ⟨0, 10⟩
def STK_GRP_OWNER : Nat := hubBase + 0x68
def STK_GRP_OWNER_OWNER : Fld := ⟨0, 64⟩
def STK_EVT_DUE (i : Nat) : Nat := hubBase + 0x1000 + 0x20 * i
def STK_EVT_DUE_DUE : Fld := ⟨0, 64⟩
def STK_EVT_W1 (i : Nat) : Nat := hubBase + 0x1008 + 0x20 * i
def STK_EVT_W1_ARG : Fld := ⟨32, 32⟩
def STK_EVT_W1_KIND : Fld := ⟨28, 4⟩
def STK_EVT_W1_VER : Fld := ⟨24, 4⟩
def STK_EVT_W1_TARGET : Fld := ⟨10, 14⟩
def STK_EVT_W1_PHASE : Fld := ⟨0, 10⟩
def STK_EVT_W2 (i : Nat) : Nat := hubBase + 0x1010 + 0x20 * i
def STK_EVT_W2_REPEAT : Fld := ⟨0, 32⟩
def STK_EVT_W3 (i : Nat) : Nat := hubBase + 0x1018 + 0x20 * i
def STK_EVT_W3_FIRE_CNT : Fld := ⟨16, 16⟩
def STK_EVT_W3_LATE : Fld := ⟨3, 1⟩
def STK_EVT_W3_STATE : Fld := ⟨0, 3⟩

/-- The registers of the block, Table 2.7 (02 R52). -/
def stkRegs : List RegDesc := [
  ⟨0x0, 1, 0x8, 0x0, 0x73E0, 0x0, 0x0, 0x0, 0xFFFFFFFFFFFF8C1F⟩,
  ⟨0x8, 1, 0x8, 0x0, 0x0, 0x3FC0, 0x0, 0x0, 0xFFFFFFFFFFFF003C⟩,
  ⟨0x10, 1, 0x8, 0x4E20, 0x1FFFF, 0x0, 0x0, 0x0, 0xFFFFFFFFFFFE0000⟩,
  ⟨0x18, 1, 0x8, 0x0, 0x0, 0x0, 0x0, 0x0, 0x0⟩,
  ⟨0x20, 1, 0x8, 0x0, 0x0, 0x0, 0x0, 0x0, 0xFFFFFC0000000000⟩,
  ⟨0x28, 1, 0x8, 0x0, 0xFFFFFFFFFFFF0000, 0x0, 0x0, 0x2, 0xFFFC⟩,
  ⟨0x30, 1, 0x8, 0x0, 0xFFFFFFFFFFFFFFFF, 0x0, 0x0, 0x0, 0x0⟩,
  ⟨0x38, 1, 0x8, 0x0, 0xFFF, 0x0, 0x0, 0x0, 0xFFFFFFFFFFFFF000⟩,
  ⟨0x40, 1, 0x8, 0x0, 0x0, 0x100000000, 0x0, 0x0, 0xFFFFFFFE00000000⟩,
  ⟨0x48, 1, 0x8, 0x0, 0x0, 0x100000000, 0x0, 0x0, 0xFFFFFFFE00000000⟩,
  ⟨0x50, 1, 0x8, 0x0, 0x0, 0x100000000, 0x0, 0x0, 0xFFFFFFFE00000000⟩,
  ⟨0x58, 1, 0x8, 0x0, 0x0, 0x0, 0x0, 0x0, 0xFFFFFFFF00000000⟩,
  ⟨0x60, 1, 0x8, 0x0, 0x0, 0x0, 0x0, 0x0, 0x0⟩,
  ⟨0x68, 1, 0x8, 0xFFFFFFFFFFFF0000, 0xFFFFFFFFFFFFFFFF, 0x0, 0x0, 0x0, 0x0⟩,
  ⟨0x1000, 512, 0x20, 0x0, 0xFFFFFFFFFFFFFFFF, 0x0, 0x0, 0x0, 0x0⟩,
  ⟨0x1008, 512, 0x20, 0x0, 0xFFFFFFFFFFFFFFFF, 0x0, 0x0, 0x0, 0x0⟩,
  ⟨0x1010, 512, 0x20, 0x0, 0xFFFFFFFF, 0x0, 0x0, 0x0, 0xFFFFFFFF00000000⟩,
  ⟨0x1018, 512, 0x20, 0x0, 0x7, 0x0, 0x0, 0x0, 0xFFFFFFFF0000FFF0⟩]

/-! ### Tables 3.14 and 7.12 (03 R85, 07 R195) -/

def TIL_ID (t : Nat) : Nat := tilBase t + 0x0
def TIL_ID_LOGICAL : Fld := ⟨0, 8⟩
def TIL_PHYS_LOC (t : Nat) : Nat := tilBase t + 0x8
def TIL_PHYS_LOC_PHYSICAL : Fld := ⟨0, 9⟩
def TIL_ESC (t : Nat) : Nat := tilBase t + 0x20
def TIL_ESC_VALID : Fld := ⟨63, 1⟩
def TIL_ESC_KIND : Fld := ⟨24, 4⟩
def TIL_ESC_SUB : Fld := ⟨8, 8⟩
def TIL_ESC_CODE : Fld := ⟨0, 8⟩
def TIL_ESC_EPC (t : Nat) : Nat := tilBase t + 0x28
def TIL_ESC_EPC_VALUE : Fld := ⟨0, 48⟩
def TIL_ESC_TVAL (t : Nat) : Nat := tilBase t + 0x30
def TIL_ESC_TVAL_VALUE : Fld := ⟨0, 48⟩
def TIL_XLAT_ERR (t : Nat) : Nat := tilBase t + 0x38
def TIL_XLAT_ERR_ERR : Fld := ⟨63, 1⟩
def TIL_XLAT_ERR_INDEX : Fld := ⟨0, 10⟩
def TIL_COX_NOTE (t : Nat) : Nat := tilBase t + 0x40
def TIL_COX_NOTE_UNREAD : Fld := ⟨63, 1⟩
def TIL_COX_NOTE_OVR : Fld := ⟨62, 1⟩
def TIL_COX_NOTE_NOTE : Fld := ⟨0, 48⟩
def TIL_XLAT_W0 (t : Nat) (i : Nat) : Nat := tilBase t + 0x4000 + 0x10 * i
def TIL_XLAT_W0_VPN : Fld := ⟨16, 32⟩
def TIL_XLAT_W0_V : Fld := ⟨7, 1⟩
def TIL_XLAT_W0_SIZE : Fld := ⟨6, 1⟩
def TIL_XLAT_W0_X : Fld := ⟨4, 1⟩
def TIL_XLAT_W0_W : Fld := ⟨3, 1⟩
def TIL_XLAT_W0_R : Fld := ⟨2, 1⟩
def TIL_XLAT_W0_U : Fld := ⟨1, 1⟩
def TIL_XLAT_W1 (t : Nat) (i : Nat) : Nat := tilBase t + 0x4008 + 0x10 * i
def TIL_XLAT_W1_PPN : Fld := ⟨16, 32⟩
def TIL_DM_CTRL (t : Nat) : Nat := tilBase t + 0x100
def TIL_DM_CTRL_EN : Fld := ⟨0, 1⟩
def TIL_DM_STATUS (t : Nat) : Nat := tilBase t + 0x108
def TIL_DM_STATUS_TICKET : Fld := ⟨16, 32⟩
def TIL_DM_STATUS_ACTIVE : Fld := ⟨15, 1⟩
def TIL_DM_STATUS_DESC_OVF : Fld := ⟨14, 1⟩
def TIL_DM_STATUS_BYTES_OVF : Fld := ⟨13, 1⟩
def TIL_DM_STATUS_IRQ : Fld := ⟨8, 1⟩
def TIL_DM_STATUS_QCOUNT : Fld := ⟨0, 7⟩
def TIL_DM_CNT_DESC (t : Nat) : Nat := tilBase t + 0x110
def TIL_DM_CNT_DESC_COUNT : Fld := ⟨0, 64⟩
def TIL_DM_CNT_BYTES (t : Nat) : Nat := tilBase t + 0x118
def TIL_DM_CNT_BYTES_COUNT : Fld := ⟨0, 64⟩
def TIL_MSG_CTRL (t : Nat) : Nat := tilBase t + 0x200
def TIL_MSG_CTRL_EN : Fld := ⟨0, 1⟩
def TIL_MSG_STATUS (t : Nat) : Nat := tilBase t + 0x208
def TIL_MSG_STATUS_ABORT_TILE : Fld := ⟨24, 8⟩
def TIL_MSG_STATUS_ABORT : Fld := ⟨16, 1⟩
def TIL_MSG_STATUS_ACTIVE : Fld := ⟨15, 1⟩
def TIL_MSG_STATUS_OQ : Fld := ⟨7, 4⟩
def TIL_MSG_STATUS_OCC : Fld := ⟨0, 7⟩
def TIL_MSG_CNT_FULL (t : Nat) : Nat := tilBase t + 0x210
def TIL_MSG_CNT_FULL_CLR : Fld := ⟨32, 1⟩
def TIL_MSG_CNT_FULL_COUNT : Fld := ⟨0, 32⟩
def TIL_BKL_WIN (t : Nat) : Nat := tilBase t + 0x300
def TIL_BKL_WIN_UEN : Fld := ⟨63, 1⟩
def TIL_BKL_WIN_HI : Fld := ⟨32, 14⟩
def TIL_BKL_WIN_LO : Fld := ⟨0, 14⟩
def TIL_BKL_EVT (t : Nat) : Nat := tilBase t + 0x308
def TIL_BKL_EVT_SAT_BKL : Fld := ⟨34, 14⟩
def TIL_BKL_EVT_SAT : Fld := ⟨1, 1⟩
def TIL_BKL_EVT_WAIT_DONE : Fld := ⟨0, 1⟩
def TIL_BKL_COUNT (t : Nat) (i : Nat) : Nat := tilBase t + 0x8000 + 0x10 * i
def TIL_BKL_COUNT_COUNT : Fld := ⟨0, 32⟩
def TIL_BKL_W1 (t : Nat) (i : Nat) : Nat := tilBase t + 0x8008 + 0x10 * i
def TIL_BKL_W1_WAITERS : Fld := ⟨0, 12⟩

/-- The registers of the block, Tables 3.14 and 7.12 (03 R85, 07 R195). -/
def tilRegs : List RegDesc := [
  ⟨0x0, 1, 0x8, 0x0, 0x0, 0x0, 0x0, 0x0, 0xFFFFFFFFFFFFFF00⟩,
  ⟨0x8, 1, 0x8, 0x0, 0x0, 0x0, 0x0, 0x0, 0xFFFFFFFFFFFFFE00⟩,
  ⟨0x20, 1, 0x8, 0x0, 0x0, 0x8000000000000000, 0x0, 0x0, 0x7FFFFFFFF0FF0000⟩,
  ⟨0x28, 1, 0x8, 0x0, 0x0, 0x0, 0x0, 0x0, 0xFFFF000000000000⟩,
  ⟨0x30, 1, 0x8, 0x0, 0x0, 0x0, 0x0, 0x0, 0xFFFF000000000000⟩,
  ⟨0x38, 1, 0x8, 0x0, 0x0, 0x8000000000000000, 0x0, 0x0, 0x7FFFFFFFFFFFFC00⟩,
  ⟨0x40, 1, 0x8, 0x0, 0xFFFFFFFFFFFF, 0xC000000000000000, 0x0, 0x0, 0x3FFF000000000000⟩,
  ⟨0x4000, 1024, 0x10, 0x0, 0xFFFFFFFF00DE, 0x0, 0x0, 0x0, 0xFFFF00000000FF21⟩,
  ⟨0x4008, 1024, 0x10, 0x0, 0xFFFFFFFF0000, 0x0, 0x0, 0x0, 0xFFFF00000000FFFF⟩,
  ⟨0x100, 1, 0x8, 0x1, 0x1, 0x0, 0x0, 0x0, 0xFFFFFFFFFFFFFFFE⟩,
  ⟨0x108, 1, 0x8, 0x0, 0x0, 0x6100, 0x0, 0x0, 0xFFFF000000001E80⟩,
  ⟨0x110, 1, 0x8, 0x0, 0x0, 0x0, 0x0, 0x0, 0x0⟩,
  ⟨0x118, 1, 0x8, 0x0, 0x0, 0x0, 0x0, 0x0, 0x0⟩,
  ⟨0x200, 1, 0x8, 0x1, 0x1, 0x0, 0x0, 0x0, 0xFFFFFFFFFFFFFFFE⟩,
  ⟨0x208, 1, 0x8, 0x0, 0x0, 0x10000, 0x0, 0x0, 0xFFFFFFFF00FE7800⟩,
  ⟨0x210, 1, 0x8, 0x0, 0x0, 0x100000000, 0x0, 0x0, 0xFFFFFFFE00000000⟩,
  ⟨0x300, 1, 0x8, 0x0, 0x80003FFF00003FFF, 0x0, 0x0, 0x0, 0x7FFFC000FFFFC000⟩,
  ⟨0x308, 1, 0x8, 0x0, 0x0, 0x3, 0x0, 0x0, 0xFFFF0003FFFFFFFC⟩,
  ⟨0x8000, 64, 0x10, 0x0, 0xFFFFFFFF, 0x0, 0x0, 0x0, 0xFFFFFFFF00000000⟩,
  ⟨0x8008, 64, 0x10, 0x0, 0x0, 0x0, 0x0, 0x0, 0xFFFFFFFFFFFFF000⟩]

/-! ### Table 6.11 (06 R169) -/

def NWT_CTRL (d : Nat) : Nat := dieBase d + 0x900000 + 0x0
def NWT_CTRL_EN : Fld := ⟨0, 1⟩
def NWT_STATUS (d : Nat) : Nat := dieBase d + 0x900000 + 0x8
def NWT_STATUS_ACTIVE : Fld := ⟨15, 1⟩
def NWT_STATUS_EVT : Fld := ⟨2, 1⟩
def NWT_STATUS_PERM_ERR : Fld := ⟨1, 1⟩
def NWT_STATUS_VER_ERR : Fld := ⟨0, 1⟩
def NWT_EVT (d : Nat) : Nat := dieBase d + 0x900000 + 0x10
def NWT_EVT_CTR : Fld := ⟨24, 2⟩
def NWT_EVT_TAG : Fld := ⟨8, 8⟩
def NWT_EVT_TILE : Fld := ⟨0, 8⟩
def NWT_SEEN (d : Nat) (i : Nat) : Nat := dieBase d + 0x900000 + 0x1000 + 0x20 * i
def NWT_SEEN_COUNT : Fld := ⟨0, 64⟩
def NWT_ZS (d : Nat) (i : Nat) : Nat := dieBase d + 0x900000 + 0x1008 + 0x20 * i
def NWT_ZS_SAT : Fld := ⟨32, 32⟩
def NWT_ZS_ZERO : Fld := ⟨0, 32⟩
def NWT_NF (d : Nat) (i : Nat) : Nat := dieBase d + 0x900000 + 0x1010 + 0x20 * i
def NWT_NF_NONFIN : Fld := ⟨0, 32⟩
def NWT_THR (d : Nat) (i : Nat) : Nat := dieBase d + 0x900000 + 0x1018 + 0x20 * i
def NWT_THR_EN_NF : Fld := ⟨35, 1⟩
def NWT_THR_EN_SAT : Fld := ⟨34, 1⟩
def NWT_THR_EN_ZERO : Fld := ⟨33, 1⟩
def NWT_THR_CLR : Fld := ⟨32, 1⟩
def NWT_THR_THRESH : Fld := ⟨0, 32⟩

/-- The registers of the block, Table 6.11 (06 R169). -/
def nwtRegs : List RegDesc := [
  ⟨0x0, 1, 0x8, 0x1, 0x1, 0x0, 0x0, 0x0, 0xFFFFFFFFFFFFFFFE⟩,
  ⟨0x8, 1, 0x8, 0x0, 0x0, 0x7, 0x0, 0x0, 0xFFFFFFFFFFFF7FF8⟩,
  ⟨0x10, 1, 0x8, 0x0, 0x0, 0x0, 0x0, 0x0, 0xFFFFFFFFFCFF0000⟩,
  ⟨0x1000, 256, 0x20, 0x0, 0x0, 0x0, 0x0, 0x0, 0x0⟩,
  ⟨0x1008, 256, 0x20, 0x0, 0x0, 0x0, 0x0, 0x0, 0x0⟩,
  ⟨0x1010, 256, 0x20, 0x0, 0x0, 0x0, 0x0, 0x0, 0xFFFFFFFF00000000⟩,
  ⟨0x1018, 256, 0x20, 0x0, 0xEFFFFFFFF, 0x0, 0x0, 0x100000000, 0xFFFFFFF000000000⟩]

/-! ### Table 8.3 (08 R219) -/

def LLS_CTRL (d : Nat) : Nat := dieBase d + 0x200000 + 0x0
def LLS_CTRL_EN : Fld := ⟨0, 1⟩
def LLS_STATUS (d : Nat) : Nat := dieBase d + 0x200000 + 0x8
def LLS_STATUS_ACTIVE : Fld := ⟨15, 1⟩
def LLS_STATUS_TAGS_VALID : Fld := ⟨14, 1⟩
def LLS_STATUS_LOST_FULL : Fld := ⟨13, 1⟩
def LLS_STATUS_WAY_EVT : Fld := ⟨12, 1⟩
def LLS_STATUS_HIT_OVF : Fld := ⟨11, 1⟩
def LLS_STATUS_MISS_OVF : Fld := ⟨10, 1⟩
def LLS_STATUS_WB_OVF : Fld := ⟨9, 1⟩
def LLS_STATUS_SEQ_ERR : Fld := ⟨4, 1⟩
def LLS_STATUS_BUSY_ERR : Fld := ⟨3, 1⟩
def LLS_STATUS_PERM_ERR : Fld := ⟨1, 1⟩
def LLS_STATUS_VER_ERR : Fld := ⟨0, 1⟩
def LLS_WAYS (d : Nat) : Nat := dieBase d + 0x200000 + 0x10
def LLS_WAYS_DIS : Fld := ⟨32, 16⟩
def LLS_WAYS_SCR : Fld := ⟨16, 16⟩
def LLS_WAYS_MOVING : Fld := ⟨0, 16⟩
def LLS_ALLOC (d : Nat) : Nat := dieBase d + 0x200000 + 0x18
def LLS_ALLOC_CREW : Fld := ⟨5, 1⟩
def LLS_ALLOC_MIRROR : Fld := ⟨4, 1⟩
def LLS_ALLOC_HOST : Fld := ⟨3, 1⟩
def LLS_ALLOC_CXS : Fld := ⟨2, 1⟩
def LLS_ALLOC_DM : Fld := ⟨1, 1⟩
def LLS_ALLOC_SCALAR : Fld := ⟨0, 1⟩
def LLS_CNT_HIT (d : Nat) : Nat := dieBase d + 0x200000 + 0x20
def LLS_CNT_HIT_COUNT : Fld := ⟨0, 64⟩
def LLS_CNT_MISS (d : Nat) : Nat := dieBase d + 0x200000 + 0x28
def LLS_CNT_MISS_COUNT : Fld := ⟨0, 64⟩
def LLS_CNT_WB (d : Nat) : Nat := dieBase d + 0x200000 + 0x30
def LLS_CNT_WB_COUNT : Fld := ⟨0, 64⟩
def LLS_PAR (d : Nat) (i : Nat) : Nat := dieBase d + 0x200000 + 0x80 + 0x8 * i
def LLS_PAR_CLR : Fld := ⟨32, 1⟩
def LLS_PAR_COUNT : Fld := ⟨0, 32⟩
def LLS_LOST (d : Nat) (i : Nat) : Nat := dieBase d + 0x200000 + 0x100 + 0x8 * i
def LLS_LOST_V : Fld := ⟨63, 1⟩
def LLS_LOST_LINE : Fld := ⟨7, 41⟩
def LLS_BURN_ADDR (d : Nat) (i : Nat) : Nat := dieBase d + 0x200000 + 0x1000 + 0x20 * i
def LLS_BURN_ADDR_ADDR : Fld := ⟨0, 48⟩
def LLS_BURN_LEN (d : Nat) (i : Nat) : Nat := dieBase d + 0x200000 + 0x1008 + 0x20 * i
def LLS_BURN_LEN_LEN : Fld := ⟨0, 32⟩
def LLS_BURN_CMD (d : Nat) (i : Nat) : Nat := dieBase d + 0x200000 + 0x1010 + 0x20 * i
def LLS_BURN_CMD_CBV : Fld := ⟨47, 1⟩
def LLS_BURN_CMD_CB : Fld := ⟨33, 14⟩
def LLS_BURN_CMD_WAY : Fld := ⟨8, 4⟩
def LLS_BURN_CMD_OP : Fld := ⟨0, 4⟩
def LLS_BURN_STATUS (d : Nat) (i : Nat) : Nat := dieBase d + 0x200000 + 0x1018 + 0x20 * i
def LLS_BURN_STATUS_BUSY : Fld := ⟨63, 1⟩
def LLS_BURN_STATUS_DONE : Fld := ⟨62, 1⟩
def LLS_BURN_STATUS_CANCEL : Fld := ⟨61, 1⟩
def LLS_BURN_STATUS_RUN : Fld := ⟨60, 1⟩
def LLS_BURN_STATUS_RESULT : Fld := ⟨48, 8⟩
def LLS_BURN_STATUS_LINES : Fld := ⟨0, 32⟩

/-- The registers of the block, Table 8.3 (08 R219). -/
def llsRegs : List RegDesc := [
  ⟨0x0, 1, 0x8, 0x0, 0x1, 0x0, 0x0, 0x0, 0xFFFFFFFFFFFFFFFE⟩,
  ⟨0x8, 1, 0x8, 0x0, 0x0, 0x3E1B, 0x0, 0x0, 0xFFFFFFFFFFFF01E4⟩,
  ⟨0x10, 1, 0x8, 0x0, 0x0, 0x0, 0x0, 0x0, 0xFFFF000000000000⟩,
  ⟨0x18, 1, 0x8, 0x2F, 0x3F, 0x0, 0x0, 0x0, 0xFFFFFFFFFFFFFFC0⟩,
  ⟨0x20, 1, 0x8, 0x0, 0x0, 0x0, 0x0, 0x0, 0x0⟩,
  ⟨0x28, 1, 0x8, 0x0, 0x0, 0x0, 0x0, 0x0, 0x0⟩,
  ⟨0x30, 1, 0x8, 0x0, 0x0, 0x0, 0x0, 0x0, 0x0⟩,
  ⟨0x80, 16, 0x8, 0x0, 0x0, 0x100000000, 0x0, 0x0, 0xFFFFFFFE00000000⟩,
  ⟨0x100, 64, 0x8, 0x0, 0x0, 0x8000000000000000, 0x0, 0x0, 0x7FFF00000000007F⟩,
  ⟨0x1000, 33, 0x20, 0x0, 0xFFFFFFFFFFFF, 0x0, 0x0, 0x0, 0xFFFF000000000000⟩,
  ⟨0x1008, 33, 0x20, 0x0, 0xFFFFFFFF, 0x0, 0x0, 0x0, 0xFFFFFFFF00000000⟩,
  ⟨0x1010, 33, 0x20, 0x0, 0xFFFE00000F0F, 0x0, 0x0, 0x0, 0xFFFF0001FFFFF0F0⟩,
  ⟨0x1018, 33, 0x20, 0x0, 0x0, 0x4000000000000000, 0x2000000000000000, 0x0, 0xF00FFFF00000000⟩]

/-! ### Table 9.5 (09 R236) -/

def HBM_THR (m : Nat) : Nat := memBase m + 0x0
def HBM_THR_CRIT : Fld := ⟨16, 8⟩
def HBM_THR_THROT : Fld := ⟨8, 8⟩
def HBM_THR_WARN : Fld := ⟨0, 8⟩
def HBM_STATE (m : Nat) : Nat := memBase m + 0x8
def HBM_STATE_TEMP : Fld := ⟨40, 8⟩
def HBM_STATE_SWEEP : Fld := ⟨36, 1⟩
def HBM_STATE_UNSCHED : Fld := ⟨35, 1⟩
def HBM_STATE_OVERLIMIT : Fld := ⟨34, 1⟩
def HBM_STATE_ARG_ERR : Fld := ⟨33, 1⟩
def HBM_STATE_PERM_ERR : Fld := ⟨32, 1⟩
def HBM_STATE_LANES : Fld := ⟨16, 3⟩
def HBM_STATE_TSTATE : Fld := ⟨0, 3⟩
def HBM_CNT_CORR (m : Nat) : Nat := memBase m + 0x10
def HBM_CNT_CORR_CLR : Fld := ⟨32, 1⟩
def HBM_CNT_CORR_COUNT : Fld := ⟨0, 32⟩
def HBM_CNT_UNCORR (m : Nat) : Nat := memBase m + 0x18
def HBM_CNT_UNCORR_CLR : Fld := ⟨32, 1⟩
def HBM_CNT_UNCORR_COUNT : Fld := ⟨0, 32⟩
def HBM_REPAIR (m : Nat) : Nat := memBase m + 0x20
def HBM_REPAIR_SOFT : Fld := ⟨48, 16⟩
def HBM_REPAIR_HARD : Fld := ⟨32, 16⟩
def HBM_REPAIR_PENDING : Fld := ⟨16, 16⟩
def HBM_REPAIR_SPARE_MIN : Fld := ⟨0, 16⟩

/-- The registers of the block, Table 9.5 (09 R236). -/
def memRegs : List RegDesc := [
  ⟨0x0, 1, 0x8, 0x695F55, 0xFFFFFF, 0x0, 0x0, 0x0, 0xFFFFFFFFFF000000⟩,
  ⟨0x8, 1, 0x8, 0x4, 0x0, 0xF00000000, 0x0, 0x0, 0xFFFF00E0FFF8FFF8⟩,
  ⟨0x10, 1, 0x8, 0x0, 0x0, 0x100000000, 0x0, 0x0, 0xFFFFFFFE00000000⟩,
  ⟨0x18, 1, 0x8, 0x0, 0x0, 0x100000000, 0x0, 0x0, 0xFFFFFFFE00000000⟩,
  ⟨0x20, 1, 0x8, 0x0, 0x0, 0x0, 0x0, 0x0, 0x0⟩]

/-! ### Table 9.11 (09 R252) -/

def CXS_CTRL (d : Nat) : Nat := dieBase d + 0x500000 + 0x0
def CXS_CTRL_SHARE : Fld := ⟨1, 4⟩
def CXS_CTRL_EN : Fld := ⟨0, 1⟩
def CXS_STATUS (d : Nat) : Nat := dieBase d + 0x500000 + 0x8
def CXS_STATUS_ACTIVE : Fld := ⟨15, 1⟩
def CXS_STATUS_POOL_ERR : Fld := ⟨14, 1⟩
def CXS_STATUS_ARG_ERR : Fld := ⟨13, 1⟩
def CXS_STATUS_PERM_ERR : Fld := ⟨12, 1⟩
def CXS_STATUS_VER_ERR : Fld := ⟨11, 1⟩
def CXS_STATUS_PAGES_OVF : Fld := ⟨10, 1⟩
def CXS_STATUS_QCOUNT : Fld := ⟨0, 9⟩
def CXS_POOL_BASE (d : Nat) : Nat := dieBase d + 0x500000 + 0x10
def CXS_POOL_BASE_BASE : Fld := ⟨12, 36⟩
def CXS_POOL_BASE_SZ : Fld := ⟨0, 5⟩
def CXS_POOL_PTR (d : Nat) : Nat := dieBase d + 0x500000 + 0x18
def CXS_POOL_PTR_COUNT : Fld := ⟨32, 21⟩
def CXS_POOL_PTR_HEAD : Fld := ⟨0, 21⟩
def CXS_POOL_ADD (d : Nat) : Nat := dieBase d + 0x500000 + 0x20
def CXS_POOL_ADD_FRAME : Fld := ⟨16, 32⟩
def CXS_CNT_PAGES (d : Nat) : Nat := dieBase d + 0x500000 + 0x28
def CXS_CNT_PAGES_VALUE : Fld := ⟨0, 64⟩
def CXS_CNT_LATE (d : Nat) : Nat := dieBase d + 0x500000 + 0x30
def CXS_CNT_LATE_CLR : Fld := ⟨32, 1⟩
def CXS_CNT_LATE_COUNT : Fld := ⟨0, 32⟩
def CXS_SUB_W0 (d : Nat) (i : Nat) : Nat := dieBase d + 0x500000 + 0x1000 + 0x20 * i
def CXS_SUB_W0_VALUE : Fld := ⟨0, 64⟩
def CXS_SUB_W1 (d : Nat) (i : Nat) : Nat := dieBase d + 0x500000 + 0x1008 + 0x20 * i
def CXS_SUB_W1_VALUE : Fld := ⟨0, 64⟩
def CXS_SUB_W2 (d : Nat) (i : Nat) : Nat := dieBase d + 0x500000 + 0x1010 + 0x20 * i
def CXS_SUB_W2_VALUE : Fld := ⟨0, 64⟩
def CXS_SUB_W3 (d : Nat) (i : Nat) : Nat := dieBase d + 0x500000 + 0x1018 + 0x20 * i
def CXS_SUB_W3_VALUE : Fld := ⟨0, 64⟩
def CXS_SUB_STATUS (d : Nat) (i : Nat) : Nat := dieBase d + 0x500000 + 0x1800 + 0x8 * i
def CXS_SUB_STATUS_REJ : Fld := ⟨63, 1⟩
def CXS_SUB_STATUS_CODE : Fld := ⟨0, 8⟩
def CXS_CTX_CTRL (d : Nat) (i : Nat) : Nat := dieBase d + 0x500000 + 0x4000 + 0x40 * i
def CXS_CTX_CTRL_ACTIVE : Fld := ⟨48, 1⟩
def CXS_CTX_CTRL_TAG : Fld := ⟨40, 8⟩
def CXS_CTX_CTRL_RECIPE : Fld := ⟨37, 3⟩
def CXS_CTX_CTRL_BULK_FMT : Fld := ⟨30, 5⟩
def CXS_CTX_CTRL_HBM_FMT : Fld := ⟨25, 5⟩
def CXS_CTX_CTRL_NBLK : Fld := ⟨12, 12⟩
def CXS_CTX_CTRL_EN : Fld := ⟨0, 1⟩
def CXS_CTX_PT_BASE (d : Nat) (i : Nat) : Nat := dieBase d + 0x500000 + 0x4008 + 0x40 * i
def CXS_CTX_PT_BASE_PT_BASE : Fld := ⟨12, 36⟩
def CXS_CTX_PT_LEN (d : Nat) (i : Nat) : Nat := dieBase d + 0x500000 + 0x4010 + 0x40 * i
def CXS_CTX_PT_LEN_PT_LEN : Fld := ⟨0, 25⟩
def CXS_CTX_NPAGES (d : Nat) (i : Nat) : Nat := dieBase d + 0x500000 + 0x4018 + 0x40 * i
def CXS_CTX_NPAGES_NPAGES : Fld := ⟨0, 25⟩
def CXS_CTX_RESIDENT (d : Nat) (i : Nat) : Nat := dieBase d + 0x500000 + 0x4020 + 0x40 * i
def CXS_CTX_RESIDENT_RESIDENT : Fld := ⟨0, 25⟩
def CXS_CTX_R5 (d : Nat) (i : Nat) : Nat := dieBase d + 0x500000 + 0x4028 + 0x40 * i
def CXS_CTX_R6 (d : Nat) (i : Nat) : Nat := dieBase d + 0x500000 + 0x4030 + 0x40 * i
def CXS_CTX_R7 (d : Nat) (i : Nat) : Nat := dieBase d + 0x500000 + 0x4038 + 0x40 * i

/-- The registers of the block, Table 9.11 (09 R252). -/
def cxsRegs : List RegDesc := [
  ⟨0x0, 1, 0x8, 0xF, 0x1F, 0x0, 0x0, 0x0, 0xFFFFFFFFFFFFFFE0⟩,
  ⟨0x8, 1, 0x8, 0x0, 0x0, 0x7C00, 0x0, 0x0, 0xFFFFFFFFFFFF0200⟩,
  ⟨0x10, 1, 0x8, 0x0, 0xFFFFFFFFF01F, 0x0, 0x0, 0x0, 0xFFFF000000000FE0⟩,
  ⟨0x18, 1, 0x8, 0x0, 0x0, 0x0, 0x0, 0x0, 0xFFE00000FFE00000⟩,
  ⟨0x20, 1, 0x8, 0x0, 0x0, 0x0, 0x0, 0xFFFFFFFF0000, 0xFFFF00000000FFFF⟩,
  ⟨0x28, 1, 0x8, 0x0, 0x0, 0x0, 0x0, 0x0, 0x0⟩,
  ⟨0x30, 1, 0x8, 0x0, 0x0, 0x100000000, 0x0, 0x0, 0xFFFFFFFE00000000⟩,
  ⟨0x1000, 33, 0x20, 0x0, 0xFFFFFFFFFFFFFFFF, 0x0, 0x0, 0x0, 0x0⟩,
  ⟨0x1008, 33, 0x20, 0x0, 0xFFFFFFFFFFFFFFFF, 0x0, 0x0, 0x0, 0x0⟩,
  ⟨0x1010, 33, 0x20, 0x0, 0xFFFFFFFFFFFFFFFF, 0x0, 0x0, 0x0, 0x0⟩,
  ⟨0x1018, 33, 0x20, 0x0, 0xFFFFFFFFFFFFFFFF, 0x0, 0x0, 0x0, 0x0⟩,
  ⟨0x1800, 33, 0x8, 0x0, 0x0, 0x8000000000000000, 0x0, 0x0, 0x7FFFFFFFFFFFFF00⟩,
  ⟨0x4000, 128, 0x40, 0x0, 0xFFE7FEFFF001, 0x0, 0x0, 0x0, 0xFFFE001801000FFE⟩,
  ⟨0x4008, 128, 0x40, 0x0, 0xFFFFFFFFF000, 0x0, 0x0, 0x0, 0xFFFF000000000FFF⟩,
  ⟨0x4010, 128, 0x40, 0x0, 0x1FFFFFF, 0x0, 0x0, 0x0, 0xFFFFFFFFFE000000⟩,
  ⟨0x4018, 128, 0x40, 0x0, 0x1FFFFFF, 0x0, 0x0, 0x0, 0xFFFFFFFFFE000000⟩,
  ⟨0x4020, 128, 0x40, 0x0, 0x0, 0x0, 0x0, 0x0, 0xFFFFFFFFFE000000⟩,
  ⟨0x4028, 128, 0x40, 0x0, 0x0, 0x0, 0x0, 0x0, 0xFFFFFFFFFFFFFFFF⟩,
  ⟨0x4030, 128, 0x40, 0x0, 0x0, 0x0, 0x0, 0x0, 0xFFFFFFFFFFFFFFFF⟩,
  ⟨0x4038, 128, 0x40, 0x0, 0x0, 0x0, 0x0, 0x0, 0xFFFFFFFFFFFFFFFF⟩]

/-! ### Table 10.8 (10 R269) -/

def VKN_STATUS (k : Nat) : Nat := vknBase k + 0x0
def VKN_STATUS_FLIT_OVF : Fld := ⟨15, 1⟩
def VKN_STATUS_ROUTE_CHG : Fld := ⟨14, 1⟩
def VKN_STATUS_PERM_ERR : Fld := ⟨10, 1⟩
def VKN_STATUS_VER_ERR : Fld := ⟨9, 1⟩
def VKN_STATUS_REACH : Fld := ⟨0, 9⟩
def VKN_ROUTE (k : Nat) : Nat := vknBase k + 0x8
def VKN_ROUTE_ROUTE : Fld := ⟨0, 36⟩
def VKN_PCTRL (k : Nat) (i : Nat) : Nat := vknBase k + 0x1000 + 0x100 * i
def VKN_PCTRL_RECOV : Fld := ⟨1, 1⟩
def VKN_PCTRL_EN : Fld := ⟨0, 1⟩
def VKN_PSTATUS (k : Nat) (i : Nat) : Nat := vknBase k + 0x1008 + 0x100 * i
def VKN_PSTATUS_MODS : Fld := ⟨20, 4⟩
def VKN_PSTATUS_WIDTH : Fld := ⟨16, 4⟩
def VKN_PSTATUS_ACTIVE : Fld := ⟨15, 1⟩
def VKN_PSTATUS_FLIT_VER : Fld := ⟨7, 1⟩
def VKN_PSTATUS_DEGRADE : Fld := ⟨6, 1⟩
def VKN_PSTATUS_FAIL : Fld := ⟨5, 1⟩
def VKN_PSTATUS_STATE : Fld := ⟨0, 3⟩
def VKN_PLANES (k : Nat) (i : Nat) : Nat := vknBase k + 0x1010 + 0x100 * i
def VKN_PLANES_LANES : Fld := ⟨0, 32⟩
def VKN_CNT_FLIT (k : Nat) (i : Nat) : Nat := vknBase k + 0x1018 + 0x100 * i
def VKN_CNT_FLIT_VALUE : Fld := ⟨0, 64⟩
def VKN_CNT_CRC (k : Nat) (i : Nat) : Nat := vknBase k + 0x1020 + 0x100 * i
def VKN_CNT_CRC_CLR : Fld := ⟨32, 1⟩
def VKN_CNT_CRC_COUNT : Fld := ⟨0, 32⟩
def VKN_CNT_REPLAY (k : Nat) (i : Nat) : Nat := vknBase k + 0x1028 + 0x100 * i
def VKN_CNT_REPLAY_CLR : Fld := ⟨32, 1⟩
def VKN_CNT_REPLAY_COUNT : Fld := ⟨0, 32⟩
def VKN_CNT_RECOV (k : Nat) (i : Nat) : Nat := vknBase k + 0x1030 + 0x100 * i
def VKN_CNT_RECOV_CLR : Fld := ⟨32, 1⟩
def VKN_CNT_RECOV_COUNT : Fld := ⟨0, 32⟩

/-- The registers of the block, Table 10.8 (10 R269). -/
def vknRegs : List RegDesc := [
  ⟨0x0, 1, 0x8, 0x0, 0x0, 0xC600, 0x0, 0x0, 0xFFFFFFFFFFFF3800⟩,
  ⟨0x8, 1, 0x8, 0xFFFFFFFFF, 0x0, 0x0, 0x0, 0x0, 0xFFFFFFF000000000⟩,
  ⟨0x1000, 8, 0x100, 0x1, 0x1, 0x0, 0x0, 0x2, 0xFFFFFFFFFFFFFFFC⟩,
  ⟨0x1008, 8, 0x100, 0x0, 0x0, 0xE0, 0x0, 0x0, 0xFFFFFFFFFF007F18⟩,
  ⟨0x1010, 8, 0x100, 0x0, 0x0, 0x0, 0x0, 0x0, 0xFFFFFFFF00000000⟩,
  ⟨0x1018, 8, 0x100, 0x0, 0x0, 0x0, 0x0, 0x0, 0x0⟩,
  ⟨0x1020, 8, 0x100, 0x0, 0x0, 0x100000000, 0x0, 0x0, 0xFFFFFFFE00000000⟩,
  ⟨0x1028, 8, 0x100, 0x0, 0x0, 0x100000000, 0x0, 0x0, 0xFFFFFFFE00000000⟩,
  ⟨0x1030, 8, 0x100, 0x0, 0x0, 0x100000000, 0x0, 0x0, 0xFFFFFFFE00000000⟩]

/-! ### Table 11.6 (11 R274) -/

def MB_CLAIM : Nat := bar0Base + 0x500000 + 0x0
def MB_CLAIM_NONE : Fld := ⟨63, 1⟩
def MB_CLAIM_INDEX : Fld := ⟨0, 9⟩
def MB_DOORBELL : Nat := bar0Base + 0x500000 + 0x8
def MB_DOORBELL_INDEX : Fld := ⟨0, 9⟩
def MB_RELEASE : Nat := bar0Base + 0x500000 + 0x10
def MB_RELEASE_INDEX : Fld := ⟨0, 9⟩
def MB_ERR : Nat := bar0Base + 0x500000 + 0x18
def MB_ERR_ERR : Fld := ⟨63, 1⟩
def MB_ERR_KIND : Fld := ⟨60, 3⟩
def MB_ERR_INDEX : Fld := ⟨0, 9⟩
def MB_FREE : Nat := bar0Base + 0x500000 + 0x20
def MB_FREE_VALUE : Fld := ⟨0, 64⟩
def MB_STATE (i : Nat) : Nat := bar0Base + 0x500000 + 0x100 + 0x8 * i
def MB_STATE_VALUE : Fld := ⟨0, 64⟩

/-- The registers of the block, Table 11.6 (11 R274). -/
def mbpRegs : List RegDesc := [
  ⟨0x0, 1, 0x8, 0x0, 0x0, 0x0, 0x0, 0x0, 0x7FFFFFFFFFFFFE00⟩,
  ⟨0x8, 1, 0x8, 0x0, 0x0, 0x0, 0x0, 0x1FF, 0xFFFFFFFFFFFFFE00⟩,
  ⟨0x10, 1, 0x8, 0x0, 0x0, 0x0, 0x0, 0x1FF, 0xFFFFFFFFFFFFFE00⟩,
  ⟨0x18, 1, 0x8, 0x0, 0x0, 0x8000000000000000, 0x0, 0x0, 0xFFFFFFFFFFFFE00⟩,
  ⟨0x20, 1, 0x8, 0x200, 0x0, 0x0, 0x0, 0x0, 0x0⟩,
  ⟨0x100, 16, 0x8, 0x0, 0x0, 0x0, 0x0, 0x0, 0x0⟩]

/-! ### Table 12.5 (12 R300) -/

def DEV_IDENT : Nat := bar0Base + 0x0
def DEV_IDENT_VENDOR : Fld := ⟨48, 16⟩
def DEV_IDENT_DEVICE : Fld := ⟨32, 16⟩
def DEV_IDENT_SUBSYS : Fld := ⟨16, 16⟩
def DEV_IDENT_REV : Fld := ⟨0, 8⟩
def DEV_STATUS : Nat := bar0Base + 0x8
def DEV_STATUS_STAGE : Fld := ⟨4, 4⟩
def DEV_STATUS_DEGRADED : Fld := ⟨3, 1⟩
def DEV_STATUS_EASY : Fld := ⟨2, 1⟩
def DEV_STATUS_COX_RST : Fld := ⟨1, 1⟩
def DEV_STATUS_READY : Fld := ⟨0, 1⟩
def ESURA_LEVEL : Nat := bar0Base + 0x10
def ESURA_LEVEL_LEVEL : Fld := ⟨0, 8⟩
def FW_IFACE_VER : Nat := bar0Base + 0x18
def FW_IFACE_VER_MAJOR : Fld := ⟨8, 8⟩
def FW_IFACE_VER_MINOR : Fld := ⟨0, 8⟩
def RESET_CAUSE : Nat := bar0Base + 0x20
def RESET_CAUSE_DATA : Fld := ⟨4, 1⟩
def RESET_CAUSE_FLR : Fld := ⟨3, 1⟩
def RESET_CAUSE_PERST : Fld := ⟨2, 1⟩
def RESET_CAUSE_MODULE : Fld := ⟨1, 1⟩
def RESET_CAUSE_POWER : Fld := ⟨0, 1⟩
def HOST_INT_CAUSE : Nat := bar0Base + 0x1000
def HOST_INT_CAUSE_IN_ERR : Fld := ⟨3, 1⟩
def HOST_INT_CAUSE_COX_RST : Fld := ⟨2, 1⟩
def HOST_INT_CAUSE_READY : Fld := ⟨1, 1⟩
def HOST_INT_CAUSE_MAILBOX : Fld := ⟨0, 1⟩
def HOST_INT_MASK : Nat := bar0Base + 0x1008
def HOST_INT_MASK_IN_ERR : Fld := ⟨3, 1⟩
def HOST_INT_MASK_COX_RST : Fld := ⟨2, 1⟩
def HOST_INT_MASK_READY : Fld := ⟨1, 1⟩
def HOST_INT_MASK_MAILBOX : Fld := ⟨0, 1⟩

/-- The registers of the block, Table 12.5 (12 R300). -/
def barRegs : List RegDesc := [
  ⟨0x0, 1, 0x8, 0x1F3C020800210001, 0x0, 0x0, 0x0, 0x0, 0xFF00⟩,
  ⟨0x8, 1, 0x8, 0x0, 0x0, 0x0, 0x0, 0x0, 0xFFFFFFFFFFFFFF00⟩,
  ⟨0x10, 1, 0x8, 0x2, 0x0, 0x0, 0x0, 0x0, 0xFFFFFFFFFFFFFF00⟩,
  ⟨0x18, 1, 0x8, 0x0, 0x0, 0x0, 0x0, 0x0, 0xFFFFFFFFFFFF0000⟩,
  ⟨0x20, 1, 0x8, 0x0, 0x0, 0x1F, 0x0, 0x0, 0xFFFFFFFFFFFFFFE0⟩,
  ⟨0x1000, 1, 0x8, 0x0, 0x0, 0xF, 0x0, 0x0, 0xFFFFFFFFFFFFFFF0⟩,
  ⟨0x1008, 1, 0x8, 0xF, 0xF, 0x0, 0x0, 0x0, 0xFFFFFFFFFFFFFFF0⟩]

/-! ### Table 12.13 (12 R314) -/

def PCI_STATUS : Nat := hubBase + 0x200000 + 0x0
def PCI_STATUS_WIDTH : Fld := ⟨11, 5⟩
def PCI_STATUS_SPEED : Fld := ⟨8, 3⟩
def PCI_STATUS_BME : Fld := ⟨7, 1⟩
def PCI_STATUS_MSE : Fld := ⟨6, 1⟩
def PCI_STATUS_FRST : Fld := ⟨5, 1⟩
def PCI_STATUS_UP : Fld := ⟨0, 1⟩
def PCI_OB_HI : Nat := hubBase + 0x200000 + 0x8
def PCI_OB_HI_HI : Fld := ⟨44, 20⟩
def PCI_CNT_IN_ERR : Nat := hubBase + 0x200000 + 0x10
def PCI_CNT_IN_ERR_CLR : Fld := ⟨32, 1⟩
def PCI_CNT_IN_ERR_COUNT : Fld := ⟨0, 32⟩
def PCI_WIN_W0 (i : Nat) : Nat := hubBase + 0x200000 + 0x1000 + 0x20 * i
def PCI_WIN_W0_BOFF : Fld := ⟨16, 32⟩
def PCI_WIN_W0_W : Fld := ⟨2, 1⟩
def PCI_WIN_W0_R : Fld := ⟨1, 1⟩
def PCI_WIN_W0_V : Fld := ⟨0, 1⟩
def PCI_WIN_W1 (i : Nat) : Nat := hubBase + 0x200000 + 0x1008 + 0x20 * i
def PCI_WIN_W1_DADDR : Fld := ⟨16, 32⟩
def PCI_WIN_W2 (i : Nat) : Nat := hubBase + 0x200000 + 0x1010 + 0x20 * i
def PCI_WIN_W2_LEN : Fld := ⟨0, 27⟩
def PCI_WIN_W3 (i : Nat) : Nat := hubBase + 0x200000 + 0x1018 + 0x20 * i

/-- The registers of the block, Table 12.13 (12 R314). -/
def pciRegs : List RegDesc := [
  ⟨0x0, 1, 0x8, 0x0, 0x0, 0x0, 0x0, 0x0, 0xFFFFFFFFFFFF001E⟩,
  ⟨0x8, 1, 0x8, 0x0, 0xFFFFF00000000000, 0x0, 0x0, 0x0, 0xFFFFFFFFFFF⟩,
  ⟨0x10, 1, 0x8, 0x0, 0x0, 0x100000000, 0x0, 0x0, 0xFFFFFFFE00000000⟩,
  ⟨0x1000, 64, 0x20, 0x0, 0xFFFFFFFF0007, 0x0, 0x0, 0x0, 0xFFFF00000000FFF8⟩,
  ⟨0x1008, 64, 0x20, 0x0, 0xFFFFFFFF0000, 0x0, 0x0, 0x0, 0xFFFF00000000FFFF⟩,
  ⟨0x1010, 64, 0x20, 0x0, 0x7FFFFFF, 0x0, 0x0, 0x0, 0xFFFFFFFFF8000000⟩,
  ⟨0x1018, 64, 0x20, 0x0, 0x0, 0x0, 0x0, 0x0, 0xFFFFFFFFFFFFFFFF⟩]

/-! ### Table 13.10 (13 R344) -/

def FAB_STATUS : Nat := hubBase + 0x300000 + 0x0
def FAB_STATUS_PERM_ERR : Fld := ⟨9, 1⟩
def FAB_STATUS_VER_ERR : Fld := ⟨8, 1⟩
def FAB_STATUS_UP : Fld := ⟨0, 8⟩
def FAB_PCTRL (i : Nat) : Nat := hubBase + 0x300000 + 0x1000 + 0x100 * i
def FAB_PCTRL_MODE_MAX : Fld := ⟨1, 2⟩
def FAB_PCTRL_EN : Fld := ⟨0, 1⟩
def FAB_PSTATUS (i : Nat) : Nat := hubBase + 0x300000 + 0x1008 + 0x100 * i
def FAB_PSTATUS_ACTIVE : Fld := ⟨15, 1⟩
def FAB_PSTATUS_LINK_CHG : Fld := ⟨11, 1⟩
def FAB_PSTATUS_LANES : Fld := ⟨8, 3⟩
def FAB_PSTATUS_MODE : Fld := ⟨6, 2⟩
def FAB_PSTATUS_STATE : Fld := ⟨0, 3⟩
def FAB_CNT_DROP (i : Nat) : Nat := hubBase + 0x300000 + 0x1010 + 0x100 * i
def FAB_CNT_DROP_CLR : Fld := ⟨32, 1⟩
def FAB_CNT_DROP_COUNT : Fld := ⟨0, 32⟩
def FAB_CNT_PFC (i : Nat) : Nat := hubBase + 0x300000 + 0x1018 + 0x100 * i
def FAB_CNT_PFC_CLR : Fld := ⟨32, 1⟩
def FAB_CNT_PFC_COUNT : Fld := ⟨0, 32⟩
def FAB_CNT_FEC (i : Nat) : Nat := hubBase + 0x300000 + 0x1020 + 0x100 * i
def FAB_CNT_FEC_CLR : Fld := ⟨32, 1⟩
def FAB_CNT_FEC_COUNT : Fld := ⟨0, 32⟩

/-- The registers of the block, Table 13.10 (13 R344). -/
def fabRegs : List RegDesc := [
  ⟨0x0, 1, 0x8, 0x0, 0x0, 0x300, 0x0, 0x0, 0xFFFFFFFFFFFFFC00⟩,
  ⟨0x1000, 8, 0x100, 0x0, 0x7, 0x0, 0x0, 0x0, 0xFFFFFFFFFFFFFFF8⟩,
  ⟨0x1008, 8, 0x100, 0x0, 0x0, 0x800, 0x0, 0x0, 0xFFFFFFFFFFFF7038⟩,
  ⟨0x1010, 8, 0x100, 0x0, 0x0, 0x100000000, 0x0, 0x0, 0xFFFFFFFE00000000⟩,
  ⟨0x1018, 8, 0x100, 0x0, 0x0, 0x100000000, 0x0, 0x0, 0xFFFFFFFE00000000⟩,
  ⟨0x1020, 8, 0x100, 0x0, 0x0, 0x100000000, 0x0, 0x0, 0xFFFFFFFE00000000⟩]

/-! ### Table 13.11 (13 R344) -/

def CRW_CTRL : Nat := hubBase + 0x400000 + 0x0
def CRW_CTRL_EN : Fld := ⟨0, 1⟩
def CRW_STATUS : Nat := hubBase + 0x400000 + 0x8
def CRW_STATUS_QCOUNT : Fld := ⟨16, 13⟩
def CRW_STATUS_ACTIVE : Fld := ⟨15, 1⟩
def CRW_STATUS_RETX_OVF : Fld := ⟨2, 1⟩
def CRW_STATUS_PERM_ERR : Fld := ⟨1, 1⟩
def CRW_STATUS_VER_ERR : Fld := ⟨0, 1⟩
def CRW_CNT_RETX : Nat := hubBase + 0x400000 + 0x10
def CRW_CNT_RETX_VALUE : Fld := ⟨0, 64⟩
def CRW_CNT_ECE : Nat := hubBase + 0x400000 + 0x18
def CRW_CNT_ECE_CLR : Fld := ⟨32, 1⟩
def CRW_CNT_ECE_COUNT : Fld := ⟨0, 32⟩
def CRW_CNT_PACE_LATE : Nat := hubBase + 0x400000 + 0x20
def CRW_CNT_PACE_LATE_CLR : Fld := ⟨32, 1⟩
def CRW_CNT_PACE_LATE_COUNT : Fld := ⟨0, 32⟩
def CRW_SUB_W0 (i : Nat) : Nat := hubBase + 0x400000 + 0x1000 + 0x40 * i
def CRW_SUB_W0_VALUE : Fld := ⟨0, 64⟩
def CRW_SUB_W1 (i : Nat) : Nat := hubBase + 0x400000 + 0x1008 + 0x40 * i
def CRW_SUB_W1_VALUE : Fld := ⟨0, 64⟩
def CRW_SUB_W2 (i : Nat) : Nat := hubBase + 0x400000 + 0x1010 + 0x40 * i
def CRW_SUB_W2_VALUE : Fld := ⟨0, 64⟩
def CRW_SUB_W3 (i : Nat) : Nat := hubBase + 0x400000 + 0x1018 + 0x40 * i
def CRW_SUB_W3_VALUE : Fld := ⟨0, 64⟩
def CRW_SUB_W4 (i : Nat) : Nat := hubBase + 0x400000 + 0x1020 + 0x40 * i
def CRW_SUB_W4_VALUE : Fld := ⟨0, 64⟩
def CRW_SUB_W5 (i : Nat) : Nat := hubBase + 0x400000 + 0x1028 + 0x40 * i
def CRW_SUB_W5_VALUE : Fld := ⟨0, 64⟩
def CRW_SUB_W6 (i : Nat) : Nat := hubBase + 0x400000 + 0x1030 + 0x40 * i
def CRW_SUB_W6_VALUE : Fld := ⟨0, 64⟩
def CRW_SUB_W7 (i : Nat) : Nat := hubBase + 0x400000 + 0x1038 + 0x40 * i
def CRW_SUB_W7_VALUE : Fld := ⟨0, 64⟩
def CRW_SUB_STATUS (i : Nat) : Nat := hubBase + 0x400000 + 0x6000 + 0x8 * i
def CRW_SUB_STATUS_REJ : Fld := ⟨63, 1⟩
def CRW_SUB_STATUS_CODE : Fld := ⟨0, 8⟩

/-- The registers of the block, Table 13.11 (13 R344). -/
def crwRegs : List RegDesc := [
  ⟨0x0, 1, 0x8, 0x1, 0x1, 0x0, 0x0, 0x0, 0xFFFFFFFFFFFFFFFE⟩,
  ⟨0x8, 1, 0x8, 0x0, 0x0, 0x7, 0x0, 0x0, 0xFFFFFFFFE0007FF8⟩,
  ⟨0x10, 1, 0x8, 0x0, 0x0, 0x0, 0x0, 0x0, 0x0⟩,
  ⟨0x18, 1, 0x8, 0x0, 0x0, 0x100000000, 0x0, 0x0, 0xFFFFFFFE00000000⟩,
  ⟨0x20, 1, 0x8, 0x0, 0x0, 0x100000000, 0x0, 0x0, 0xFFFFFFFE00000000⟩,
  ⟨0x1000, 257, 0x40, 0x0, 0xFFFFFFFFFFFFFFFF, 0x0, 0x0, 0x0, 0x0⟩,
  ⟨0x1008, 257, 0x40, 0x0, 0xFFFFFFFFFFFFFFFF, 0x0, 0x0, 0x0, 0x0⟩,
  ⟨0x1010, 257, 0x40, 0x0, 0xFFFFFFFFFFFFFFFF, 0x0, 0x0, 0x0, 0x0⟩,
  ⟨0x1018, 257, 0x40, 0x0, 0xFFFFFFFFFFFFFFFF, 0x0, 0x0, 0x0, 0x0⟩,
  ⟨0x1020, 257, 0x40, 0x0, 0xFFFFFFFFFFFFFFFF, 0x0, 0x0, 0x0, 0x0⟩,
  ⟨0x1028, 257, 0x40, 0x0, 0xFFFFFFFFFFFFFFFF, 0x0, 0x0, 0x0, 0x0⟩,
  ⟨0x1030, 257, 0x40, 0x0, 0xFFFFFFFFFFFFFFFF, 0x0, 0x0, 0x0, 0x0⟩,
  ⟨0x1038, 257, 0x40, 0x0, 0xFFFFFFFFFFFFFFFF, 0x0, 0x0, 0x0, 0x0⟩,
  ⟨0x6000, 257, 0x8, 0x0, 0x0, 0x8000000000000000, 0x0, 0x0, 0x7FFFFFFFFFFFFF00⟩]

/-! ### Table 14.8 (14 R367) -/

def MIR_CTRL : Nat := hubBase + 0x500000 + 0x0
def MIR_CTRL_EN : Fld := ⟨0, 1⟩
def MIR_STATUS : Nat := hubBase + 0x500000 + 0x8
def MIR_STATUS_ACTIVE : Fld := ⟨15, 1⟩
def MIR_STATUS_GRAN_OVF : Fld := ⟨14, 1⟩
def MIR_STATUS_OVERSIZE : Fld := ⟨13, 1⟩
def MIR_STATUS_TAKEOVER : Fld := ⟨12, 1⟩
def MIR_STATUS_INCONSIST : Fld := ⟨11, 1⟩
def MIR_STATUS_PERM_ERR : Fld := ⟨6, 1⟩
def MIR_STATUS_VER_ERR : Fld := ⟨5, 1⟩
def MIR_STATUS_PSTATE : Fld := ⟨0, 4⟩
def MIR_CKPT : Nat := hubBase + 0x500000 + 0x10
def MIR_CKPT_SENT : Fld := ⟨32, 32⟩
def MIR_CKPT_RCVD : Fld := ⟨0, 32⟩
def MIR_HEARD : Nat := hubBase + 0x500000 + 0x18
def MIR_HEARD_PAIR : Fld := ⟨0, 32⟩
def MIR_JRNL : Nat := hubBase + 0x500000 + 0x20
def MIR_JRNL_TAIL : Fld := ⟨32, 32⟩
def MIR_JRNL_HEAD : Fld := ⟨0, 32⟩
def MIR_CNT_GRAN : Nat := hubBase + 0x500000 + 0x28
def MIR_CNT_GRAN_VALUE : Fld := ⟨0, 64⟩
def MIR_CNT_SKIP : Nat := hubBase + 0x500000 + 0x30
def MIR_CNT_SKIP_CLR : Fld := ⟨32, 1⟩
def MIR_CNT_SKIP_COUNT : Fld := ⟨0, 32⟩
def MIR_CNT_STALL : Nat := hubBase + 0x500000 + 0x38
def MIR_CNT_STALL_CLR : Fld := ⟨32, 1⟩
def MIR_CNT_STALL_COUNT : Fld := ⟨0, 32⟩
def MIR_CNT_DROP : Nat := hubBase + 0x500000 + 0x40
def MIR_CNT_DROP_CLR : Fld := ⟨32, 1⟩
def MIR_CNT_DROP_COUNT : Fld := ⟨0, 32⟩
def MIR_PCTRL (i : Nat) : Nat := hubBase + 0x500000 + 0x1000 + 0x100 * i
def MIR_PCTRL_MODE_MAX : Fld := ⟨1, 2⟩
def MIR_PCTRL_EN : Fld := ⟨0, 1⟩
def MIR_PSTATUS (i : Nat) : Nat := hubBase + 0x500000 + 0x1008 + 0x100 * i
def MIR_PSTATUS_ACTIVE : Fld := ⟨15, 1⟩
def MIR_PSTATUS_LINK_CHG : Fld := ⟨11, 1⟩
def MIR_PSTATUS_LANES : Fld := ⟨8, 3⟩
def MIR_PSTATUS_MODE : Fld := ⟨6, 2⟩
def MIR_PSTATUS_STATE : Fld := ⟨0, 3⟩
def MIR_PSTATUS_MISCABLED : Fld := ⟨5, 1⟩
def MIR_REG_W0 (i : Nat) : Nat := hubBase + 0x500000 + 0x4000 + 0x20 * i
def MIR_REG_W0_VER : Fld := ⟨60, 4⟩
def MIR_REG_W0_MODE : Fld := ⟨57, 3⟩
def MIR_REG_W0_BASE : Fld := ⟨0, 48⟩
def MIR_REG_W1 (i : Nat) : Nat := hubBase + 0x500000 + 0x4008 + 0x20 * i
def MIR_REG_W1_LEN : Fld := ⟨0, 38⟩
def MIR_REG_W2 (i : Nat) : Nat := hubBase + 0x500000 + 0x4010 + 0x20 * i
def MIR_REG_W2_TARGET : Fld := ⟨0, 48⟩
def MIR_REG_W3 (i : Nat) : Nat := hubBase + 0x500000 + 0x4018 + 0x20 * i
def MIR_REG_W3_CREW : Fld := ⟨54, 10⟩
def MIR_REG_W3_PEER : Fld := ⟨40, 14⟩
def MIR_REG_W3_CT : Fld := ⟨39, 1⟩

/-- The registers of the block, Table 14.8 (14 R367). -/
def mirRegs : List RegDesc := [
  ⟨0x0, 1, 0x8, 0x1, 0x1, 0x0, 0x0, 0x0, 0xFFFFFFFFFFFFFFFE⟩,
  ⟨0x8, 1, 0x8, 0x0, 0x0, 0x7860, 0x0, 0x0, 0xFFFFFFFFFFFF0790⟩,
  ⟨0x10, 1, 0x8, 0x0, 0x0, 0x0, 0x0, 0x0, 0x0⟩,
  ⟨0x18, 1, 0x8, 0x0, 0x0, 0x0, 0x0, 0x0, 0xFFFFFFFF00000000⟩,
  ⟨0x20, 1, 0x8, 0x0, 0xFFFFFFFF00000000, 0x0, 0x0, 0x0, 0x0⟩,
  ⟨0x28, 1, 0x8, 0x0, 0x0, 0x0, 0x0, 0x0, 0x0⟩,
  ⟨0x30, 1, 0x8, 0x0, 0x0, 0x100000000, 0x0, 0x0, 0xFFFFFFFE00000000⟩,
  ⟨0x38, 1, 0x8, 0x0, 0x0, 0x100000000, 0x0, 0x0, 0xFFFFFFFE00000000⟩,
  ⟨0x40, 1, 0x8, 0x0, 0x0, 0x100000000, 0x0, 0x0, 0xFFFFFFFE00000000⟩,
  ⟨0x1000, 2, 0x100, 0x0, 0x7, 0x0, 0x0, 0x0, 0xFFFFFFFFFFFFFFF8⟩,
  ⟨0x1008, 2, 0x100, 0x0, 0x0, 0x820, 0x0, 0x0, 0xFFFFFFFFFFFF7018⟩,
  ⟨0x4000, 256, 0x20, 0x0, 0x0, 0x0, 0x0, 0x0, 0x1FF000000000000⟩,
  ⟨0x4008, 256, 0x20, 0x0, 0x0, 0x0, 0x0, 0x0, 0xFFFFFFC000000000⟩,
  ⟨0x4010, 256, 0x20, 0x0, 0x0, 0x0, 0x0, 0x0, 0xFFFF000000000000⟩,
  ⟨0x4018, 256, 0x20, 0x0, 0x0, 0x0, 0x0, 0x0, 0x7FFFFFFFFF⟩]

/-! ### Table 15.7 (15 R382) -/

def RAS_STATUS (k : Nat) : Nat := rasBase k + 0x0
def RAS_STATUS_QCOUNT : Fld := ⟨8, 6⟩
def RAS_STATUS_FENCE : Fld := ⟨7, 1⟩
def RAS_STATUS_TAG2 : Fld := ⟨6, 1⟩
def RAS_STATUS_LOSTPG_FULL : Fld := ⟨5, 1⟩
def RAS_STATUS_THR_EVT : Fld := ⟨4, 1⟩
def RAS_STATUS_QOVF : Fld := ⟨3, 1⟩
def RAS_STATUS_PERM_ERR : Fld := ⟨1, 1⟩
def RAS_STATUS_VER_ERR : Fld := ⟨0, 1⟩
def RAS_Q_W0 (k : Nat) : Nat := rasBase k + 0x10
def RAS_Q_W0_VALUE : Fld := ⟨0, 64⟩
def RAS_Q_W1 (k : Nat) : Nat := rasBase k + 0x18
def RAS_Q_W1_VALUE : Fld := ⟨0, 64⟩
def RAS_Q_W2 (k : Nat) : Nat := rasBase k + 0x20
def RAS_Q_W2_VALUE : Fld := ⟨0, 64⟩
def RAS_Q_W3 (k : Nat) : Nat := rasBase k + 0x28
def RAS_Q_W3_VALUE : Fld := ⟨0, 64⟩
def RAS_Q_POP (k : Nat) : Nat := rasBase k + 0x30
def RAS_Q_POP_POP : Fld := ⟨0, 1⟩
def RAS_RMASK (k : Nat) : Nat := rasBase k + 0x40
def RAS_RMASK_TILES : Fld := ⟨0, 32⟩
def RAS_RNOTE_CNT (k : Nat) : Nat := rasBase k + 0x48
def RAS_RNOTE_CNT_COUNT : Fld := ⟨0, 32⟩
def RAS_INJECT (k : Nat) : Nat := rasBase k + 0x50
def RAS_INJECT_ARM : Fld := ⟨63, 1⟩
def RAS_INJECT_SOURCE : Fld := ⟨48, 8⟩
def RAS_INJECT_ADDR : Fld := ⟨0, 48⟩
def RAS_RNOTE_W0 (k : Nat) (i : Nat) : Nat := rasBase k + 0x100 + 0x10 * i
def RAS_RNOTE_W0_KIND : Fld := ⟨56, 8⟩
def RAS_RNOTE_W0_CAUSE : Fld := ⟨48, 8⟩
def RAS_RNOTE_W0_ADDR : Fld := ⟨0, 48⟩
def RAS_RNOTE_W1 (k : Nat) (i : Nat) : Nat := rasBase k + 0x108 + 0x10 * i
def RAS_RNOTE_W1_STROKE : Fld := ⟨32, 32⟩
def RAS_RNOTE_W1_IMAGE : Fld := ⟨31, 1⟩
def RAS_RNOTE_W1_UNIT : Fld := ⟨0, 16⟩
def RAS_LOSTPG (k : Nat) (i : Nat) : Nat := rasBase k + 0x200 + 0x8 * i
def RAS_LOSTPG_V : Fld := ⟨63, 1⟩
def RAS_LOSTPG_PAGE : Fld := ⟨16, 32⟩
def RAS_CNT (k : Nat) (i : Nat) : Nat := rasBase k + 0x1000 + 0x8 * i
def RAS_CNT_CLR : Fld := ⟨32, 1⟩
def RAS_CNT_COUNT : Fld := ⟨0, 32⟩
def RAS_THR (k : Nat) (i : Nat) : Nat := rasBase k + 0x1400 + 0x8 * i
def RAS_THR_THRESH : Fld := ⟨0, 32⟩

/-- The registers of the block, Table 15.7 (15 R382). -/
def rasRegs : List RegDesc := [
  ⟨0x0, 1, 0x8, 0x0, 0x0, 0x7B, 0x0, 0x0, 0xFFFFFFFFFFFFC004⟩,
  ⟨0x10, 1, 0x20, 0x0, 0x0, 0x0, 0x0, 0x0, 0x0⟩,
  ⟨0x18, 1, 0x20, 0x0, 0x0, 0x0, 0x0, 0x0, 0x0⟩,
  ⟨0x20, 1, 0x20, 0x0, 0x0, 0x0, 0x0, 0x0, 0x0⟩,
  ⟨0x28, 1, 0x20, 0x0, 0x0, 0x0, 0x0, 0x0, 0x0⟩,
  ⟨0x30, 1, 0x8, 0x0, 0x0, 0x0, 0x0, 0x1, 0xFFFFFFFFFFFFFFFE⟩,
  ⟨0x40, 1, 0x8, 0x0, 0xFFFFFFFF, 0x0, 0x0, 0x0, 0xFFFFFFFF00000000⟩,
  ⟨0x48, 1, 0x8, 0x0, 0x0, 0x0, 0x0, 0x0, 0xFFFFFFFF00000000⟩,
  ⟨0x50, 1, 0x8, 0x0, 0x80FFFFFFFFFFFFFF, 0x0, 0x0, 0x0, 0x7F00000000000000⟩,
  ⟨0x100, 8, 0x10, 0x0, 0x0, 0x0, 0x0, 0x0, 0x0⟩,
  ⟨0x108, 8, 0x10, 0x0, 0x0, 0x0, 0x0, 0x0, 0x7FFF0000⟩,
  ⟨0x200, 16, 0x8, 0x0, 0x0, 0x8000000000000000, 0x0, 0x0, 0x7FFF00000000FFFF⟩,
  ⟨0x1000, 64, 0x8, 0x0, 0x0, 0x100000000, 0x0, 0x0, 0xFFFFFFFE00000000⟩,
  ⟨0x1400, 64, 0x8, 0x0, 0xFFFFFFFF, 0x0, 0x0, 0x0, 0xFFFFFFFF00000000⟩]

/-! ### Table 16.8 (16 R410) -/

def PWR_CTRL : Nat := hubBase + 0x600000 + 0x0
def PWR_CTRL_CAP_EN : Fld := ⟨0, 1⟩
def PWR_STATUS : Nat := hubBase + 0x600000 + 0x8
def PWR_STATUS_ACTIVE : Fld := ⟨15, 1⟩
def PWR_STATUS_FLOOR : Fld := ⟨14, 1⟩
def PWR_STATUS_CLAMP : Fld := ⟨13, 1⟩
def PWR_STATUS_IN_LOW : Fld := ⟨12, 1⟩
def PWR_STATUS_STEP_REJ : Fld := ⟨11, 1⟩
def PWR_STATUS_THM_WARN : Fld := ⟨7, 1⟩
def PWR_STATUS_THM_THROT : Fld := ⟨6, 1⟩
def PWR_STATUS_FLOW_LOW : Fld := ⟨5, 1⟩
def PWR_STATUS_INLET_HIGH : Fld := ⟨4, 1⟩
def PWR_STATUS_ARG_ERR : Fld := ⟨2, 1⟩
def PWR_STATUS_PERM_ERR : Fld := ⟨1, 1⟩
def PWR_STATUS_VER_ERR : Fld := ⟨0, 1⟩
def PWR_MEAS : Nat := hubBase + 0x600000 + 0x10
def PWR_MEAS_VIN : Fld := ⟨48, 16⟩
def PWR_MEAS_IIN : Fld := ⟨32, 16⟩
def PWR_MEAS_PIN : Fld := ⟨16, 16⟩
def PWR_CAP : Nat := hubBase + 0x600000 + 0x18
def PWR_CAP_CAP_W : Fld := ⟨48, 16⟩
def PWR_CAP_FCAP : Fld := ⟨20, 12⟩
def PWR_CAP_SLOT : Fld := ⟨16, 4⟩
def PWR_TRIP : Nat := hubBase + 0x600000 + 0x20
def PWR_TRIP_V : Fld := ⟨63, 1⟩
def PWR_TRIP_KIND : Fld := ⟨48, 8⟩
def PWR_TRIP_WHICH : Fld := ⟨40, 8⟩
def PWR_TRIP_STROKE : Fld := ⟨0, 32⟩
def PWR_CNT_CLAMP : Nat := hubBase + 0x600000 + 0x28
def PWR_CNT_CLAMP_CLR : Fld := ⟨32, 1⟩
def PWR_CNT_CLAMP_COUNT : Fld := ⟨0, 32⟩
def PWR_SLOT (i : Nat) : Nat := hubBase + 0x600000 + 0x100 + 0x8 * i
def PWR_SLOT_V : Fld := ⟨63, 1⟩
def PWR_SLOT_CAP_W : Fld := ⟨32, 16⟩
def PWR_SLOT_FSTART : Fld := ⟨20, 12⟩
def THM_THR : Nat := hubBase + 0x600000 + 0x1000
def THM_THR_TRIP : Fld := ⟨16, 8⟩
def THM_THR_THROT : Fld := ⟨8, 8⟩
def THM_THR_WARN : Fld := ⟨0, 8⟩
def THM_DIE (i : Nat) : Nat := hubBase + 0x600000 + 0x1010 + 0x8 * i
def THM_DIE_TEMP : Fld := ⟨32, 8⟩
def THM_DIE_STATE : Fld := ⟨24, 2⟩
def THM_DIE_FTHM : Fld := ⟨12, 12⟩
def THM_COOL : Nat := hubBase + 0x600000 + 0x1060
def THM_COOL_INLET : Fld := ⟨40, 8⟩
def THM_COOL_OUTLET : Fld := ⟨32, 8⟩
def THM_COOL_FLOW : Fld := ⟨16, 16⟩

/-- The registers of the block, Table 16.8 (16 R410). -/
def pwrRegs : List RegDesc := [
  ⟨0x0, 1, 0x8, 0x1, 0x1, 0x0, 0x0, 0x0, 0xFFFFFFFFFFFFFFFE⟩,
  ⟨0x8, 1, 0x8, 0x0, 0x0, 0x68F7, 0x0, 0x0, 0xFFFFFFFFFFFF0708⟩,
  ⟨0x10, 1, 0x8, 0x0, 0x0, 0x0, 0x0, 0x0, 0xFFFF⟩,
  ⟨0x18, 1, 0x8, 0x1450000096000000, 0x0, 0x0, 0x0, 0x0, 0xFFFF0000FFFF⟩,
  ⟨0x20, 1, 0x8, 0x0, 0x0, 0x8000000000000000, 0x0, 0x0, 0x7F0000FF00000000⟩,
  ⟨0x28, 1, 0x8, 0x0, 0x0, 0x100000000, 0x0, 0x0, 0xFFFFFFFE00000000⟩,
  ⟨0x100, 16, 0x8, 0x0, 0x8000FFFFFFF00000, 0x0, 0x0, 0x0, 0x7FFF0000000FFFFF⟩,
  ⟨0x1000, 1, 0x8, 0x73695F, 0xFFFF, 0x0, 0x0, 0x0, 0xFFFFFFFFFF000000⟩,
  ⟨0x1010, 9, 0x8, 0x0, 0x0, 0x0, 0x0, 0x0, 0xFFFFFF00FC000FFF⟩,
  ⟨0x1060, 1, 0x8, 0x0, 0x0, 0x0, 0x0, 0x0, 0xFFFF00000000FFFF⟩]

/-! ### Table 16.9 (16 R410) -/

def TRM_CTRL (d : Nat) : Nat := dieBase d + 0x700000 + 0x0
def TRM_CTRL_PLACE_EN : Fld := ⟨0, 1⟩
def TRM_STATUS (d : Nat) : Nat := dieBase d + 0x700000 + 0x8
def TRM_STATUS_MOVING : Fld := ⟨32, 8⟩
def TRM_STATUS_MEDIAN : Fld := ⟨20, 12⟩
def TRM_STATUS_SPARES : Fld := ⟨16, 2⟩
def TRM_STATUS_ACTIVE : Fld := ⟨15, 1⟩
def TRM_STATUS_MV : Fld := ⟨14, 1⟩
def TRM_STATUS_NOSPARE : Fld := ⟨13, 1⟩
def TRM_STATUS_MOVED : Fld := ⟨12, 1⟩
def TRM_STATUS_ARG_ERR : Fld := ⟨2, 1⟩
def TRM_STATUS_PERM_ERR : Fld := ⟨1, 1⟩
def TRM_STATUS_VER_ERR : Fld := ⟨0, 1⟩
def TRM_TILE_W0 (d : Nat) (i : Nat) : Nat := dieBase d + 0x700000 + 0x1000 + 0x10 * i
def TRM_TILE_W0_FREQ : Fld := ⟨52, 12⟩
def TRM_TILE_W0_VOLT : Fld := ⟨32, 16⟩
def TRM_TILE_W0_ADD : Fld := ⟨24, 8⟩
def TRM_TILE_W0_SLOW_CNT : Fld := ⟨0, 16⟩
def TRM_TILE_W1 (d : Nat) (i : Nat) : Nat := dieBase d + 0x700000 + 0x1008 + 0x10 * i
def TRM_TILE_W1_LOGICAL : Fld := ⟨48, 8⟩
def TRM_TILE_W1_LV : Fld := ⟨47, 1⟩
def TRM_TILE_W1_ROLE : Fld := ⟨44, 3⟩
def TRM_TILE_W1_FMAXT : Fld := ⟨32, 12⟩
def TRM_TILE_W1_MARGIN : Fld := ⟨16, 16⟩
def PAT_MON_W0 (d : Nat) (i : Nat) : Nat := dieBase d + 0x700000 + 0x2000 + 0x10 * i
def PAT_MON_W0_RO_AGED : Fld := ⟨32, 32⟩
def PAT_MON_W0_RO_REF : Fld := ⟨0, 32⟩
def PAT_MON_W1 (d : Nat) (i : Nat) : Nat := dieBase d + 0x700000 + 0x2008 + 0x10 * i
def PAT_MON_W1_CP0 : Fld := ⟨48, 16⟩
def PAT_MON_W1_CP1 : Fld := ⟨32, 16⟩
def PAT_MON_W1_TEMP : Fld := ⟨24, 8⟩

/-- The registers of the block, Table 16.9 (16 R410). -/
def trmRegs : List RegDesc := [
  ⟨0x0, 1, 0x8, 0x1, 0x1, 0x0, 0x0, 0x0, 0xFFFFFFFFFFFFFFFE⟩,
  ⟨0x8, 1, 0x8, 0x0, 0x0, 0x3007, 0x0, 0x0, 0xFFFFFF00000C0FF8⟩,
  ⟨0x1000, 34, 0x10, 0x0, 0x0, 0x0, 0x0, 0x0, 0xF000000FF0000⟩,
  ⟨0x1008, 34, 0x10, 0x0, 0x0, 0x0, 0x0, 0x0, 0xFF0000000000FFFF⟩,
  ⟨0x2000, 34, 0x10, 0x0, 0x0, 0x0, 0x0, 0x0, 0x0⟩,
  ⟨0x2008, 34, 0x10, 0x0, 0x0, 0x0, 0x0, 0x0, 0xFFFFFF⟩]

/-! ### Table 17.8 (17 R427) -/

def SEC_STATUS : Nat := hubBase + 0x700000 + 0x0
def SEC_STATUS_BOOT_CAUSE : Fld := ⟨16, 8⟩
def SEC_STATUS_BOOT_SLOT : Fld := ⟨12, 2⟩
def SEC_STATUS_RECOV : Fld := ⟨11, 1⟩
def SEC_STATUS_STAGED : Fld := ⟨10, 1⟩
def SEC_STATUS_ADV_REJ : Fld := ⟨9, 1⟩
def SEC_STATUS_VER_ERR : Fld := ⟨8, 1⟩
def SEC_FUSE : Nat := hubBase + 0x700000 + 0x8
def SEC_FUSE_REVOKED : Fld := ⟨8, 4⟩
def SEC_FUSE_SVN : Fld := ⟨0, 7⟩
def SEC_DEBUG : Nat := hubBase + 0x700000 + 0x10
def SEC_DEBUG_NONCE_V : Fld := ⟨4, 1⟩
def SEC_DEBUG_MAXLVL : Fld := ⟨2, 2⟩
def SEC_DEBUG_LEVEL : Fld := ⟨0, 2⟩
def SEC_CTRL : Nat := hubBase + 0x700000 + 0x18
def SEC_CTRL_ADVANCE : Fld := ⟨0, 1⟩
def SEC_MEAS_W0 (i : Nat) : Nat := hubBase + 0x700000 + 0x100 + 0x40 * i
def SEC_MEAS_W0_VALUE : Fld := ⟨0, 64⟩
def SEC_MEAS_W1 (i : Nat) : Nat := hubBase + 0x700000 + 0x108 + 0x40 * i
def SEC_MEAS_W1_VALUE : Fld := ⟨0, 64⟩
def SEC_MEAS_W2 (i : Nat) : Nat := hubBase + 0x700000 + 0x110 + 0x40 * i
def SEC_MEAS_W2_VALUE : Fld := ⟨0, 64⟩
def SEC_MEAS_W3 (i : Nat) : Nat := hubBase + 0x700000 + 0x118 + 0x40 * i
def SEC_MEAS_W3_VALUE : Fld := ⟨0, 64⟩
def SEC_MEAS_W4 (i : Nat) : Nat := hubBase + 0x700000 + 0x120 + 0x40 * i
def SEC_MEAS_W4_VALUE : Fld := ⟨0, 64⟩
def SEC_MEAS_W5 (i : Nat) : Nat := hubBase + 0x700000 + 0x128 + 0x40 * i
def SEC_MEAS_W5_VALUE : Fld := ⟨0, 64⟩
def SEC_MEAS_W6 (i : Nat) : Nat := hubBase + 0x700000 + 0x130 + 0x40 * i
def SEC_MEAS_W6_VALUE : Fld := ⟨0, 64⟩
def SEC_MEAS_W7 (i : Nat) : Nat := hubBase + 0x700000 + 0x138 + 0x40 * i
def SEC_MEAS_W7_VALUE : Fld := ⟨0, 64⟩

/-- The registers of the block, Table 17.8 (17 R427). -/
def secRegs : List RegDesc := [
  ⟨0x0, 1, 0x8, 0x0, 0x0, 0x300, 0x0, 0x0, 0xFFFFFFFFFF00C0FF⟩,
  ⟨0x8, 1, 0x8, 0x0, 0x0, 0x0, 0x0, 0x0, 0xFFFFFFFFFFFFF080⟩,
  ⟨0x10, 1, 0x8, 0x0, 0x0, 0x0, 0x0, 0x0, 0xFFFFFFFFFFFFFFE0⟩,
  ⟨0x18, 1, 0x8, 0x0, 0x0, 0x0, 0x0, 0x1, 0xFFFFFFFFFFFFFFFE⟩,
  ⟨0x100, 6, 0x40, 0x0, 0x0, 0x0, 0x0, 0x0, 0x0⟩,
  ⟨0x108, 6, 0x40, 0x0, 0x0, 0x0, 0x0, 0x0, 0x0⟩,
  ⟨0x110, 6, 0x40, 0x0, 0x0, 0x0, 0x0, 0x0, 0x0⟩,
  ⟨0x118, 6, 0x40, 0x0, 0x0, 0x0, 0x0, 0x0, 0x0⟩,
  ⟨0x120, 6, 0x40, 0x0, 0x0, 0x0, 0x0, 0x0, 0x0⟩,
  ⟨0x128, 6, 0x40, 0x0, 0x0, 0x0, 0x0, 0x0, 0x0⟩,
  ⟨0x130, 6, 0x40, 0x0, 0x0, 0x0, 0x0, 0x0, 0x0⟩,
  ⟨0x138, 6, 0x40, 0x0, 0x0, 0x0, 0x0, 0x0, 0x0⟩]

/-! ### Table 20.4 (20 R469) -/

def DBG_STATUS : Nat := hubBase + 0xA00000 + 0x0
def DBG_STATUS_TAP_REJ : Fld := ⟨2, 1⟩
def DBG_STATUS_PERM_ERR : Fld := ⟨1, 1⟩
def DBG_STATUS_VER_ERR : Fld := ⟨0, 1⟩
def DBG_DIETEST : Nat := hubBase + 0xA00000 + 0x8
def DBG_DIETEST_START : Fld := ⟨63, 1⟩
def DBG_DIETEST_DONE : Fld := ⟨62, 1⟩
def DBG_DIETEST_DIES : Fld := ⟨48, 8⟩
def DBG_DIETEST_MEMFAIL : Fld := ⟨40, 8⟩
def DBG_DIETEST_LANEFAIL : Fld := ⟨32, 8⟩
def DBG_INSP_SEL : Nat := hubBase + 0xA00000 + 0x10
def DBG_INSP_SEL_TILE : Fld := ⟨56, 8⟩
def DBG_INSP_SEL_SPACE : Fld := ⟨52, 4⟩
def DBG_INSP_SEL_RESULT : Fld := ⟨50, 2⟩
def DBG_INSP_SEL_INDEX : Fld := ⟨0, 24⟩
def DBG_INSP_DATA : Nat := hubBase + 0xA00000 + 0x18
def DBG_INSP_DATA_VALUE : Fld := ⟨0, 64⟩
def DBG_TRC_CTRL (i : Nat) : Nat := hubBase + 0xA00000 + 0x100 + 0x8 * i
def DBG_TRC_CTRL_EN : Fld := ⟨0, 32⟩

/-- The registers of the block, Table 20.4 (20 R469). -/
def dbgRegs : List RegDesc := [
  ⟨0x0, 1, 0x8, 0x0, 0x0, 0x7, 0x0, 0x0, 0xFFFFFFFFFFFFFFF8⟩,
  ⟨0x8, 1, 0x8, 0x0, 0xFF000000000000, 0x0, 0x0, 0x8000000000000000, 0x3F000000FFFFFFFF⟩,
  ⟨0x10, 1, 0x8, 0x0, 0xFFF0000000FFFFFF, 0x0, 0x0, 0x0, 0x3FFFFFF000000⟩,
  ⟨0x18, 1, 0x8, 0x0, 0x0, 0x0, 0x0, 0x0, 0x0⟩,
  ⟨0x100, 8, 0x8, 0x0, 0xFFFFFFFF, 0x0, 0x0, 0x0, 0xFFFFFFFF00000000⟩]

end Sys2Proof.Machine
end

