-- ==== Sys2Proof/Machine/State.lean ====
section
/-!
DEFINITION. The state of the Harug 8 as plain data: what each chapter of the spec names, the queue of waiting
commands, and the state right after reset.
-/
namespace Sys2Proof.Machine

-- log 6: DESIGN CHOICE, safe.
/-- Reasons for which the block stops with a fault. No command of the table does: the spec names an outcome for
each of them. Kept for an instruction word or command the model must never meet. -/
inductive Fault where
  /-- Raised by nobody: the spec gives every command of the table an effect (safe). -/
  | none
  deriving DecidableEq, Repr

/-- Reasons for which a command has no meaning in the model. -/
inductive Refusal where
  /-- The dispatch of a command that has no meaning yet (safe: nothing is claimed of it). -/
  | notModelled (mnemonic : String)
  deriving DecidableEq, Repr

/-- A table of the blocks whose enable follows R11. -/
inductive Drainer where
  | events
  | watch (d : Nat)
  | mover (t : Nat)
  | inbox (t : Nat)
  | store (d : Nat)
  | memory (m : Nat)
  | streamer (d : Nat)
  | context (d c : Nat)
  | rigger (k p : Nat)
  | fabric (p : Nat)
  | pairPort (p : Nat)
  | crews
  | mirror
  | cap
  | placement (d : Nat)
  deriving DecidableEq, Repr

/-- A drain in progress (R11): the catches since the enable was cleared and whether a write of 1 is held. -/
structure Drain where
  who : Drainer
  catches : Nat
  held : Bool
  deriving DecidableEq, Repr

/-- An event for the sessions (Table 11.11). -/
structure Ev where
  kind : Nat
  status : Nat
  state : Nat
  object : Nat
  deriving DecidableEq, Repr

/-- An interrupt to the Cox: the register that raised it, the bit (R53) or the sequence of a MIR event
(R357, R364), and the event it makes for the sessions. -/
structure CoxIrq where
  reg : Nat
  bit : Nat
  ev : Option Ev
  deriving DecidableEq, Repr

-- log 8: DEDUCED, safe.
/-- A dispatched catch event that its target has not yet accepted (R45, R50). -/
structure EventMsg where
  entry : Nat
  kind : Nat
  target : Nat
  arg : Nat
  /-- the stroke of its firing -/
  fired : Word
  deriving DecidableEq, Repr

-- log 126: DEDUCED, unsafe.
/-- What the stroke block keeps beside its registers (chapter 02). -/
structure Stroke where
  /-- consecutive edges or Syncs within one phase unit (R32) -/
  qual : Nat
  /-- the slew of the running acquisition has finished (R32) -/
  slewed : Bool
  /-- consecutive windows that closed empty (R33) -/
  missRun : Nat
  /-- the source has been locked since it was last selected (R33) -/
  lockedOnce : Bool
  /-- the one step of the first acquisition has been taken (R31) -/
  stepped : Bool
  /-- the catch to which the latest accepted edge was matched, or whose window has closed empty (R472, R33) -/
  edgeCatch : Option Word
  /-- the number the next catch takes under R472, the load being still pending (R28) -/
  loadNext : Option Word
  /-- the period of the running stroke in nanoseconds (R38) -/
  period : Nat
  /-- domain, transport and addresses of the 1588 slave, as STROKE_CFG set them (R29) -/
  ptp : List Nat
  /-- identity of the 1588 grandmaster last heard (R33) -/
  grandmaster : Option Nat
  /-- entries armed since the latest catch (R47) -/
  armedNow : List Nat
  /-- dispatched events on their way to a compute die (R50) -/
  inFlight : List EventMsg
  /-- the width in nanoseconds of the latest pulse on STRK_OUT_P/N (R39) -/
  outPulse : Option Nat
  /-- management ticks (R40) -/
  ticks : Nat
  deriving DecidableEq, Repr

def Stroke.init : Stroke :=
  { qual := 0, slewed := false, missRun := 0, lockedOnce := false, stepped := false, edgeCatch := none, loadNext := none, period := 20000,
    ptp := [], grandmaster := none, armedNow := [], inFlight := [], outPulse := none, ticks := 0 }

/-- What the scalar core of a tile is doing. -/
inductive TileMode where
  /-- the start state: after reset or TILE_RESET, until TILE_START -/
  | idle
  | running
  /-- waiting in wfi (R85) -/
  | wfi
  /-- waiting for a bread result into rd (R192) -/
  | bread (rd : Nat)
  /-- waiting for a control-space load: destination, f register, width in bytes, sign extension (R478) -/
  | ctlLoad (rd : Nat) (fp : Bool) (width : Nat) (signed : Bool)
  /-- waiting in precise mode for the matrix operation at the pc to complete (R83, R137) -/
  | matrix
  /-- halted and frozen (R80, R371, R466) -/
  | frozen
  deriving DecidableEq, Repr

/-- A register whose stored parity is bad (R371). -/
inductive ParReg where
  | s (n : Nat)
  | f (n : Nat)
  | v (n : Nat)
  | p (n : Nat)
  | csr (n : Nat)
  | acc (bank : Nat)
  deriving DecidableEq, Repr

/-- A message in an inbox (`who` is the sender) or an outbound queue (`who` is the target): R184, R186. -/
structure Msg where
  who : Nat
  tag : Nat
  payload : List Word
  deriving DecidableEq, Repr

/-- A posted data-mover descriptor: its eight doublewords (Table 7.2), its ticket, and the level that posted it. -/
structure DmEntry where
  words : List Word
  ticket : Nat
  user : Bool
  /-- device address of the completion record, 0 for none, as checked at the post (R175) -/
  crec : Nat
  deriving DecidableEq, Repr

/-- An active slot of the data mover: the descriptor, whether it waits at its gate (R176), the next unit, and, for a
REDUCE_PUT member, whether its source is read, the level it has reached, its running partial and flags (R180, R181), how
it has failed (status, cause, subcode, address) and whether its partial has been accepted. -/
structure DmSlot where
  entry : DmEntry
  gated : Bool
  next : Nat
  started : Bool
  level : Nat
  part : Nat
  flags : Nat
  fail : Option (Nat × Nat × Nat × Nat)
  sent : Bool
  /-- the first unit that wrote through the outbound window and the last address written there (R310) -/
  host : Option (Nat × Nat)
  /-- read requests to the host that the present unit, or the last read of R310, has sent and has answered, and the bytes
  they brought -/
  asked : Nat
  answered : Nat
  brought : Nat
  /-- status, cause, SUB, INDEX and address with which it ends once the last read of R310 has completed -/
  ending : Option (Nat × Nat × Nat × Nat × Nat)
  deriving DecidableEq, Repr

/-- What an operation of the K-stream unit is (R132). -/
inductive KKind where
  | stream | mzero | mload | madd
  deriving DecidableEq, Repr

/-- An operation of the K-stream unit with the operands it latched at hand-off (R121, R124, R144). -/
structure KOp where
  kind : KKind
  /-- 0 acc0, 1 acc1, 2 acc -/
  bank : Nat
  /-- order of hand-off among both units (R132) -/
  seq : Nat
  pc : Nat
  /-- user-level pages checked at hand-off: virtual and device page (R123); empty at supervisor level -/
  pages : List (Nat × Nat)
  a : Nat
  b : Nat
  k : Nat
  kbase : Nat
  afmt : Nat
  bfmt : Nat
  psa : Bool
  psb : Bool
  ring : Nat
  rdy : Nat
  free : Nat
  zero : Bool
  sr : Bool
  seed : Word
  started : Bool
  /-- K indices completed -/
  done : Nat
  /-- K indices whose contributions are in the bank (R127 adds a panel whole) -/
  added : Nat
  /-- ring panels whose ready count has been taken (R125) -/
  taken : Nat
  held : Bool
  /-- flags raised so far, for the trap of precise mode (R83) -/
  flags : Nat
  deriving DecidableEq, Repr

/-- A drain with what it latched at hand-off (R140). -/
structure DOp where
  bank : Nat
  seq : Nat
  pc : Nat
  pages : List (Nat × Nat)
  words : List Word
  dst : Nat
  par : Word
  panel : Bool
  arg : Nat
  recs : Nat
  base : Word
  deriving DecidableEq, Repr

/-- Whether the K-stream unit runs, is asked to pause at its next boundary, or is paused, with the frame of the trap
that asked (R135). -/
inductive KPause where
  | none
  | asked (frame : Nat)
  | paused (frame : Nat)
  deriving DecidableEq, Repr

/-- A logical tile: scalar, vector and matrix state (chapters 03 to 05, 07). -/
structure Tile where
  mode : TileMode
  pc : BitVec 48
  /-- bits [63:48] of the address that a jalr left to be fetched next (R68) -/
  pcHigh : BitVec 16
  s : SMap Word
  f : SMap Word
  /-- the CSRs by number (Table 3.7) -/
  csr : SMap Word
  /-- latched pending interrupts, bit c for code c (Table 3.15) -/
  latched : Word
  v : SMap (BitVec 16384)
  p : SMap (BitVec 16384)
  parBad : List ParReg
  /-- trace buffer, newest first (R465) -/
  trace : List Word
  traceStopped : Bool
  /-- occupied inbox slots, oldest first (R186) -/
  inbox : List Msg
  /-- the outbound queue, head first (R185) -/
  outbox : List Msg
  /-- the head of the outbound queue has been refused and is offered again later (R185) -/
  refused : Bool
  /-- waits handed off and not yet complete (R191) -/
  waits : Nat
  dmQueue : List DmEntry
  dmSlots : List DmSlot
  /-- flags each unit has raised that stand in fflags: 5 bits each for scalar, vector, matrix, chain (R82) -/
  raised : Nat
  /-- accumulator elements: bank × 16,384 + row × 128 + column (R118) -/
  acc : SMap Word
  kUnit : List KOp
  dUnit : List DOp
  opSeq : Nat
  kPause : KPause
  /-- deferred error: cause and panel address (R134) -/
  kErr : Option (Nat × Nat)
  vecGated : Bool
  matGated : Bool
  deriving DecidableEq, Repr

-- log 5: DESIGN CHOICE, unsafe.
/-- The start state of a tile: every register at its reset value (CSR values by `csrReset`). -/
def Tile.start : Tile :=
  { mode := .idle, pc := 0, pcHigh := 0, s := [], f := [], csr := [], latched := 0, v := [], p := [], parBad := [], trace := [],
    traceStopped := false, inbox := [], outbox := [], refused := false, waits := 0, dmQueue := [], dmSlots := [], raised := 0, acc := [],
    kUnit := [], dUnit := [], opSeq := 0, kPause := .none, kErr := none, vecGated := false, matGated := false }


/-- A line of an LLS slice (Table 8.1): its state, address, data, and what is wrong with its parity
(0 good, 1 data, 2 one tag copy, 3 both tag copies). -/
structure Line where
  valid : Bool
  dirty : Bool
  addr : Nat
  data : BitVec 1024
  bad : Nat
  deriving DecidableEq, Repr

-- log 23: DESIGN CHOICE, unsafe.
def Line.invalid : Line := { valid := false, dirty := false, addr := 0, data := 0, bad := 0 }

/-- A Burnisher command as submitted (R208, Table 8.2). -/
structure BurnCmd where
  slot : Nat
  op : Nat
  addr : Nat
  len : Nat
  way : Nat
  cb : Option Nat
  deriving DecidableEq, Repr

/-- The Burnisher of a slice: the command that runs, the commands that wait, in order, the lines the running command
has processed and whether it lost one (R209, R213). -/
structure Burnisher where
  running : Option BurnCmd
  queue : List BurnCmd
  lines : Nat
  lost : Bool
  deriving DecidableEq, Repr

def Burnisher.idle : Burnisher := { running := none, queue := [], lines := 0, lost := false }

/-- What a memory controller knows of a row: strokes of the latest corrected accesses, whether it has been repaired, and
whether the repair is hard (R228, R229). -/
structure RowInfo where
  corrected : List Word
  repaired : Bool
  hard : Bool
  deriving DecidableEq, Repr

def RowInfo.fresh : RowInfo := { corrected := [], repaired := false, hard := false }

/-- A record of a RAS_ queue (Table 15.6 with SEQ zero). -/
structure RasRec where
  stroke : Nat
  tick : Nat
  source : Nat
  sev : Nat
  die : Nat
  unit : Nat
  detail : Nat
  count : Nat
  addr : Nat
  deriving DecidableEq, Repr

/-- A retire-list entry (Table 15.3). -/
structure RetireRec where
  kind : Nat
  cause : Nat
  addr : Nat
  stroke : Nat
  image : Bool
  unit : Nat
  deriving DecidableEq, Repr

/-- A record in the RAS area of the boot flash (R377): a retirement or way disable, a row whose hard repair is pending (by
its key in Store.rows), a logical tile with the physical tile it has moved to, a physical tile set aside with its ROLE. -/
inductive FlashRec where
  | retired (r : RetireRec)
  | repair (row : Nat)
  | tile (t p : Nat)
  | aside (p role : Nat)
  deriving DecidableEq, Repr

/-- Requester classes of an LLS access (LLS_ALLOC). -/
inductive Cls where
  | scalar | dm | cxs | host | mirror | crew
  deriving DecidableEq, Repr

-- log 8: DEDUCED, safe.
/-- A scalar store that has retired and has not yet taken effect (R193, R478). -/
structure OutStore where
  tile : Nat
  addr : Nat
  width : Nat
  value : Nat
  ctl : Bool
  deriving DecidableEq, Repr

-- log 61: DEDUCED, unsafe.
/-- A write that its home LLS has accepted and that waits there: its requester (a number within its class) holds it and
offers it again. `stall`: it waits for a shadow slot (R355), else for the partner's copy (R373). -/
structure HeldWrite where
  cls : Cls
  who : Nat
  addr : Nat
  len : Nat
  stall : Bool
  deriving DecidableEq, Repr

/-- A mirrored granule that waits for the partner's copy, the stroke of the request, and whether it has been sent or still
waits for a COMMIT (R373). -/
structure Restore where
  granule : Nat
  stroke : Word
  asked : Bool
  deriving DecidableEq, Repr

/-- What a memory controller keeps of its memory beside its registers: consecutive samples below WARN − 3 °C and below
THROT − 3 °C (Table 9.4), the state it takes at the next catch, the end of the open window and whether it retrains
(R223), the tick of the latest retrain window (R224), training failures in a row, whether it has trained since the reset
(R222, R471), the stroke at which it went OFFLINE and whether it is retired. -/
structure MemInfo where
  coolWarn : Nat
  coolThrot : Nat
  leaving : Bool
  window : Option (Word × Bool)
  lastRetrain : Nat
  fails : Nat
  trained : Bool
  offlineAt : Option Word
  retired : Bool
  deriving DecidableEq, Repr

def MemInfo.init : MemInfo :=
  { coolWarn := 0, coolThrot := 0, leaving := false, window := none, lastRetrain := 0, fails := 0, trained := false,
    offlineAt := none, retired := false }

/-- A command of a context streamer (Table 9.7), with the stroke numbers of R242, whether it runs (R247), how many of its
pages are done, and whether it waits for a frame (R248). -/
structure CxsCmd where
  slot : Nat
  op : Nat
  ctx : Nat
  first : Nat
  count : Nat
  start : Word
  due : Word
  sfmt : Nat
  dst : Nat
  cb : Option Nat
  crec : Nat
  running : Bool
  done : Nat
  waits : Bool
  /-- the STATUS with which it ends once its record can be written -/
  ending : Option Nat
  deriving DecidableEq, Repr

/-- What memory, the LLS slices and the storage code hold (chapters 08, 09, 15). -/
structure Store where
  /-- lines by (die × 65,536 + set) × 16 + way -/
  lines : SMap Line
  /-- replacement trees by die × 65,536 + set (R200) -/
  trees : SMap (BitVec 15)
  burn : SMap Burnisher
  /-- strokes of the latest parity events by die × 16 + way (R217) -/
  parHist : SMap (List Word)
  /-- the symbols in error of stored codewords, by address / 64, as (position, difference) pairs (R225) -/
  codewords : SMap (List (Nat × Nat))
  /-- next codeword address of the initial sweep, by memory (R471) -/
  sweepPos : SMap Nat
  rows : SMap RowInfo
  /-- spare rows used, by memory × 4,096 + bank -/
  sparesUsed : SMap Nat
  memInfo : SMap MemInfo
  /-- commands of the context streamers queued or running, in order of submission, by die (R243) -/
  cxs : SMap (List CxsCmd)
  /-- frames, by die, whose place in the pool's ring cannot be written yet (R241, R355) -/
  poolAdds : List (Nat × Nat)
  /-- bytes of tile stores and scratch ways with bad parity (R370) -/
  badBytes : SMap Bool
  /-- addresses whose next write carries data that stays bad after the resends of R368 (R369) -/
  badData : List Nat
  outStores : List OutStore
  held : List HeldWrite
  restores : List Restore
  deriving DecidableEq, Repr

-- log 23: DESIGN CHOICE, unsafe.
def Store.init : Store :=
  { lines := [], trees := [], burn := [], parHist := [], codewords := [], sweepPos := [], rows := [], sparesUsed := [], memInfo := [], cxs := [], poolAdds := [],
    badBytes := [], badData := [], outStores := [], held := [], restores := [] }

/-- Whom a buckle wait serves. -/
inductive WaitWho where
  | tile (t : Nat) (irq : Bool)
  | gate (t ticket : Nat)
  | ring (t : Nat)
  | launch (ring : Nat)
  deriving DecidableEq, Repr

structure Waiter where
  who : WaitWho
  n : Nat
  deriving DecidableEq, Repr

/-- A buckle at its home: count and waiters, first come first served (R188). -/
structure Buckle where
  count : Nat
  waiters : List Waiter
  deriving DecidableEq, Repr

def Buckle.zero : Buckle := { count := 0, waiters := [] }

/-- What a buckle operation asks of the home (Table 7.8). -/
inductive BkKind where
  | add (n : Nat)
  | put (n : Nat)
  | wait (n : Nat) (irq : Bool)
  | read
  /-- a take of the tile's matrix array or data mover that an earlier operation to the same home precedes (R193) -/
  | take (n : Nat) (who : WaitWho)
  deriving DecidableEq, Repr

-- log 8: DEDUCED, safe.
/-- A buckle operation of a tile on its way to the home (R192, R193). -/
structure BkOp where
  tile : Nat
  buckle : Nat
  kind : BkKind
  deriving DecidableEq, Repr

/-- A buckle operation of a unit, not of a tile's program, that reached a home whose tile is being moved (R196). -/
structure Parked where
  buckle : Nat
  n : Nat
  /-- whom a take serves; an add serves nobody -/
  who : Option WaitWho
  deriving DecidableEq, Repr

-- log 54: DEDUCED, safe.
/-- A REDUCE_PUT child partial, or failure mark, in a staging slot: the parent's tile, the staging area and level, the
sender's FMT, RED, SIZE, DST and AUX, and the flags so far; its data stand in the slot's bytes (R180, R181). -/
structure Partial where
  tile : Nat
  stage : Nat
  level : Nat
  key : List Nat
  failed : Bool
  flags : Nat
  deriving DecidableEq, Repr

/-- A control-space load of a tile on its way (R478): answered once its block has been read. -/
structure CtlRead where
  tile : Nat
  addr : Nat
  width : Nat
  reply : Option Nat
  deriving DecidableEq, Repr

/-- Buckles and what is on its way between tiles and homes (chapter 07). -/
structure Links where
  buckles : SMap Buckle
  ops : List BkOp
  /-- operations of other units held while their home is moved, oldest first (R196) -/
  parked : List Parked
  /-- satisfied waits on their way to their waiters -/
  done : List WaitWho
  /-- the dies that the entries of `done` come from, in the order of the waits of one waiter -/
  homes : List (WaitWho × Nat)
  /-- results of bread on their way: tile and count -/
  reads : List (Nat × Nat)
  /-- the die of the home of each tile's latest bread -/
  readHome : SMap Nat
  partials : List Partial
  ctlReads : List CtlRead
  /-- interrupts of compute-die blocks on their way to the Cox (R268) -/
  notes : List CoxIrq
  deriving DecidableEq, Repr

def Links.init : Links := { buckles := [], ops := [], parked := [], done := [], homes := [], reads := [], readHome := [], partials := [], ctlReads := [], notes := [] }

-- log 163: DEDUCED, safe.
/-- A rigger port (R256 to R263). -/
structure Port where
  /-- the SEQ it expects, and the SEQ it sends next -/
  expect : Nat
  nextSeq : Nat
  /-- its replay buffer, oldest flit first, and how many of the newest have still to be sent again -/
  unacked : List (BitVec 2048)
  replay : Nat
  /-- rejections of the expected SEQ in a row; the stroke and number of the rejections of one stroke -/
  rejRun : Nat
  rejStroke : Word
  rejCount : Nat
  /-- chunks of credit it holds, and those it has to return, by class -/
  credits : List Nat
  owed : List Nat
  /-- messages not yet whole on the way out and in: class and data chunks left, the latest head first -/
  sending : List (Nat × Nat)
  taking : List (Nat × Nat)
  /-- of its latest body chunks, latest first, which were MGMT or SYNC; the VC of its latest REQ or RSP head -/
  recent : List Bool
  lastVc : Nat
  /-- flits sent since its last ACK; a NAK is to be sent; it waits for the replayed flit -/
  sinceAck : Nat
  nak : Bool
  waits : Bool
  /-- recoveries that failed in a row, the modules with a weak lane, the failing spare lanes of each module -/
  fails : Nat
  weak : List Nat
  deadSpares : List Nat
  deriving DecidableEq, Repr

/-- The buffers of Table 10.5 by credit class. -/
def portBuffers : List Nat := [1024, 1024, 2048, 2048, 256, 256, 64, 64]

def Port.init : Port :=
  { expect := 0, nextSeq := 0, unacked := [], replay := 0, rejRun := 0, rejStroke := 0, rejCount := 0, credits := portBuffers
    owed := List.replicate 8 0, sending := [], taking := [], recent := [], lastVc := 0, sinceAck := 0, nak := false, waits := false
    fails := 0, weak := [], deadSpares := [] }

/-- A response on its way to its requester: home, requester's die, unit and tag, the ARG of an ERR, the data of an
RDATA (Table 10.6), and the class of the request. -/
structure Rsp where
  src : Nat
  dst : Nat
  unit : Nat
  tag : Nat
  err : Option Nat
  data : Option (BitVec 1024)
  cls : Cls
  deriving DecidableEq, Repr

-- log 22: DEDUCED, unsafe.
/-- Messages on their way that had been sent over a link when its port was disabled (R262, R267). -/
structure OnWay where
  link : Nat
  stores : List OutStore
  ops : List BkOp
  events : List EventMsg
  ctls : List CtlRead
  notes : List CoxIrq
  rsps : List Rsp
  deriving DecidableEq, Repr

/-- The rigger ports, by die × 8 + port with the hub as die 8; responses on their way; the messages of links that drain. -/
structure Vekin where
  ports : SMap Port
  rsp : List Rsp
  old : List OnWay
  deriving DecidableEq, Repr

/-- What the module sends out of itself: posted writes to host memory, MSI-X messages, and frames and packets by code and fields. -/
inductive Sent where
  | hostWrite (addr len value : Nat)
  | hostRead (addr len : Nat)
  | msix (vector : Nat) (addr data : Nat)
  | pair (code : Nat) (fields : List Nat)
  | fabric (port code : Nat) (fields : List Nat)
  | management (code : Nat) (fields : List Nat)
  deriving DecidableEq, Repr

/-- Counts of a vchain or drain slice on their way to the numerics watch (R167): one code per element, 0 none, 1 ZERO,
2 SAT, 3 NONFIN. The streamer of die d stands as tile 256 + d. -/
structure WatchItem where
  tile : Nat
  tag : Nat
  marks : List Nat
  deriving DecidableEq, Repr

/-- What the RAS units and the Cox keep of errors (chapter 15). -/
structure Ras where
  queues : SMap (List RasRec)
  /-- the error log with its sequence numbers, oldest first (R381) -/
  log : List (Nat × RasRec)
  nextSeq : Nat
  retired : List RetireRec
  /-- retirements in effect that the full list does not hold (R378) -/
  unlisted : List RetireRec
  /-- records in the boot flash: severe log records and the RAS area (R377, R381) -/
  flashLog : List (Nat × RasRec)
  flashRecs : List FlashRec
  /-- physical tiles marked for substitution (R376) -/
  marked : List Nat
  /-- 128-byte units of bad stored bytes seen, by physical tile: unit and stroke (R376) -/
  badUnits : List (Nat × Nat × Word)
  deriving DecidableEq, Repr

def Ras.init : Ras :=
  { queues := [], log := [], nextSeq := 0, retired := [], unlisted := [], flashLog := [], flashRecs := [], marked := [], badUnits := [] }

/-! ### The Cox and the host (chapters 11 and 12) -/

/-- Who sent a Cox command (Table 11.1): a mailbox, an MCTP endpoint with its tag, a peer context with its sequence. -/
inductive Origin where
  | bar0 (m : Nat)
  | mctp (ep tag : Nat)
  | ect (ctx : Nat)
  deriving DecidableEq, Repr

/-- The party of an origin: 0 BAR0, 1 MCTP, 2 ECT. -/
def Origin.party : Origin → Nat
  | .bar0 _ => 0
  | .mctp _ _ => 1
  | .ect _ => 2

/-- A mailbox: its state (Table 11.5), the tick of its claim, and whether it becomes FREE at completion (R274). -/
structure Mailbox where
  state : Nat
  tick : Nat
  freeAtEnd : Bool
  deriving DecidableEq, Repr

def Mailbox.free : Mailbox := { state := 0, tick := 0, freeAtEnd := false }

structure EvRec where
  ev : Ev
  tick : Nat
  stroke : Nat
  deriving DecidableEq, Repr

/-- An open session (R279 to R288). -/
structure Session where
  num : Nat
  party : Nat
  client : Word
  role : Nat
  minor : Nat
  mask : Nat
  irq : Bool
  vec : Nat
  queue : List EvRec
  lost : Nat
  lastTick : Nat
  deriving DecidableEq, Repr

-- log 27: DEDUCED, unsafe.
/-- A command that waits for the Cox: its header (Table 11.3), whether bytes 0x10 to 0x3F are not all zero, the tick of
its doorbell, its payload, and its session where that closed while the command waited (R282). -/
structure CoxReq where
  origin : Origin
  h0 : Word
  h1 : Word
  rest : Bool
  tick : Nat
  words : List Word
  kept : Option Session := none
  deriving DecidableEq, Repr

-- log 145: DEDUCED, safe.
/-- A long operation (R286, R287): state 0 QUEUED, 1 RUNNING, 2 SUSPENDED, 3 DONE, 4 CANCELLED, 5 FAILED. -/
structure Lop where
  handle : Nat
  cmd : Nat
  state : Nat
  status : Nat
  progress : Nat
  total : Nat
  startTick : Nat
  endTick : Nat
  cause : Nat
  session : Nat
  party : Nat
  client : Word
  detach : Bool
  suspend : Bool
  cancel : Bool
  args : List Nat
  result : List Word
  deriving DecidableEq, Repr

/-- A launch ring (R290 to R294): state 0 IDLE, 1 RUN, 2 WAIT, 3 ERR. `next` counts the target tiles of the entry at HEAD
that have received it, `asked` and `granted` tell whether the free count of the next one has been asked for and taken. -/
structure Ring where
  party : Nat
  client : Word
  log2n : Nat
  free : Nat
  rdy : Nat
  nirq : Bool
  vec : Nat
  land : Nat
  base : Nat
  tail : Nat
  head : Nat
  state : Nat
  err : Nat
  notify : Nat
  next : Nat
  asked : Bool
  granted : Bool
  counts : SMap Nat
  deriving DecidableEq, Repr

/-- Who owns an object (R283): kind 1 window, 2 catch event, 3 crew, 4 region; rings and operations say so themselves. -/
structure Owner where
  kind : Nat
  index : Nat
  party : Nat
  client : Word
  deriving DecidableEq, Repr

/-- A record of the Cox log (Table 20.3) with the client it belongs to. Its TEXT is `Config.logText`. -/
structure CoxLog where
  seq : Nat
  tick : Nat
  stroke : Nat
  kind : Nat
  status : Nat
  session : Nat
  cmd : Nat
  arg : Nat
  party : Nat
  client : Word
  deriving DecidableEq, Repr

/-- What the Cox and the mailbox hardware hold. -/
structure Cox where
  mailboxes : SMap Mailbox
  /-- bytes of the mailboxes, by mailbox × 8,192 + offset -/
  mail : SMap Byte
  queue : List CoxReq
  sessions : List Session
  /-- numbers of closed sessions and the tick of closing (R281) -/
  closed : List (Nat × Nat)
  lops : List Lop
  nextHandle : Nat
  rings : List (Nat × Ring)
  owners : List Owner
  /-- the Cox log, oldest first, and the SEQ of its next record (R468) -/
  log : List CoxLog
  logSeq : Nat
  /-- a host-function reset came during a restart: its mailbox effects are owed (R430) -/
  resetOwed : Bool
  /-- a restart in progress: whether an activation made it, and the tick at which it began (R285, R423) -/
  restart : Option (Bool × Nat)
  /-- the tick of the latest start of a daily re-plan (R407) -/
  lastReplan : Nat
  deriving DecidableEq, Repr

def Cox.init : Cox :=
  { mailboxes := [], mail := [], queue := [], sessions := [], closed := [], lops := [], nextHandle := 1,
    rings := [], owners := [], log := [], logSeq := 0, resetOwed := false, restart := none, lastReplan := 0 }

/-- A completion the module returned for a host read: tag, 0 successful, 1 Unsupported Request, 2 Completer Abort, and
the bytes returned with their number. -/
structure HostCpl where
  tag : Nat
  status : Nat
  len : Nat
  value : Nat
  deriving DecidableEq, Repr

/-- A telemetry slot (Table 12.6). -/
structure Telem where
  seq : Nat
  stroke : Word
  tick : Nat
  records : List (Nat × Word)
  deriving DecidableEq, Repr

def Telem.empty : Telem := { seq := 0, stroke := 0, tick := 0, records := [] }

/-- A posted write of the host that is not performed yet: BAR, offset, bytes, value, and whether a failure of it has been
recorded (R305, R306). -/
structure HostWr where
  bar : Nat
  off : Nat
  len : Nat
  value : Nat
  failed : Bool
  deriving DecidableEq, Repr

/-- A read of the host that is not answered yet, and the posted writes still to be performed that came before it (R305). -/
structure HostRd where
  bar : Nat
  off : Nat
  len : Nat
  tag : Nat
  behind : Nat
  deriving DecidableEq, Repr

/-- The host-facing function: the MSI-X table (entry × 2 + doubleword, bit 32 of doubleword 1 masks), pending bits, the
log2 of the BAR2 size, AER uncorrectable status, BAR4 bytes, telemetry slots, completions returned, and whether PERST_N is
low. -/
structure HostSide where
  msix : SMap Word
  pend : List Nat
  msixOn : Bool
  /-- the MSI-X function mask -/
  fmask : Bool
  /-- power state D3hot (Table 12.1) -/
  d3 : Bool
  /-- posted writes and reads that wait -/
  posted : List HostWr
  reads : List HostRd
  bar2 : Nat
  aer : Nat
  /-- AER correctable error status -/
  aerc : Nat
  bar4 : SMap Byte
  telem : SMap Telem
  cpls : List HostCpl
  perst : Bool
  deriving DecidableEq, Repr

def HostSide.init : HostSide :=
  { msix := [], pend := [], msixOn := false, fmask := false, d3 := false, posted := [], reads := [], bar2 := 36, aer := 0, aerc := 0, bar4 := [], telem := [], cpls := [], perst := false }

/-! ### Fabric, crews and the pair (chapters 13 and 14) -/

/-- A packet kept until it is acknowledged: PSN, type, fields, the stroke of its latest sending and its retransmissions. -/
structure Pkt where
  psn : Nat
  typ : Nat
  body : List Nat
  sent : Word
  tries : Nat
  deriving DecidableEq, Repr

/-- A reliable sequence in both directions (R320 to R322, R347): the PSN expected, those accepted beyond it, the next PSN
sent, unacknowledged packets, those that wait because 512 are unacknowledged, and accepted packets not yet
acknowledged. -/
structure Link where
  expect : Nat
  got : List Nat
  next : Nat
  unacked : List Pkt
  wait : List (Nat × List Nat)
  owed : Nat
  deriving DecidableEq, Repr

def Link.init : Link := { expect := 0, got := [], next := 0, unacked := [], wait := [], owed := 0 }

/-- A peer context (R326): state 1 open, 2 LOST. The address and context number of the peer are those of the first packet
where they were not known at the opening. -/
structure PeerCtx where
  state : Nat
  addr : Option Nat
  udp : Nat
  rctx : Option Nat
  ports : Nat
  hb : Bool
  hbLoss : Nat
  rto : Nat
  retry : Nat
  link : Link
  ece : Bool
  heard : Nat
  /-- CTRL and MGMT packets accepted ahead of their turn (R320) -/
  early : List Pkt
  /-- SSTATE and AGED of the last packet, and its STROKE less the local stroke, modulo 2^32 (R331) -/
  sstate : Nat
  aged : Bool
  skew : Nat
  /-- the session that the peer's Cox has granted, whether HELLO has been sent, and member messages that wait for it -/
  sess : Nat
  hello : Bool
  mgmt : List (Nat × List Nat)
  /-- the tick of the latest request under that session -/
  sessTick : Nat
  /-- the crew whose leader opened it for a member yet to join (R326) -/
  forCrew : Option Nat
  /-- the stroke from which on no port of its mask has been UP (R322) -/
  down : Option Word
  /-- the rate r as a fraction of P, and whether an ECE has come in this stroke (R323) -/
  rate : Rat
  eces : Bool
  deriving DecidableEq, Repr

def PeerCtx.closed : PeerCtx :=
  { state := 0, addr := none, udp := 0, rctx := none, ports := 0, hb := false, hbLoss := 0, rto := 0, retry := 0, link := Link.init
    ece := false, heard := 0, early := [], sstate := 0, aged := false, skew := 0, sess := 0, hello := false, mgmt := []
    sessTick := 0, forCrew := none, down := none, rate := 1, eces := false }

/-- A member of a crew: number, its own local crew number, the context to it (none for this module), its address and UDP
port, its receive length, readiness, withdrawal. -/
structure Member where
  num : Nat
  crew : Nat
  ctx : Option Nat
  addr : Nat
  udp : Nat
  recvLen : Nat
  ready : Bool
  withdrawn : Bool
  deriving DecidableEq, Repr

/-- A pace advisory (R339, R340). -/
structure Pace where
  apply : Word
  stretch : Nat
  deriving DecidableEq, Repr

/-- A crew (R328 to R342): state 0 free, 1 forming, 2 active, 3 withdrawn. `p` holds bytes 0x00 to 0x4F of Table 13.4. -/
structure Crew where
  state : Nat
  p : List Word
  level : Nat
  rules : Nat
  members : List Member
  /-- the announced roster and the boundary at which it takes effect -/
  announced : Option (Word × List Member)
  /-- rosters announced after it, for later boundaries (R330) -/
  next : List (Word × List Member)
  /-- the context that a roster in several messages comes on, and its members still to come -/
  pend : Option (Nat × Nat)
  /-- member number of the coordinator, once known -/
  leader : Option Nat
  handle : Nat
  /-- the latest phase index and the stroke number of its start -/
  phase : Option (Nat × Word)
  paces : List Pace
  /-- stretch to publish at the next catch -/
  publish : Nat
  /-- a withdrawal notice has been sent or received since the latest catch (R342) -/
  notice : Bool
  /-- operations that start end with CREW_WITHDRAWN until the roster changes (R342) -/
  ended : Bool
  /-- the handle of a CREW_LEAVE -/
  leaving : Option Nat
  deriving DecidableEq, Repr

def Crew.none : Crew :=
  { state := 0, p := [], level := 2, rules := 2, members := [], announced := Option.none, next := [], pend := Option.none, leader := Option.none
    handle := 0
    phase := Option.none, paces := [], publish := 0, notice := false, ended := false, leaving := Option.none }

/-- Elements received for a chunk: the level they belong to (255 for the result), the first element, their bits. -/
structure ChunkPart where
  level : Nat
  first : Nat
  vals : List Nat
  deriving DecidableEq, Repr

/-- A chunk of a reducing operation at this member (R334, R335): the level its partial has reached, the running partial,
what has come for later levels, whether its own partial has left and whether its result is stored. -/
structure Chunk where
  idx : Nat
  level : Nat
  part : List Nat
  rx : List ChunkPart
  sent : Bool
  stored : Bool
  deriving DecidableEq, Repr

/-- A crew operation queued or running: its descriptor (Table 13.6), slot, start, stretch, failure (a STATUS of Table 13.8),
flags, chunks, ranges of bytes received (offset and length), and members heard at a barrier. -/
structure CrewOp where
  crew : Nat
  slot : Nat
  words : List Word
  started : Bool
  late : Bool
  start : Word
  stretch : Nat
  fail : Option Nat
  flags : Nat
  chunks : List Chunk
  moved : List (Nat × Nat)
  barrier : List Nat
  /-- it has started, and the read of its source waits at its home (R373) or for a tile that moves (R196) -/
  reading : Bool
  deriving DecidableEq, Repr

/-- A COLL packet for an operation that has not started here: crew, member, KIND, PHASE, OPID, OFFSET, OP, RED, FMT, OPLEN,
flags, bytes and data. -/
structure CollPkt where
  crew : Nat
  mem : Nat
  kind : Nat
  phase : Nat
  opid : Nat
  off : Nat
  op : Nat
  red : Nat
  fmt : Nat
  oplen : Nat
  flags : Nat
  n : Nat
  data : Nat
  deriving DecidableEq, Repr

/-- Whom a write of the crew engine that waits serves: an operation, a PUT packet of a peer context, or a completion record,
after which its buckle follows (R337). -/
inductive CrewWho where
  | op (crew phase opid : Nat)
  | put (ctx : Nat) (q : CollPkt)
  | record (cb : Option Nat)
  deriving DecidableEq, Repr

/-- A write of the crew engine that waits at its home (R355, R373) or for a tile that moves (R196). -/
structure CrewWait where
  who : CrewWho
  addr : Nat
  len : Nat
  value : Nat
  deriving DecidableEq, Repr

/-- The fabric side of the hub. -/
structure Fabric where
  ctxs : SMap PeerCtx
  crews : SMap Crew
  ops : List CrewOp
  /-- COLL packets for operations that have not started -/
  early : List CollPkt
  waits : List CrewWait
  /-- FAB_CFG payloads by port (R317) -/
  cfg : SMap (List Word)
  deriving DecidableEq, Repr

def Fabric.init : Fabric := { ctxs := [], crews := [], ops := [], early := [], waits := [], cfg := [] }

/-- A checkpoint or journal interval being sent: its sequence, the stroke of its close, granules not yet sent, granules
sent and not yet acknowledged, how many it has, and whether END has been sent. -/
structure Ckpt where
  seq : Nat
  close : Word
  toSend : List Nat
  inFlight : List Nat
  count : Nat
  ended : Bool
  /-- it began after the copy of SYNCING (R359) -/
  synced : Bool
  deriving DecidableEq, Repr

-- log 169: DESIGN CHOICE, unsafe.
/-- The mirror engine (chapter 14). `p` holds the twelve doublewords of Table 14.4, `ring` those of JOURNAL_CFG. -/
structure Mirror where
  p : List Word
  ring : List Word
  /-- dirty bits by granule: CUR and FROZEN (R353) -/
  cur : SMap Bool
  frozen : SMap Bool
  /-- shadow copies by granule; none where a line of it could not be read (R355, R372) -/
  shadow : List (Nat × Option (BitVec 32768))
  ckpt : Option Ckpt
  /-- slices that have still to be frozen for the checkpoint (R354) -/
  freezing : List Nat
  /-- images held for the partner: region number, mode, base and length -/
  images : List (Nat × Nat × Nat)
  /-- staging: checkpoint sequence, granules, the count of its END once received (R357) -/
  stageSeq : Nat
  stage : List (Nat × BitVec 32768)
  stageEnd : Option Nat
  link : Link
  partnerP : List Word
  partnerPeriod : Nat
  helloSent : Bool
  helloHeard : Bool
  /-- checkpoints committed since SYNCING began: own at the partner, partner's here -/
  okOut : Bool
  okIn : Bool
  partnerActv : Bool
  partnerUp : Bool
  /-- granules whose SYNC frame has still to be sent (R359) -/
  copying : List Nat
  hbCtx : Option Nat
  jseq : Nat
  handle : Nat
  /-- the sequence of the pair link has entered LOST (R347) -/
  lost : Bool
  /-- the partner's serial number as its frames carry it, and this module's FW_ACTIVATE flag (R362) -/
  serial : Nat
  actv : Bool
  /-- what JOURNAL_CFG armed, or PAIR_JOIN: the catch-event entry of the checkpoints -/
  entry : Option Nat
  /-- chunks of the partner's firmware image received for recovery (R363), the image asked for -/
  imageWanted : Bool
  /-- DEGRADED because a checkpoint was oversized or withdrawn (R356, R372) -/
  oversized : Bool
  /-- retransmissions in a row of frames sent on P0 and P1 (R347) -/
  portFail : List Nat
  /-- images taken over (R360) -/
  taken : List (Nat × Nat × Nat)
  deriving DecidableEq, Repr

def Mirror.init : Mirror :=
  { p := [], ring := [], cur := [], frozen := [], shadow := [], ckpt := none, freezing := [], images := [], stageSeq := 0
    stage := [], stageEnd := none, link := Link.init, partnerP := [], partnerPeriod := 0, helloSent := false, helloHeard := false
    okOut := false, okIn := false, partnerActv := false, partnerUp := true, copying := [], hbCtx := none
    jseq := 0, handle := 0, lost := false, serial := 0, actv := false, entry := none
    imageWanted := false, oversized := false, portFail := [0, 0], taken := [] }

/-- Where the logical tiles run, and the slots set aside at manufacture (R15, R475). -/
structure Placement where
  /-- physical tile of a logical tile; unlisted: slot i of die d for tile 32d + i -/
  place : SMap Nat
  /-- physical tiles that serve no more, with their ROLE of Table 16.7 -/
  setAside : List (Nat × Nat)
  unhosted : List Nat
  /-- moves in progress: die, logical tile, spare slot, ROLE the vacated slot takes, and the catch that ends the move -/
  moves : List (Nat × Nat × Nat × Nat × Word)
  /-- logical tiles whose lack of a spare is logged (R396) -/
  noted : List Nat
  deriving DecidableEq, Repr

def Placement.init : Placement := { place := [], setAside := [], unhosted := [], moves := [], noted := [] }

/-- What was fused into the module at manufacture (chapters 10, 13, 17): its serial number and base MAC address, the
digests of the four key slots, the ordering-code variant (0 HRG-8M-21, 1 HRG-8M-24), and the physical tiles set aside
(R475). Revocation fuses and F stand in SEC_FUSE. -/
structure Fuses where
  serial : Nat
  mac : Nat
  keys : List (List Byte)
  seed : List Byte
  fast : Bool
  setAside : List Nat
  deriving DecidableEq, Repr

def Fuses.init : Fuses := { serial := 0, mac := 0, keys := [], seed := [], fast := false, setAside := [] }

/-- An SPDM request that waits for the end of a Cox restart: requester, code, fields (R421). -/
structure SpdmReq where
  who : Nat
  code : Nat
  fields : List Nat
  deriving DecidableEq, Repr

/-- Firmware and security (chapter 17): the image in the boot flash, the staging SRAM, the header of the running image,
the debug nonce with the tick of its issue, SPDM requests latched during a Cox restart (R421), and the PLDM update: state (0 idle, 1 learn components, 2 ready to transfer, 3 download, 4 verify, 5 apply, 6 activate), expected
length, bytes received, whether the component has been applied, and the requester. -/
structure Sec where
  flash : List Byte
  staged : List Byte
  running : List Byte
  nonce : Option (List Byte × Nat)
  latched : List SpdmReq
  pldm : Nat
  pldmLen : Nat
  pldmData : List Byte
  applied : Bool
  /-- chunks of the partner's image: offset and bytes (R363) -/
  chunks : List (Nat × List Byte)
  /-- an FW_STAGE in progress: handle, host address, length, bytes read so far -/
  stage : Option (Nat × Nat × Nat)
  deriving DecidableEq, Repr

def Sec.init : Sec :=
  { flash := [], staged := [], running := [], nonce := none, latched := [], pldm := 0, pldmLen := 0, pldmData := []
    applied := false, chunks := [], stage := none }

/-- BUILD of the running image (Table 17.1), which HELLO reports. -/
def Sec.build (x : Sec) : Word :=
  BitVec.ofNat 64 ((List.range 8).foldl (fun v k => v + (x.running.getD (0x18 + k) 0).toNat * 256 ^ k) 0)

-- log 48: DESIGN CHOICE, unsafe.
/-- Bring-up (chapters 16 and 18): whether the input has qualified, rails at power-good in the order of Table 16.2, whether
the work of the current boot stage is done, the tick at which the stage began, MODULE_RESET_N held low past 10 ms, rails
down after a trip, and a DATA_RESET: its handle, its scope, and what it waits for (0 the catch that stops the data plane,
3 to 6 that boot stage, 7 its end). -/
structure Boot where
  qualified : Bool
  rails : Nat
  stageDone : Bool
  stageTick : Nat
  held : Bool
  tripped : Bool
  dataReset : Option (Nat × Nat × Nat)
  /-- MODULE_ID as strapped on J3, and the dynamic I3C address (R448, R450) -/
  moduleId : Nat
  i3c : Option Nat
  deriving DecidableEq, Repr

/-- Undriven MODULE_ID straps read 1 (Table 19.3). -/
def Boot.init : Boot :=
  { qualified := false, rails := 0, stageDone := false, stageTick := 0, held := false, tripped := false, dataReset := none, moduleId := 15, i3c := none }

/-- Power, Easy and patina (chapter 16). -/
structure Power where
  /-- power steps fired and not yet applied, in order: the slot, plus 16 where it fired while CAP_EN was 0 (R388, R391) -/
  steps : List Nat
  /-- catches in a row below 0.97 C (R389) -/
  low : Nat
  /-- ticks in a row with a flow estimate below 2.0 L/min (R401) -/
  flowLow : Nat
  /-- FCAP that the wake takes: at entry into Easy, or of the latest power step since (R404, R405) -/
  easyF : Nat
  /-- the catch at which the data plane resumes, once a trigger has come (R405) -/
  wake : Option Word
  /-- the re-plan serial whose VPLAN is in effect, and the latest one that processed the tile, by physical tile (R406) -/
  planOn : SMap Nat
  plan : SMap Nat
  /-- dies whose last tile has been processed: the new VPLAN takes effect at the next catch -/
  planDies : List Nat
  /-- serials given to re-plans -/
  plans : Nat
  /-- management ticks powered (AGE), and the tick of each physical tile's last re-plan (Table 16.7) -/
  age : Nat
  planTick : SMap Nat
  /-- ADD in steps of 2.5 mV, by physical tile (R392) -/
  add : SMap Nat
  deriving DecidableEq, Repr

def Power.init : Power :=
  { steps := [], low := 0, flowLow := 0, easyF := 2400, wake := none, planOn := [], plan := [], planDies := [], plans := 0
    age := 0, planTick := [], add := [] }

-- log 142: DESIGN CHOICE, safe.
/-- The TAP (chapter 20): the instruction that acts, what the pins do (0 the device, 1 the boundary register, 2 held, 3 high
impedance, 4 AC test), the status byte of the latest token, the nonce captured, and the result and data of the latest
DBG_ACCESS. -/
structure Tap where
  ir : Nat
  pins : Nat
  boundary : Nat
  token : Nat
  capture : Nat
  result : Nat
  data : Word
  /-- dies under test, and the DBG_DIETEST word of a test that runs -/
  testing : Bool
  deriving DecidableEq, Repr

def Tap.init : Tap := { ir := 1, pins := 0, boundary := 0, token := 0, capture := 0, result := 0, data := 0, testing := false }

/-- The state of the module. -/
structure State where
  /-- commands that are waiting, first in, first out -/
  pending : List Instr
  /-- how many free values the run has used (the model's own field) -/
  free : Nat
  /-- control-space and BAR0 registers by address -/
  mmio : SMap Word
  /-- bytes of memory by device address -/
  mem : List Host.Cell
  drains : List Drain
  coxIrq : List CoxIrq
  stroke : Stroke
  tiles : SMap Tile
  placement : Placement
  store : Store
  links : Links
  ras : Ras
  watch : List WatchItem
  vekin : Vekin
  cox : Cox
  host : HostSide
  fabric : Fabric
  mirror : Mirror
  fuses : Fuses
  sec : Sec
  boot : Boot
  power : Power
  tap : Tap
  /-- what has left the module, latest first -/
  sent : List Sent
  deriving DecidableEq, Repr

-- log 114: DEDUCED, unsafe.
/-- The module right after reset. -/
def State.reset : State :=
  { pending := [], free := 0, mmio := [], mem := [], drains := [], coxIrq := [], stroke := Stroke.init, tiles := [],
    placement := Placement.init, store := Store.init, links := Links.init, ras := Ras.init, watch := [], vekin := { ports := [], rsp := [], old := [] }, cox := Cox.init, host := HostSide.init,
    fabric := Fabric.init, mirror := Mirror.init, fuses := Fuses.init, sec := Sec.init, boot := Boot.init
    power := Power.init, tap := Tap.init, sent := [] }

end Sys2Proof.Machine
end

