-- ==== Sys2Proof/Machine/Ops.lean ====
section
/-!
DEFINITION. The named operations over the state: sparse tables, registers, counters, bytes of memory, stroke order.
-/
namespace Sys2Proof.Machine

/-! ### Sparse tables -/

/-- The value of key k; an unlisted key reads as `d k`. -/
def SMap.get {β : Type} (d : Nat → β) : SMap β → Nat → β
  | [], k => d k
  | (j, v) :: m, k => if j = k then v else SMap.get d m k

/-- The table with v at key k: in canonical form when the table was. -/
def SMap.set {β : Type} [DecidableEq β] (d : Nat → β) (m : SMap β) (k : Nat) (v : β) : SMap β :=
  match m with
  | [] => if v = d k then [] else [(k, v)]
  | (j, w) :: r =>
    if j < k then (j, w) :: SMap.set d r k v
    else if v = d k then ((j, w) :: r).filter fun c => c.1 != k
    else if j = k then (k, v) :: r
    else (k, v) :: (j, w) :: r

/-- The canonical form: keys strictly rising and above lo, no entry equal to what an unlisted key reads as. -/
def SMap.wfFrom {β : Type} [DecidableEq β] (d : Nat → β) : Option Nat → SMap β → Bool
  | _, [] => true
  | lo, (k, v) :: m => (match lo with | none => true | some l => decide (l < k)) && decide (v ≠ d k) && SMap.wfFrom d (some k) m

def SMap.wf {β : Type} [DecidableEq β] (d : Nat → β) (m : SMap β) : Bool := SMap.wfFrom d none m

/-! ### Registers -/

/-- The register description that covers offset o, if the block has one there. -/
def findDesc : List RegDesc → Nat → Option RegDesc
  | [], _ => none
  | r :: rs, o =>
    if r.off ≤ o ∧ (o - r.off) % r.stride = 0 ∧ (o - r.off) / r.stride < r.cnt then some r else findDesc rs o

/-- The ports of the dies' VKN_ blocks are 0 to 2; the hub has 8 (Table 10.8). -/
def vknDieRegs : List RegDesc := vknRegs.map fun r => { r with cnt := if r.cnt = 8 then 3 else r.cnt }

/-- The register description of an address (Tables 12.4, 12.11, 12.12); none where no register lies (R473). -/
def descOf (a : Nat) : Option RegDesc :=
  if bar0Base ≤ a then
    let o := a - bar0Base
    if 0x500000 ≤ o then findDesc mbpRegs (o - 0x500000) else findDesc barRegs o
  else if hubBase ≤ a then
    let o := a - hubBase
    let r := o % 0x100000
    match o / 0x100000 with
    | 0 => findDesc stkRegs r
    | 2 => findDesc pciRegs r
    | 3 => findDesc fabRegs r
    | 4 => findDesc crwRegs r
    | 5 => findDesc mirRegs r
    | 6 => findDesc pwrRegs r
    | 7 => findDesc secRegs r
    | 8 => findDesc vknRegs r
    | 9 => findDesc rasRegs r
    | 10 => findDesc dbgRegs r
    | _ => none
  else if dieBase 0 ≤ a then
    let o := (a - dieBase 0) % 0x02000000
    if o < 0x200000 then findDesc tilRegs (o % 0x10000)
    else
      let r := o % 0x100000
      match o / 0x100000 with
      | 2 => findDesc llsRegs r
      | 3 => if r / 0x40000 < 2 then findDesc memRegs (r % 0x40000) else none
      | 4 => if r / 0x1000 < 6 then findDesc memRegs (r % 0x1000) else none
      | 5 => findDesc cxsRegs r
      | 6 => findDesc vknDieRegs r
      | 7 => findDesc trmRegs r
      | 8 => findDesc rasRegs r
      | 9 => findDesc nwtRegs r
      | _ => none
  else none

-- log 5: DESIGN CHOICE, unsafe.
/-- What a register holds at reset: the value of its table; a field whose reset is u holds 0 (log 5). -/
def regReset (a : Nat) : Word := match descOf a with | some r => r.reset | none => 0

/-- The stored value of the register at address a. -/
def State.rd (s : State) (a : Nat) : Word := SMap.get regReset s.mmio a

/-- The state with the register at address a holding v. -/
def State.wr (s : State) (a : Nat) (v : Word) : State := { s with mmio := SMap.set regReset s.mmio a v }

/-- The value of a field of a word. -/
def Fld.get (f : Fld) (v : Word) : Nat := v.toNat >>> f.lo % 2 ^ f.len

/-- The mask of a field. -/
def Fld.mask (f : Fld) : Word := BitVec.ofNat 64 ((2 ^ f.len - 1) <<< f.lo)

/-- The word v with field f holding n. -/
def Fld.put (f : Fld) (v : Word) (n : Nat) : Word :=
  (v &&& ~~~ f.mask) ||| BitVec.ofNat 64 ((n % 2 ^ f.len) <<< f.lo)

/-- The value of field f of the register at a. -/
def State.fld (s : State) (a : Nat) (f : Fld) : Nat := f.get (s.rd a)

/-- The state with field f of the register at a holding n. -/
def State.setf (s : State) (a : Nat) (f : Fld) (n : Nat) : State := s.wr a (f.put (s.rd a) n)

/-- A one-bit field as a Bool. -/
def State.bit (s : State) (a : Nat) (f : Fld) : Bool := s.fld a f == 1

/-- R9: a STICK counter adds n and stays at all-ones. -/
def State.stick (s : State) (a : Nat) (f : Fld) (n : Nat) : State :=
  s.setf a f (min (s.fld a f + n) (2 ^ f.len - 1))

/-- R9: a WRAP counter adds n; passing its largest value sets its sticky overflow bit. -/
def State.wrap (s : State) (a : Nat) (f : Fld) (n : Nat) (ovfReg : Nat) (ovf : Fld) : State :=
  let c := s.fld a f + n
  let s' := s.setf a f c
  if 2 ^ f.len ≤ c then s'.setf ovfReg ovf 1 else s'

/-- R4: the bits a write must not set. -/
def rsvBad (a : Nat) (v : Word) : Bool :=
  match descOf a with | some r => v &&& r.rsv != 0 | none => false

/-- R7: what the register at a holds after a write of v, by its access types; a CLR bit clears its COUNT (layout of
STK_CNT_MISS). -/
def regMerge (r : RegDesc) (old v : Word) : Word :=
  if r.w1c = 0x100000000 then (if v &&& 0x100000000 != 0 then old &&& 0xFFFFFFFF00000000 else old)
  else ((old &&& ~~~ r.rw) ||| (v &&& r.rw)) &&& ~~~ (v &&& r.w1c) ||| (v &&& r.w1s)

/-- A plain register write by the access types of R7 (R473: nothing where no register lies). -/
def State.put (s : State) (a : Nat) (v : Word) : State :=
  match descOf a with
  | some r => s.wr a (regMerge r (s.rd a) v)
  | none => s

/-! ### Bytes of memory -/

-- log 4: DESIGN CHOICE, unsafe.
/-- What a byte of memory that nothing has written reads as (log 4). -/
def memDefault : Nat → Byte := fun _ => 0

-- log 4: DESIGN CHOICE, unsafe.
def State.byte (s : State) (a : Nat) : Byte := SMap.get memDefault s.mem a
def State.setByte (s : State) (a : Nat) (b : Byte) : State := { s with mem := SMap.set memDefault s.mem a b }

-- log 4: DESIGN CHOICE, unsafe.
/-- The canonical form of memory. -/
def Memory.wf (m : List Host.Cell) : Bool := SMap.wf memDefault m

/-- n bytes from address a, as a little-endian number (R6). -/
def State.bytes (s : State) (a : Nat) : Nat → Nat
  | 0 => 0
  | n + 1 => s.bytes a n + (s.byte (a + n)).toNat * 256 ^ n

/-- The low n bytes of v stored from address a (R6). -/
def State.setBytes (s : State) (a : Nat) (v : Nat) : Nat → State
  | 0 => s
  | n + 1 => (s.setBytes a v n).setByte (a + n) (BitVec.ofNat 8 (v / 256 ^ n))

/-- DEV_STATUS.EASY: the module is in Easy (R403). -/
def State.easy (s : State) : Bool := s.bit DEV_STATUS DEV_STATUS_EASY

/-! ### Stroke order, free values, drains -/

/-- R23: b lies after a in 64-bit serial order. -/
def after (b a : Word) : Bool := 1 ≤ (b - a).toNat && (b - a).toNat ≤ 2 ^ 63

/-- R23: the number b lies before a. -/
def before (b a : Word) : Bool := 2 ^ 63 < (b - a).toNat

def State.now (s : State) : Word := s.rd STK_NOW

-- log 2: DESIGN CHOICE, safe.
/-- The next free value, and the state that has used it. -/
def State.fresh (s : State) : Word × State := (Config.freeValue s.free, { s with free := s.free + 1 })

def State.drain? (s : State) (w : Drainer) : Option Drain := s.drains.find? (·.who == w)

/-! ### Tiles -/

def noTile : Nat → Tile := fun _ => Tile.start
def State.tile (s : State) (t : Nat) : Tile := SMap.get noTile s.tiles t
def State.setTile (s : State) (t : Nat) (x : Tile) : State := { s with tiles := SMap.set noTile s.tiles t x }

/-- The physical tile that hosts logical tile t when no slot is set aside and nothing has moved (R475). -/
def homeSlot (t : Nat) : Nat := t / 32 * 34 + t % 32
def State.physOf (s : State) (t : Nat) : Nat := SMap.get homeSlot s.placement.place t

/-- Logical tile t is being moved to a spare (R395). -/
def State.moving (s : State) (t : Nat) : Bool := s.placement.moves.any fun m => m.2.1 == t

/-- Tile t does nothing: the module is in Easy (R403), or the tile is being moved to a spare (R86, R196, R395). -/
def State.stilled (s : State) (t : Nat) : Bool := s.bit DEV_STATUS DEV_STATUS_EASY || s.moving t

/-! ### Reachability -/

-- log 11: DEDUCED, safe.
/-- Die src has a route to die dst (H is die 8): R266 and VKN_ROUTE. -/
def State.reach (s : State) (src dst : Nat) : Bool :=
  src == dst || (s.rd (VKN_ROUTE src)).toNat / 16 ^ dst % 16 != 15

end Sys2Proof.Machine
end

