-- ==== Sys2Proof/Machine/CoxOps.lean ====
section
/-!
DEFINITION. How events reach the Cox and its sessions (R53, R268, R288) and how MSI-X vectors leave (R308).
-/
namespace Sys2Proof.Machine

/-- An MSI-X entry is masked after reset. -/
def msixDefault : Nat → Word := fun k => if k % 2 = 1 then 0x100000000 else 0

def State.emit (s : State) (m : Sent) : State := { s with sent := m :: s.sent }

-- log 164: PRESUMED, unsafe.
/-- R308: vector v is raised: the address and data of its table entry are sent, or it is pending while it or the function is
masked, MSI-X is off, the function sleeps, or Bus Master Enable is 0. -/
def State.raiseVec (s : State) (v : Nat) : State :=
  let entry (i : Nat) : Nat := (SMap.get msixDefault s.host.msix (2 * v + i)).toNat
  let open_ := s.bit PCI_STATUS PCI_STATUS_BME && s.host.msixOn && !s.host.fmask && !s.host.d3 && !(entry 1).testBit 32
  if open_ then s.emit (.msix v (entry 0) (entry 1 % 2 ^ 32))
  else if s.host.pend.contains v then s else { s with host := { s.host with pend := s.host.pend ++ [v] } }

/-- A cause bit of HOST_INT_CAUSE is set; vector 0 is raised when it was 0 and its mask bit is 0 (Table 12.5). -/
def State.hostCause (s : State) (f : Fld) : State :=
  if s.bit HOST_INT_CAUSE f then s
  else
    let s := s.setf HOST_INT_CAUSE f 1
    if s.bit HOST_INT_MASK f then s else s.raiseVec 0

/-- R288: a session receives an event, or counts it as lost while its queue holds 64. -/
def State.sessionEvent (s : State) (x : Session) (e : Ev) : State :=
  let r : EvRec := { ev := e, tick := s.stroke.ticks % 2 ^ 32, stroke := s.now.toNat % 2 ^ 32 }
  let y := if 64 ≤ x.queue.length then { x with lost := x.lost + 1 } else { x with queue := x.queue ++ [r] }
  let s := { s with cox := { s.cox with sessions := s.cox.sessions.map fun z => if z.num = x.num then y else z } }
  if x.party = 0 && x.irq && x.queue.isEmpty then s.raiseVec x.vec else s

/-- The contact ALERT_N is asserted while the queue of an MCTP session holds a record (R288, R448). -/
def State.alertLow (s : State) : Bool := s.cox.sessions.any fun x => x.party == 1 && !x.queue.isEmpty

/-- An event of a kind that masks select reaches every session that wants it. -/
def State.event (s : State) (e : Ev) : State :=
  s.cox.sessions.foldl (fun s x => if x.mask / 2 ^ e.kind % 2 = 1 then s.sessionEvent x e else s) s

-- log 168: DESIGN CHOICE, unsafe.
/-- An event of a kind whose STATUS and OBJECT the manual leaves open: FW (11) or RESET (12). -/
def State.openEvent (s : State) (kind : Nat) : State :=
  let r := s.fresh
  r.2.event ⟨kind, r.1.toNat % 256, 0, r.1.toNat / 256⟩

-- log 25: DEDUCED, safe.
/-- An interrupt to the Cox: at once from a hub block, by a NOTE message from a compute-die block (R268). -/
def State.notify (s : State) (a b : Nat) (ev : Option Ev) : State :=
  if dieBase 0 ≤ a ∧ a < hubBase then { s with links := { s.links with notes := s.links.notes ++ [⟨a, b, ev⟩] } }
  else
    let s := { s with coxIrq := s.coxIrq ++ [⟨a, b, ev⟩] }
    match ev with | some e => s.event e | none => s

/-- An event for the Cox raised by the register at a, bit b. -/
def State.toCox (s : State) (a b : Nat) : State := s.notify a b none

-- log 25: DEDUCED, safe.
/-- A sticky event bit is set; where it was clear the Cox receives an interrupt (R53). -/
def State.raise (s : State) (a : Nat) (f : Fld) : State :=
  if s.bit a f then s else (s.setf a f 1).toCox a f.lo

end Sys2Proof.Machine
end

