-- ==== Sys2Proof/Machine/Ras.lean ====
section
/-!
DEFINITION. Reporting errors: the RAS_ counters, their thresholds and queues (R379, R380), and the retire list (R378).
-/
namespace Sys2Proof.Machine

def noRas : Nat → List RasRec := fun _ => []
def State.rasQueue (s : State) (k : Nat) : List RasRec := SMap.get noRas s.ras.queues k
def State.setRasQueue (s : State) (k : Nat) (q : List RasRec) : State :=
  ({ s with ras := { s.ras with queues := SMap.set noRas s.ras.queues k q } }).setf (RAS_STATUS k) RAS_STATUS_QCOUNT q.length

-- log 171: DESIGN CHOICE, unsafe.
/-- A RAS event to the Cox from block k (R371, R374, R379): STATUS names the source, OBJECT what it concerns. -/
def State.rasNotice (s : State) (k bit src object : Nat) : State := s.notify (RAS_STATUS k) bit (some ⟨5, src, 0, object⟩)

-- log 171: DESIGN CHOICE, unsafe.
/-- R379: a detection counts in RAS_CNT_s, and the increment that reaches a nonzero threshold raises THR_EVT. -/
def State.rasCount (s : State) (k src : Nat) : State :=
  let before := s.fld (RAS_CNT k src) RAS_CNT_COUNT
  let s := s.stick (RAS_CNT k src) RAS_CNT_COUNT 1
  let thr := s.fld (RAS_THR k src) RAS_THR_THRESH
  if thr ≠ 0 ∧ before + 1 = thr then
    (s.setf (RAS_STATUS k) RAS_STATUS_THR_EVT 1).rasNotice k RAS_STATUS_THR_EVT.lo src (before + 1)
  else s

-- log 97: DEDUCED, unsafe; log 146: DESIGN CHOICE, safe.
/-- R379, R380: an error of a source is detected in block k: it counts, and its record enters the queue of 32 or is
dropped with QOVF. -/
def State.rasEvent (s : State) (k src sev unit detail addr : Nat) : State :=
  let s := s.rasCount k src
  let q := s.rasQueue k
  if q.length < 32 then
    let r : RasRec :=
      { stroke := s.now.toNat % 2 ^ 32, tick := s.stroke.ticks % 2 ^ 32, source := src, sev := sev, die := k
        unit := unit, detail := detail, count := 1, addr := addr }
    s.setRasQueue k (q ++ [r])
  else s.raise (RAS_STATUS k) RAS_STATUS_QOVF

/-- R371, R376: the Cox marks a physical tile for substitution. -/
def State.markTile (s : State) (p : Nat) : State :=
  if s.ras.marked.contains p then s else { s with ras := { s.ras with marked := s.ras.marked ++ [p] } }

/-- Interrupt code c becomes pending in tile t (Table 3.15). -/
def State.latchIrq (s : State) (t c : Nat) : State :=
  let x := s.tile t
  s.setTile t { x with latched := x.latched ||| BitVec.ofNat 64 (2 ^ c) }

/-- R378: a retirement enters the retire list, the die's RAS_RNOTE ring, and interrupts the tiles of RAS_RMASK. With
8,192 entries listed it takes effect without an entry, and the device is degraded. -/
def State.retire (s : State) (die : Nat) (r : RetireRec) : State :=
  if 8192 ≤ s.ras.retired.length then
    ({ s with ras := { s.ras with unlisted := s.ras.unlisted ++ [r] } }).setf DEV_STATUS DEV_STATUS_DEGRADED 1
  else
    let s := { s with ras := { s.ras with retired := s.ras.retired ++ [r] } }
    let s := s.event ⟨6, r.cause, 0, r.unit⟩
    if die < 8 then
      let n := s.fld (RAS_RNOTE_CNT die) RAS_RNOTE_CNT_COUNT
      let e := n % 8
      let s := s.wr (RAS_RNOTE_W0 die e) (BitVec.ofNat 64 (r.kind * 2 ^ 56 + r.cause * 2 ^ 48 + r.addr % 2 ^ 48))
      let s := s.wr (RAS_RNOTE_W1 die e) (BitVec.ofNat 64 (r.stroke % 2 ^ 32 * 2 ^ 32 + (if r.image then 2 ^ 31 else 0) + r.unit % 2 ^ 16))
      let s := s.setf (RAS_RNOTE_CNT die) RAS_RNOTE_CNT_COUNT (n + 1)
      (List.range 32).foldl (fun s i =>
        if (s.rd (RAS_RMASK die)).getLsbD i then s.latchIrq (32 * die + i) 8 else s) s
    else s

end Sys2Proof.Machine
end

