-- ==== Sys2Proof/Machine/MirrorOps.lean ====
section
/-!
DEFINITION. What the homes need of the mirror engine: regions, partner images, restore requests (R350 to R353, R373), and
the reliable sequence that pair and peer contexts share (R320 to R322).
-/
namespace Sys2Proof.Machine

/-! ### Reliable sequences -/

/-- b - a in 32-bit serial order. -/
def psnDiff (b a : Nat) : Nat := (b + 2 ^ 32 - a % 2 ^ 32) % 2 ^ 32

/-- The expected PSN advances past every PSN received without a gap (R320). -/
def linkAdvance (e : Nat) (got : List Nat) : Nat → Nat × List Nat
  | 0 => (e, got)
  | fuel + 1 => if got.contains e then linkAdvance ((e + 1) % 2 ^ 32) (got.erase e) fuel else (e, got)

/-- R320: a packet with this PSN is accepted, or is a duplicate or outside the window of 512. -/
def Link.accept (l : Link) (psn : Nat) : Option Link :=
  if 512 ≤ psnDiff psn l.expect ∨ l.got.contains psn then none
  else
    let r := linkAdvance l.expect (psn :: l.got) (l.got.length + 1)
    some { l with expect := r.1, got := r.2, owed := l.owed + 1 }

/-- ACK_PSN and SACK cover this PSN (Table 13.1). -/
def ackCovers (ack : Nat) (sack : Word) (psn : Nat) : Bool :=
  let below := psnDiff ack psn
  (1 ≤ below && below ≤ 2 ^ 31) || (let k := psnDiff psn ack; 1 ≤ k && k ≤ 64 && sack.getLsbD (k - 1))

/-- R322: packets that an acknowledgement covers leave; they are answered too. -/
def Link.ack (l : Link) (ack : Nat) (sack : Word) : Link × List Pkt :=
  ({ l with unacked := l.unacked.filter fun p => !ackCovers ack sack p.psn }, l.unacked.filter fun p => ackCovers ack sack p.psn)

/-- R322: packets that a SACK shows missing while at least three higher PSNs are acknowledged. -/
def Link.missing (l : Link) (ack : Nat) (sack : Word) : List Pkt :=
  l.unacked.filter fun p =>
    3 ≤ ((List.range 64).filter fun i => sack.getLsbD i && (let d := psnDiff ((ack + 1 + i) % 2 ^ 32) p.psn; 1 ≤ d && d ≤ 2 ^ 31)).length

/-- A packet that consumes a PSN is sent and kept, or waits while 512 are unacknowledged (R322). -/
def Link.send (l : Link) (typ : Nat) (body : List Nat) (now : Word) : Link :=
  if 512 ≤ l.unacked.length then { l with wait := l.wait ++ [(typ, body)] }
  else { l with next := (l.next + 1) % 2 ^ 32
                unacked := l.unacked ++ [{ psn := l.next, typ := typ, body := body, sent := now, tries := 0 }] }

/-- The packet p has been sent again. -/
def Link.resent (l : Link) (p : Pkt) (now : Word) : Link :=
  { l with unacked := l.unacked.map fun q => if q.psn = p.psn then { q with sent := now, tries := q.tries + 1 } else q }

/-- SACK of the receive side (Table 13.1). -/
def Link.sack (l : Link) : Nat :=
  ((List.range 64).filter fun i => l.got.contains ((l.expect + 1 + i) % 2 ^ 32)).foldl (fun v i => v + 2 ^ i) 0

/-! ### Regions and images -/

def noFlag : Nat → Bool := fun _ => false

/-- The pair state (Table 14.3). -/
def State.pstate (s : State) : Nat := s.fld MIR_STATUS MIR_STATUS_PSTATE

/-- The MODE of region r, 0 when it is free (Table 14.5). -/
def State.regMode (s : State) (r : Nat) : Nat := s.fld (MIR_REG_W0 r) MIR_REG_W0_MODE
def State.regBase (s : State) (r : Nat) : Nat := s.fld (MIR_REG_W0 r) MIR_REG_W0_BASE
def State.regLen (s : State) (r : Nat) : Nat := s.fld (MIR_REG_W1 r) MIR_REG_W1_LEN

/-- The region that holds address a. -/
def State.regionAt (s : State) (a : Nat) : Option Nat :=
  (List.range 256).find? fun r => s.regMode r != 0 && s.regBase r ≤ a && a < s.regBase r + s.regLen r

/-- The MODE of the region that holds a; none where no region does, or where mirroring has stopped (R361). -/
def State.regionMode (s : State) (a : Nat) : Option Nat :=
  if s.pstate = 6 ∨ s.pstate = 7 then none else (s.regionAt a).map s.regMode

/-- R352: the range meets a partner image, which the module's own requesters must not write. -/
def State.imageCovers (s : State) (a n : Nat) : Bool := s.mirror.images.any fun i => i.2.1 < a + n && a < i.2.1 + i.2.2

/-- Shadow slots of the shadow area (Table 14.4). -/
def State.shadowSlots (s : State) : Nat := (s.mirror.p.getD 6 0).toNat / 4096

/-! ### Sending on the pair link -/

/-- Pair port p is up. -/
def State.pairPort (s : State) (p : Nat) : Bool :=
  s.fld (MIR_PSTATUS p) MIR_PSTATUS_STATE == 2 || s.fld (MIR_PSTATUS p) MIR_PSTATUS_STATE == 3

/-- The pair ports that carry traffic (R345). -/
def State.pairUp (s : State) : List Nat := [0, 1].filter fun p => s.pairPort p && !s.bit (MIR_PSTATUS p) MIR_PSTATUS_MISCABLED

/-- LEN of a pair frame: doublewords, and the 4,096 bytes of a granule (Table 14.2). -/
def pairLen (typ : Nat) (body : List Nat) : Nat :=
  if typ = 3 ∨ (typ = 7 ∧ body.length = 3) then 4112 else if typ = 8 then (if body = [] then 0 else 7 + body.length) else 8 * body.length

/-- A frame leaves on port p: TYPE; then PORT, PSN, ACK_PSN, SACK, PSTATE, COX_UP, ACTV, STROKE, SERIAL and LEN of Table 14.1;
then its payload. -/
def State.pairFrame (s : State) (p typ psn : Nat) (body : List Nat) : State :=
  let m := s.mirror
  let s := s.emit (.pair typ ([p, psn, m.link.expect, m.link.sack, s.pstate, (if s.bit DEV_STATUS DEV_STATUS_COX_RST then 0 else 1),
    (if m.actv then 1 else 0), s.now.toNat % 2 ^ 32, s.fuses.serial, pairLen typ body] ++ body))
  { s with mirror := { s.mirror with link := { s.mirror.link with owed := 0 } } }

/-- R324, R347: the up port that carries PSN p. -/
def State.pairPortOf (s : State) (psn : Nat) : Option Nat := (s.pairUp)[psn % max 1 s.pairUp.length]?

/-- R361: in FENCED and CONFLICT the module sends nothing but HB frames. -/
def State.pairMute (s : State) : Bool := s.pstate == 6 || s.pstate == 7 || s.pstate == 0

/-- A pair frame that consumes a PSN is sent and kept until it is acknowledged (R346, R347). -/
def State.pairSend (s : State) (typ : Nat) (body : List Nat) : State :=
  if s.pairMute then s else
  let l := s.mirror.link
  let s := { s with mirror := { s.mirror with link := l.send typ body s.now } }
  if 512 ≤ l.unacked.length then s else
  match s.pairPortOf l.next with
  | some p => s.pairFrame p typ l.next body
  | none => s

/-- R373: an uncorrectable read at a is held while the partner is asked for the granule; false when it must fail. -/
def State.askPartner (s : State) (a : Nat) : State × Bool :=
  let g := a / 4096
  let own := s.regionMode a == some 1
  let clear := !SMap.get noFlag s.mirror.cur g && !SMap.get noFlag s.mirror.frozen g
  if s.store.restores.any fun q => q.granule == g then (s, true)
  else if s.pstate ≠ 3 then (s, false)
  else if (own && clear) || s.imageCovers a 1 then
    let wait := own && s.mirror.ckpt.isSome
    let s := { s with store := { s.store with restores := s.store.restores ++ [⟨g, s.now, !wait⟩] } }
    (if wait then s else s.pairSend 7 [0, 4096 * g], true)
  else (s, false)

end Sys2Proof.Machine
end

