-- ==== Sys2Proof/Machine/RsCode.lean ====
section
/-!
DEFINITION. The storage code of R225: a Reed-Solomon code over GF(2^8) with 64 data symbols and 4 check symbols. A stored
codeword is kept as its data and the pattern of its symbols in error, as (position, difference) pairs; position 0 is the
coefficient of highest degree.
-/
namespace Sys2Proof.Machine

/-- x × 0x02 modulo x^8 + x^4 + x^3 + x^2 + 1. -/
def gfDouble (x : Nat) : Nat := if x < 128 then 2 * x else Nat.xor (2 * x) 0x11D

/-- x × α^k. -/
def gfShift (x : Nat) : Nat → Nat
  | 0 => x
  | k + 1 => gfDouble (gfShift x k)

/-- x × y: the bits of y from bit k - 1 down. -/
def gfMulBits (x y : Nat) : Nat → Nat
  | 0 => 0
  | k + 1 => Nat.xor (if y.testBit k then gfShift x k else 0) (gfMulBits x y k)
def gfMul (x y : Nat) : Nat := gfMulBits x y 8

/-- α^k. -/
def gfPow (k : Nat) : Nat := gfShift 1 k

/-- A polynomial, highest degree first, times (x - α^k). -/
def gfTimesRoot (p : List Nat) (k : Nat) : List Nat :=
  List.zipWith Nat.xor (p ++ [0]) (0 :: p.map fun c => gfMul c (gfPow k))

/-- The generator (x - 1)(x - α)(x - α²)(x - α³). -/
def rsGenerator : List Nat := (List.range 4).foldl gfTimesRoot [1]

/-- The remainder after one more data symbol. -/
def rsStep (r : List Nat) (b : Nat) : List Nat :=
  let q := Nat.xor b (r.headD 0)
  List.zipWith Nat.xor (r.drop 1 ++ [0]) ((rsGenerator.drop 1).map fun g => gfMul q g)

/-- The four check symbols of the data: the remainder of D(x) × x^4 modulo the generator. -/
def rsCheck (data : List Nat) : List Nat := data.foldl rsStep [0, 0, 0, 0]

/-- The value of a word of symbols, highest degree first, at α^j. -/
def rsSyndrome (j : Nat) (word : List Nat) : Nat := word.foldl (fun v b => Nat.xor (gfMul v (gfPow j)) b) 0

/-- Syndrome j of an error pattern of a 68-symbol codeword. -/
def rsErrorSyndrome (j : Nat) (es : List (Nat × Nat)) : Nat :=
  es.foldl (fun v e => Nat.xor v (gfMul e.2 (gfPow (j * (67 - e.1))))) 0

/-- What the decoder makes of a stored codeword. -/
inductive RsResult where
  | good
  | corrects (pos diff : Nat)
  | uncorrectable
  deriving DecidableEq, Repr

/-- R225: the decoder corrects an error confined to one symbol. -/
def rsDecode (es : List (Nat × Nat)) : RsResult :=
  let z (j : Nat) := rsErrorSyndrome j es
  if z 0 = 0 ∧ z 1 = 0 ∧ z 2 = 0 ∧ z 3 = 0 then .good
  else match (List.range 68).find? fun p =>
      z 0 != 0 && (List.range 3).all fun j => gfMul (z j) (gfPow (67 - p)) == z (j + 1) with
    | some p => .corrects p (z 0)
    | none => .uncorrectable

end Sys2Proof.Machine
end

