-- ==== Sys2Proof/Machine/Memory.lean ====
section
/-!
DEFINITION. Memory as every requester reaches it: the device address map (Table 12.10), the homes (R16), the storage
code (R225 to R231, R471), and the LLS slice through which every access to home memory is performed (R197 to R218).
-/
namespace Sys2Proof.Machine

/-- Where a device address lies (Table 12.10). -/
inductive Region where
  | hbm (m : Nat)
  | bulk (m : Nat)
  | scratch (d w : Nat)
  | store (t : Nat)
  | storeHole (t : Nat)
  | ctl
  | host
  | reserved
  deriving DecidableEq, Repr

/-- Table 12.10, with the homes of R16 and the bulk map of R221. -/
def regionOf (a : Nat) : Region :=
  if a < 0x00C000000000 then .hbm (a / 0xC00000000)
  else if a < 0x010000000000 then .reserved
  else if a < 0x028000000000 then
    let o := a - 0x010000000000
    .bulk (16 + 6 * (o / 0x3000000000) + (o % 0x3000000000 / 0x10000 % 12) / 2)
  else if a < 0x030000000000 then .reserved
  else if a < 0x030040000000 then
    let o := a - 0x030000000000
    .scratch (o / 0x8000000) (o % 0x8000000 / 0x800000)
  else if a < 0x031000000000 then .reserved
  else if a < 0x031080000000 then
    let o := a - 0x031000000000
    if o % 0x800000 < 0x600000 then .store (o / 0x800000) else .storeHole (o / 0x800000)
  else if a < 0x038000000000 then .reserved
  else if a < 0x038100000000 then .ctl
  else if a < 0x040000000000 then .reserved
  else if a < 0x140000000000 then .host
  else .reserved

/-- The die that is home to an address of HBM, the bulk tier or LLS scratch (R16). -/
def homeDie (a : Nat) : Nat :=
  if a < 0x00C000000000 then a / 0x1800000000
  else if a < 0x028000000000 then (a - 0x010000000000) / 0x3000000000
  else (a - 0x030000000000) / 0x8000000

/-- The die of memory m. -/
def memDie (m : Nat) : Nat := if m < 16 then m / 2 else (m - 16) / 6

/-- The die that performs an access to address a: its home, or H for what lies outside the compute dies. -/
def dieOf (a : Nat) : Nat :=
  match regionOf a with
  | .hbm _ => homeDie a
  | .bulk _ => homeDie a
  | .scratch d _ => d
  | .store t => t / 32
  | .storeHole t => t / 32
  | .ctl => if 0x038010000000 ≤ a then 8 else (a - 0x038000000000) / 0x02000000
  | _ => 8

/-- The compute die of the target of a catch event (Table 2.6). -/
def EventMsg.die (e : EventMsg) : Nat :=
  match e.kind with | 4 => memDie e.target | 7 => e.target / 2048 | _ => e.target / 32

/-! ### Links between dies (R261, R262, R266) -/

/-- The ring links from a to b in ascending order; r is the link between Cr and the next die, 8 + d the inner link of Cd. -/
def ringPath (a b : Nat) : List Nat := (List.range ((b + 8 - a) % 8)).map fun i => (a + i) % 8

/-- The links of the route from a to b with this code of VKN_ROUTE, in the order of travel. -/
def linksOf (a b code : Nat) : List Nat :=
  let d := if a = 8 then b else a
  let way (l : List Nat) := if a = 8 then l else l.reverse
  match code with
  | 1 => ringPath a b
  | 2 => (ringPath b a).reverse
  | 3 => [8 + d]
  | 4 => way [8 + (d + 1) % 8, d]
  | 5 => way [8 + (d + 7) % 8, (d + 7) % 8]
  | _ => []

/-- The ports at the two ends of a link (Table 10.1). -/
def linkPorts (l : Nat) : List (Nat × Nat) := if l < 8 then [(l, 1), ((l + 1) % 8, 0)] else [(l - 8, 2), (8, l - 8)]

def State.portState (s : State) (k p : Nat) : Nat := s.fld (VKN_PSTATUS k p) VKN_PSTATUS_STATE

/-- The code of VKN_ROUTE from a to b. -/
def State.routeCode (s : State) (a b : Nat) : Nat := (s.rd (VKN_ROUTE a)).toNat / 16 ^ b % 16

/-- The messages of w that are still on their way. -/
def State.stillOn (s : State) (w : OnWay) : OnWay :=
  { w with stores := w.stores.filter s.store.outStores.contains, ops := w.ops.filter s.links.ops.contains
           events := w.events.filter s.stroke.inFlight.contains, ctls := w.ctls.filter s.links.ctlReads.contains
           notes := w.notes.filter s.links.notes.contains, rsps := w.rsps.filter s.vekin.rsp.contains }

/-- Source and destination die of every message in w. -/
def OnWay.pairs (w : OnWay) : List (Nat × Nat) :=
  (w.stores.map fun o => (o.tile / 32, dieOf o.addr)) ++ (w.ops.map fun o => (o.tile / 32, o.buckle / 2048)) ++
  (w.events.map fun e => (8, e.die)) ++ (w.ctls.map fun r => (r.tile / 32, dieOf r.addr)) ++
  (w.notes.map fun i => ((i.reg - dieBase 0) / 0x02000000, 8)) ++ w.rsps.map fun r => (r.src, r.dst)

/-- A message from die a to die b waits: a port on its way is in RECOVERY (R258), or one sent on an old route is not yet
delivered (R262). -/
def State.holds (s : State) (a b : Nat) : Bool :=
  a != b && (((linksOf a b (s.routeCode a b)).any fun l => (linkPorts l).any fun q => s.portState q.1 q.2 == 4) ||
    s.vekin.old.any fun w => (s.stillOn w).pairs.contains (a, b))

/-- A message from die a reaches die b now. -/
def State.flows (s : State) (a b : Nat) : Bool := s.reach a b && !s.holds a b

/-- The memory that an address of HBM or the bulk tier belongs to. -/
def memOf (a : Nat) : Nat := match regionOf a with | .hbm m => m | .bulk m => m | _ => 0

/-- The base of tile t's store window (R478). -/
def storeBase (t : Nat) : Nat := 0x031000000000 + t * 0x800000

/-- n bytes from a lie wholly in the populated store of tile t (R173). -/
def inStore (t a n : Nat) : Bool := storeBase t ≤ a && a + n ≤ storeBase t + 0x600000

/-- How an access ends without being performed. -/
inductive MemFail where
  /-- the uncorrectable-error response of the requester's class (R372) -/
  | uncorr
  /-- the access cause of the requester's class (R69, R205, R313) -/
  | access
  /-- the access waits at its home; its requester offers it again (R355, R373) -/
  | held
  deriving DecidableEq, Repr

/-! ### Registers of the storage units -/

/-- The memory is OFFLINE or UNTRAINED: its range faults (R204, R222). -/
def State.memDown (s : State) (m : Nat) : Bool :=
  s.fld (HBM_STATE m) HBM_STATE_TSTATE == 3 || s.fld (HBM_STATE m) HBM_STATE_TSTATE == 4

def noLine : Nat → Line := fun _ => Line.invalid
def noTree : Nat → BitVec 15 := fun _ => 0
def noNat : Nat → Nat := fun _ => 0
def noBool : Nat → Bool := fun _ => false
def noRow : Nat → RowInfo := fun _ => RowInfo.fresh
def noBurn : Nat → Burnisher := fun _ => Burnisher.idle
def noHist : Nat → List Word := fun _ => []

def State.line (s : State) (k : Nat) : Line := SMap.get noLine s.store.lines k
def State.setLine (s : State) (k : Nat) (l : Line) : State :=
  { s with store := { s.store with lines := SMap.set noLine s.store.lines k l } }
def State.badByte (s : State) (a : Nat) : Bool := SMap.get noBool s.store.badBytes a
def State.setBad (s : State) (a : Nat) (b : Bool) : State :=
  { s with store := { s.store with badBytes := SMap.set noBool s.store.badBytes a b } }
def noErrors : Nat → List (Nat × Nat) := fun _ => []

/-- The symbols in error of the codeword at a. -/
def State.cwErrors (s : State) (a : Nat) : List (Nat × Nat) := SMap.get noErrors s.store.codewords (a / 64)
def State.setErrors (s : State) (a : Nat) (es : List (Nat × Nat)) : State :=
  { s with store := { s.store with codewords := SMap.set noErrors s.store.codewords (a / 64) es } }

/-- What the decoder makes of the codeword at a: 0 good, 1 one symbol to correct, 2 uncorrectable. -/
def State.codeword (s : State) (a : Nat) : Nat :=
  match rsDecode (s.cwErrors a) with | .good => 0 | .corrects _ _ => 1 | .uncorrectable => 2

/-- The data symbols of the codeword at a change by these differences. -/
def State.differ (s : State) (a : Nat) (es : List (Nat × Nat)) : State :=
  es.foldl (fun s e =>
    let b := a / 64 * 64 + e.1
    if e.1 < 64 then s.setBytes b (Nat.xor (s.byte b).toNat e.2) 1 else s) s

/-- The data of the codeword at a as the decoder delivers it: corrected, or as found where it is uncorrectable. -/
def State.decoded (s : State) (a : Nat) : State :=
  let es := s.cwErrors a
  s.differ a (match rsDecode es with | .corrects p v => es ++ [(p, v)] | _ => es)

/-- The codeword at a is rewritten with check symbols computed from its data (R225). -/
def State.recoded (s : State) (a : Nat) : State := (s.decoded a).setErrors a []

/-- The codeword at a is rewritten with check symbols computed from its data as found, uncorrected (R471). -/
def State.recodedAsFound (s : State) (a : Nat) : State := (s.differ a (s.cwErrors a)).setErrors a []

/-- The symbol of the byte at a, and where `two` the next one too, turns bad by a difference that is free. -/
def State.spoil (s : State) (a : Nat) (two : Bool) : State :=
  let r := s.fresh
  let p := a % 64
  let q := if p = 63 then 62 else p + 1
  r.2.setErrors a ((p, 1 + r.1.toNat % 255) :: if two then [(q, 1 + r.1.toNat / 256 % 255)] else [])

/-- R471: the initial sweep has not yet passed the codeword of a. -/
def State.unswept (s : State) (m a : Nat) : Bool :=
  s.bit (HBM_STATE m) HBM_STATE_SWEEP && SMap.get noNat s.store.sweepPos m ≤ a / 64 * 64

/-- Some of n bytes from a in a tile store or scratch way has bad parity (R370). -/
def State.badIn (s : State) (a n : Nat) : Bool := s.store.badBytes.any fun p => a ≤ p.1 && p.1 < a + n

/-- Bytes written get good parity (R370). -/
def State.clearBad (s : State) (a n : Nat) : State :=
  { s with store := { s.store with badBytes := s.store.badBytes.filter fun p => !(a ≤ p.1 && p.1 < a + n) } }

/-! ### Lost lines and pages -/

def State.lineListed (s : State) (d a : Nat) : Bool :=
  (List.range 64).any fun e => s.bit (LLS_LOST d e) LLS_LOST_V && s.fld (LLS_LOST d e) LLS_LOST_LINE == a / 128

def State.pageListed (s : State) (d a : Nat) : Bool :=
  (List.range 16).any fun e => s.bit (RAS_LOSTPG d e) RAS_LOSTPG_V && s.fld (RAS_LOSTPG d e) RAS_LOSTPG_PAGE == a / 65536

/-- R216: the entry of the line of a is removed. -/
def State.unlist (s : State) (d a : Nat) : State :=
  (List.range 64).foldl (fun s e =>
    if s.bit (LLS_LOST d e) LLS_LOST_V && s.fld (LLS_LOST d e) LLS_LOST_LINE == a / 128
    then s.setf (LLS_LOST d e) LLS_LOST_V 0 else s) s

/-! ### DEV_STATUS.DEGRADED -/

/-- Block k has a port p (Table 10.1). -/
def isPort (k p : Nat) : Bool := (k < 8 && p < 3) || (k == 8 && p < 8)

def noMemInfo : Nat → MemInfo := fun _ => MemInfo.init
def State.memInfo (s : State) (m : Nat) : MemInfo := SMap.get noMemInfo s.store.memInfo m

-- log 170: DEDUCED, unsafe.
/-- The conditions under which R437, R374, R378 and R396 set DEGRADED. -/
def State.degraded (s : State) : Bool :=
  (List.range 9).any (fun k => (List.range 8).any fun p => isPort k p && (s.portState k p == 3 || s.portState k p == 5)) ||
  (List.range 64).any (fun m => s.fld (HBM_STATE m) HBM_STATE_TSTATE == 4 || (s.memInfo m).retired) ||
  (List.range 8).any (fun d => s.fld (LLS_WAYS d) LLS_WAYS_DIS ≠ 0 || s.bit (RAS_STATUS d) RAS_STATUS_FENCE) ||
  !s.placement.unhosted.isEmpty || !s.placement.noted.isEmpty || !s.ras.unlisted.isEmpty

-- log 170: DEDUCED, unsafe.
/-- DEGRADED shows them. -/
def State.showDegraded (s : State) : State := s.setf DEV_STATUS DEV_STATUS_DEGRADED (if s.degraded then 1 else 0)

-- log 170: DEDUCED, unsafe.
/-- R374: a lost-page entry of die d is freed: the fence, if there is one, ends. -/
def State.unfence (s : State) (d : Nat) : State :=
  if s.bit (RAS_STATUS d) RAS_STATUS_FENCE then (s.setf (RAS_STATUS d) RAS_STATUS_FENCE 0).showDegraded else s

-- log 171: DESIGN CHOICE, unsafe.
/-- R374: the page of a enters the lost-page table, with a RAS event, or the die is fenced. -/
def State.losePage (s : State) (d a : Nat) : State :=
  if s.pageListed d a then s else
  match (List.range 16).find? fun e => !s.bit (RAS_LOSTPG d e) RAS_LOSTPG_V with
  | some e =>
    let s := s.wr (RAS_LOSTPG d e) (BitVec.ofNat 64 (2 ^ 63 + a / 65536 * 65536))
    (s.rasEvent d 0x18 2 0 0 (a / 65536 * 65536)).rasNotice d 0 0x18 (a / 65536)
  | none =>
    let s := s.raise (RAS_STATUS d) RAS_STATUS_LOSTPG_FULL
    let s := (s.setf (RAS_STATUS d) RAS_STATUS_FENCE 1).showDegraded
    s.rasEvent d 0x19 5 0 0 (a / 128 * 128)

/-- The Burnisher of die d. -/
def State.burn (s : State) (d : Nat) : Burnisher := SMap.get noBurn s.store.burn d
def State.setBurn (s : State) (d : Nat) (b : Burnisher) : State :=
  { s with store := { s.store with burn := SMap.set noBurn s.store.burn d b } }

/-- A Burnisher command that reports lost lines covers the line of a (Table 8.4; PREFETCH reports nothing, R211). -/
def BurnCmd.covers (c : BurnCmd) (a : Nat) : Bool :=
  8 ≤ c.op || (c.op ≠ 5 && c.addr ≤ a && a < c.addr + 128 * c.len)

/-- A line lost while a Burnisher command runs over it gives that command RESULT LOST. -/
def State.burnLost (s : State) (d a : Nat) : State :=
  match (s.burn d).running with
  | some c => if c.covers a then s.setBurn d { s.burn d with lost := true } else s
  | none => s

-- log 171: DESIGN CHOICE, unsafe.
/-- R215, R216, R374: the line of a is lost and enters the lost-line table of its home, or finds it full. -/
def State.loseLine (s : State) (d a : Nat) : State :=
  let s := (s.burnLost d a).rasEvent d 0x08 2 0 0 (a / 128 * 128)
  if s.lineListed d a then s else
  match (List.range 64).find? fun e => !s.bit (LLS_LOST d e) LLS_LOST_V with
  | some e => s.wr (LLS_LOST d e) (BitVec.ofNat 64 (2 ^ 63 + a / 128 * 128))
  | none =>
    let s := if s.bit (LLS_STATUS d) LLS_STATUS_LOST_FULL then s else s.rasNotice d 0 0x08 (a / 65536)
    (s.raise (LLS_STATUS d) LLS_STATUS_LOST_FULL).losePage d a

/-- The granule of a waits for the partner's copy (R373). -/
def State.restoring (s : State) (a : Nat) : Bool := s.store.restores.any fun q => q.granule == a / 4096

/-! ### The storage code -/

/-- The row, and bank, of an address in its memory (Tables 9.1 and 9.2), as one number each. -/
def bankOf (m a : Nat) : Nat :=
  if m < 16 then (a % 0xC00000000 / 65536 % 48) * 64 + a % 65536 / 256 % 64
  else let q := (a - 0x010000000000) % 0x3000000000 / 65536
       (q / 12 % 16) * 2 + q % 12 % 2
def rowOf (m a : Nat) : Nat :=
  if m < 16 then ((a % 0xC00000000 / 65536 / 48) * 4096 + bankOf m a) * 64 + m
  else let q := (a - 0x010000000000) % 0x3000000000 / 65536
       ((q / 192) * 4096 + bankOf m a) * 64 + m

def State.setMemInfo (s : State) (m : Nat) (i : MemInfo) : State :=
  { s with store := { s.store with memInfo := SMap.set noMemInfo s.store.memInfo m i } }

def State.row (s : State) (k : Nat) : RowInfo := SMap.get noRow s.store.rows k
def State.setRow (s : State) (k : Nat) (r : RowInfo) : State :=
  { s with store := { s.store with rows := SMap.set noRow s.store.rows k r } }
def State.sparesUsed (s : State) (m b : Nat) : Nat := SMap.get noNat s.store.sparesUsed (m * 4096 + b)

/-- The first page of the bank of address a of memory m (R231). -/
def bankFirst (m a : Nat) : Nat :=
  if m < 16 then a / 0xC00000000 * 0xC00000000 + a % 0xC00000000 / 65536 % 48 * 65536
  else
    let b := a - 0x010000000000
    let q := b % 0x3000000000 / 65536
    0x010000000000 + b / 0x3000000000 * 0x3000000000 + (q / 12 % 16 * 12 + q % 12) * 65536

/-- The page of a is retired, by itself, with its bank or with its whole memory (R230, R231, R235, R378). -/
def State.pageRetired (s : State) (m a : Nat) : Bool :=
  (s.ras.retired ++ s.ras.unlisted).any fun r =>
    (r.kind == 1 && r.addr == a / 65536 * 65536) || (r.kind == 2 && r.unit == m && r.addr == bankFirst m a) ||
    ((r.kind == 3 || r.kind == 4) && r.unit == m)

/-- The retire-list entry of a page or bank of memory m (Table 15.3). -/
def State.retireMem (s : State) (m kind cause addr : Nat) : State :=
  let r : RetireRec :=
    { kind := kind, cause := cause, addr := addr, stroke := s.now.toNat % 2 ^ 32, image := s.imageCovers addr 1, unit := m }
  (s.rasEvent (memDie m) cause 4 m 0 addr).retire (memDie m) r

/-- The bank of a has been retired. -/
def State.bankRetired (s : State) (m a : Nat) : Bool :=
  (s.ras.retired ++ s.ras.unlisted).any fun r => r.kind == 2 && r.unit == m && r.addr == bankFirst m a

/-- R229: the row k of memory m is written into its spare: codewords with one bad symbol are corrected, the others but
that of a are restored or their lines listed. -/
def State.rewriteRow (s : State) (m k a : Nat) : State :=
  s.store.codewords.foldl (fun s q =>
    let w := q.1 * 64
    if memOf w = m ∧ rowOf m w = k then
      if s.codeword w < 2 then s.recoded w
      else if w = a / 64 * 64 then s
      else let asked := s.askPartner w; if asked.2 then asked.1 else asked.1.loseLine (memDie m) w
    else s) s

/-- R228 to R231: the row of address a of memory m fails: soft repair the first time, then retirement of its page; retirement
of the bank when no spare row is left. -/
def State.rowFailure (s : State) (m a : Nat) : State :=
  let k := rowOf m a
  let b := bankOf m a
  let page := a / 65536 * 65536
  if (s.row k).repaired then (if s.pageRetired m a then s else s.retireMem m 1 0x0E page)
  else if s.sparesUsed m b < Config.spareRows m b then
    let used := s.sparesUsed m b + 1
    let s := { s with store := { s.store with sparesUsed := SMap.set noNat s.store.sparesUsed (m * 4096 + b) used } }
    let s := s.setRow k { corrected := [], repaired := true, hard := false }
    let s := s.stick (HBM_REPAIR m) HBM_REPAIR_SOFT 1
    let s := s.setf (HBM_REPAIR m) HBM_REPAIR_PENDING (s.fld (HBM_REPAIR m) HBM_REPAIR_PENDING + 1)
    let left := Config.spareRows m b - used
    let s := s.setf (HBM_REPAIR m) HBM_REPAIR_SPARE_MIN (min left (s.fld (HBM_REPAIR m) HBM_REPAIR_SPARE_MIN))
    (s.rasEvent (memDie m) 0x0D 1 m 0 page).rewriteRow m k a
  else if s.bankRetired m a then s
  else s.retireMem m 2 0x0F (bankFirst m a)

/-- R228: a corrected access to the row of a counts; the fourth within 65,536 strokes is a row failure. -/
def State.rowCorrected (s : State) (m a : Nat) : State :=
  let k := rowOf m a
  let recent := (s.row k).corrected.filter fun n => (s.now - n).toNat < 65536
  let hist := s.now :: recent
  if 4 ≤ hist.length then ((s.setRow k { s.row k with corrected := [] })).rowFailure m a
  else s.setRow k { s.row k with corrected := hist }

/-- R225, R227: the codeword at a is read from memory m: 0 where it is good, 1 corrected, 2 uncorrectable, which is logged
with SEV sev, is a row failure and has its line listed. Until the sweep passes it, a codeword counts toward nothing (R471). -/
def State.readCodeword (s : State) (m a sev : Nat) : State × Nat :=
  if s.unswept m a then (s, 0) else
  match s.codeword a with
  | 0 => (s, 0)
  | 1 =>
    let s := s.stick (HBM_CNT_CORR m) HBM_CNT_CORR_COUNT 1
    (s.rasEvent (memDie m) (if m < 16 then 0x09 else 0x0B) 0 m 0 (a / 64 * 64), 1)
  | _ =>
    let s := s.stick (HBM_CNT_UNCORR m) HBM_CNT_UNCORR_COUNT 1
    let s := s.rasEvent (memDie m) (if m < 16 then 0x0A else 0x0C) sev m 0 (a / 64 * 64)
    let s := s.rowFailure m a
    let asked := s.askPartner a
    if asked.2 then (asked.1, 2) else (asked.1.loseLine (memDie m) a, 2)

/-- The codewords in a list are read from memory m: the worst result. -/
def State.readEach (s : State) (m sev : Nat) : List Nat → State × Nat
  | [] => (s, 0)
  | c :: cs =>
    let r := s.readCodeword m c sev
    let q := State.readEach r.1 m sev cs
    (q.1, max r.2 q.2)

/-- One access reads codewords of one line: true when one is uncorrectable. An access that corrects counts once toward its
row (R228). -/
def State.readCodewords (s : State) (m sev : Nat) (cs : List Nat) : State × Bool :=
  let fixed := cs.any fun c => !s.unswept m c && s.codeword c == 1
  let r := s.readEach m sev cs
  (if fixed then r.1.rowCorrected m (cs.headD 0) else r.1, r.2 == 2)

/-! ### The LLS slice -/

/-- R198: the set of a home address. -/
def setOf (a : Nat) : Nat := Nat.xor (Nat.xor (a / 128 % 65536) (a / 2 ^ 23 % 65536)) (a / 2 ^ 39 % 512)

def lineKey (d a w : Nat) : Nat := (d * 65536 + setOf a) * 16 + w

/-- R200: way w of die d receives fills. -/
def State.eligible (s : State) (d w : Nat) : Bool :=
  let v := s.rd (LLS_WAYS d)
  !(v.getLsbD w || v.getLsbD (16 + w) || v.getLsbD (32 + w))

/-- The way that holds the line of a, if one does. -/
def State.hit (s : State) (d a : Nat) : Option Nat :=
  (List.range 16).find? fun w => let l := s.line (lineKey d a w); l.valid && l.addr == a / 128 * 128

/-- R200: touch(w), node n from level l down. -/
def treeTouch (t : BitVec 15) (w : Nat) : Nat → Nat → BitVec 15
  | _, 0 => t
  | n, l + 1 =>
    let b := w / 2 ^ l % 2
    let bit := BitVec.ofNat 15 (2 ^ (n - 1))
    treeTouch (if b = 1 then t &&& ~~~ bit else t ||| bit) w (2 * n + b) l

/-- R200: some eligible way lies below node n, whose ways are `span` in number. -/
def State.eligibleBelow (s : State) (d n span : Nat) : Bool :=
  (List.range 16).any fun w => s.eligible d w && (16 + w) / span == n

/-- R200: victim(), from node n. -/
def State.treeVictim (s : State) (d : Nat) (t : BitVec 15) : Nat → Nat → Nat
  | n, 0 => n - 16
  | n, l + 1 =>
    let b := if t.getLsbD (n - 1) then 1 else 0
    let b := if s.eligibleBelow d (2 * n + b) (2 ^ l) then b else 1 - b
    s.treeVictim d t (2 * n + b) l

def State.tree (s : State) (d a : Nat) : BitVec 15 := SMap.get noTree s.store.trees (d * 65536 + setOf a)
def State.touch (s : State) (d a w : Nat) : State :=
  { s with store := { s.store with trees := SMap.set noTree s.store.trees (d * 65536 + setOf a) (treeTouch (s.tree d a) w 1 4) } }

/-- A whole line is written to memory: its codewords become good (R225). -/
def State.storeLine (s : State) (a : Nat) (v : BitVec 1024) : State :=
  ((s.setBytes a v.toNat 128).setErrors a []).setErrors (a + 64) []

-- log 60: DEDUCED, unsafe.
/-- R217: a parity event of way w of die d counts against the way, whose latest eight stay on record. -/
def State.parityEvent (s : State) (d w : Nat) : State :=
  let s := s.stick (LLS_PAR d w) LLS_PAR_COUNT 1
  let s := s.rasEvent d 0x06 0 w 0 0
  let hist := (s.now :: (SMap.get noHist s.store.parHist (d * 16 + w)).filter fun n => (s.now - n).toNat < 65536).take 8
  { s with store := { s.store with parHist := SMap.set noHist s.store.parHist (d * 16 + w) hist } }

/-- R375: both tag copies of the line in way key k are bad: it is invalidated, TAGS_VALID and EN are cleared. -/
def State.tagFault (s : State) (d k : Nat) : State :=
  let s := (s.setLine k Line.invalid).setf (LLS_STATUS d) LLS_STATUS_TAGS_VALID 0
  let s := s.raise (RAS_STATUS d) RAS_STATUS_TAG2
  let s := s.rasEvent d 0x07 5 (k % 16) 0 (k / 16 % 65536)
  if s.bit (LLS_CTRL d) LLS_CTRL_EN then
    let s := (s.setf (LLS_CTRL d) LLS_CTRL_EN 0).setf (LLS_STATUS d) LLS_STATUS_ACTIVE 1
    { s with drains := s.drains ++ [⟨.store d, 0, false⟩] }
  else s

/-- The line in way key k, where it is dirty, is written back, or is lost when its data is bad or its memory refuses it
(R204, R215). -/
def State.writeBack (s : State) (d k : Nat) : State :=
  let l := s.line k
  let w := k % 16
  if !l.valid || !l.dirty then s
  else if l.bad = 3 then s.tagFault d k
  else if l.bad = 1 then ((s.setLine k Line.invalid).parityEvent d w).loseLine d l.addr
  else if s.memDown (memOf l.addr) then (s.loseLine d l.addr).setLine k Line.invalid
  else
    let s := if l.bad = 2 then s.parityEvent d w else s
    let s := (s.storeLine l.addr l.data).setLine k { l with dirty := false, bad := 0 }
    s.wrap (LLS_CNT_WB d) LLS_CNT_WB_COUNT 1 (LLS_STATUS d) LLS_STATUS_WB_OVF

/-- R200: the way a fill of the line of a takes. -/
def State.fillWay (s : State) (d a : Nat) : Option Nat :=
  if (List.range 16).any (s.eligible d) then
    match (List.range 16).find? fun w => s.eligible d w && !(s.line (lineKey d a w)).valid with
    | some w => some w
    | none => some (s.treeVictim d (s.tree d a) 1 4)
  else none

/-- R215, R375: what is wrong with the parity of the line in way w is found at this access: true when the data is
lost. -/
def State.checkLine (s : State) (d a w : Nat) : State × Bool :=
  let k := lineKey d a w
  let l := s.line k
  match l.bad with
  | 0 => (s, false)
  | 2 => ((s.setLine k { l with bad := 0 }).parityEvent d w, false)
  | 1 =>
    if l.dirty then (((s.setLine k Line.invalid).parityEvent d w).loseLine d l.addr, true)
    else ((s.setLine k Line.invalid).parityEvent d w, false)
  | _ => (s.tagFault d k, false)

/-- The allocation bit of a requester class (LLS_ALLOC). -/
def clsFld : Cls → Fld
  | .scalar => LLS_ALLOC_SCALAR | .dm => LLS_ALLOC_DM | .cxs => LLS_ALLOC_CXS
  | .host => LLS_ALLOC_HOST | .mirror => LLS_ALLOC_MIRROR | .crew => LLS_ALLOC_CREW

def State.allocates (s : State) (d : Nat) (c : Cls) : Bool :=
  s.bit (LLS_CTRL d) LLS_CTRL_EN && s.bit (LLS_ALLOC d) (clsFld c)

/-- The error armed by RAS_INJECT of die d is met by an access to n bytes at a (Table 15.7): two bad symbols or one in
the codeword, or bad parity in the line, the scratch byte or the stored byte. -/
def State.meetInjected (s : State) (d a n : Nat) : State :=
  let v := s.rd (RAS_INJECT d)
  let at_ := RAS_INJECT_ADDR.get v
  if !(s.bit (RAS_INJECT d) RAS_INJECT_ARM) || at_ < a || a + n ≤ at_ then s
  else
    let s := s.setf (RAS_INJECT d) RAS_INJECT_ARM 0
    match RAS_INJECT_SOURCE.get v with
    | 0x01 => s.rasEvent d 0x01 1 0 0 at_
    | 0x02 => s.setBad at_ true
    | 0x06 =>
      match regionOf at_ with
      | .scratch _ _ => s.setBad at_ true
      | _ => match s.hit d at_ with
        | some w => s.setLine (lineKey d at_ w) { s.line (lineKey d at_ w) with bad := 1 }
        | none => s
    | 0x09 => if s.codeword at_ = 0 then s.spoil at_ false else s
    | 0x0B => if s.codeword at_ = 0 then s.spoil at_ false else s
    | _ => s.spoil at_ true

/-- Memory m or its die refuses every access: OFFLINE, UNTRAINED, fenced (R204, R222, R374). -/
def State.homeDown (s : State) (d m : Nat) : Bool := s.memDown m || s.bit (RAS_STATUS d) RAS_STATUS_FENCE

/-- The codewords of the line of a that n bytes at offset o touch. -/
def cwTouched (a o n : Nat) : List Nat :=
  (if o < 64 ∧ 0 < n then [a] else []) ++ (if 64 < o + n then [a + 64] else [])

/-- No codeword of the line is uncorrectable, so a fill can take it. -/
def State.fillable (s : State) (m a : Nat) : Bool :=
  (s.unswept m a || s.codeword a < 2) && (s.unswept m (a + 64) || s.codeword (a + 64) < 2)

/-- The line of a in memory, as the decoder delivers it. -/
def State.lineBytes (s : State) (a : Nat) : BitVec 1024 :=
  BitVec.ofNat 1024 (((s.decoded a).decoded (a + 64)).bytes a 128)

/-- A fill of way w with the line of a (R199, R200): the victim is written back. -/
def State.fill (s : State) (d w a : Nat) (v : BitVec 1024) (dirty : Bool) : State :=
  let k := lineKey d a w
  ((s.writeBack d k).setLine k { valid := true, dirty := dirty, addr := a, data := v, bad := 0 }).touch d a w

/-- The way that an access of class c which misses fills, where its class allocates and a way is eligible; `whole` where it
writes the whole line and reads none of it. -/
def State.missWay (s : State) (c : Cls) (m d a : Nat) (whole : Bool) : Option Nat :=
  if s.allocates d c && (whole || s.fillable m a) then s.fillWay d a else none

def State.countHit (s : State) (d : Nat) : State :=
  s.wrap (LLS_CNT_HIT d) LLS_CNT_HIT_COUNT 1 (LLS_STATUS d) LLS_STATUS_HIT_OVF
def State.countMiss (s : State) (d : Nat) : State :=
  s.wrap (LLS_CNT_MISS d) LLS_CNT_MISS_COUNT 1 (LLS_STATUS d) LLS_STATUS_MISS_OVF

/-- The parity of the line of a is checked where the slice holds it: true when its data is lost. -/
def State.checkHit (s : State) (d a : Nat) : State × Bool :=
  match s.hit d a with | some w => s.checkLine d a w | none => (s, false)

-- log 61: DEDUCED, unsafe.
/-- R197, R199: n bytes at offset o of the line at a (128-byte aligned, HBM or bulk) are read at the home LLS. -/
def State.lineRead (s : State) (c : Cls) (a o n : Nat) : State × Except MemFail Nat :=
  let d := homeDie a
  let m := memOf a
  let s := s.meetInjected d (a + o) n
  if s.homeDown d m then (s.rasEvent d 0x10 2 m 0 a, .error .uncorr)
  else if s.restoring a then (s, .error .held)
  else if s.lineListed d a || s.pageListed d a then (s, .error .uncorr)
  else
    let chk := s.checkHit d a
    let s := chk.1
    if chk.2 then (s, .error .uncorr) else
    match s.hit d a with
    | some w =>
      let s := s.countHit d
      let s := if s.bit (LLS_ALLOC d) (clsFld c) then s.touch d a w else s
      (s, .ok ((s.line (lineKey d a w)).data.toNat / 256 ^ o % 256 ^ n))
    | none =>
      let s := s.countMiss d
      match s.missWay c m d a false with
      | some w =>
        let s := (s.readCodewords m 2 [a, a + 64]).1
        let v := s.lineBytes a
        (s.fill d w a v false, .ok (v.toNat / 256 ^ o % 256 ^ n))
      | none =>
        let r := s.readCodewords m 2 (cwTouched a o n)
        if r.2 then (r.1, .error (if r.1.restoring a then .held else .uncorr))
        else (r.1, .ok ((r.1.lineBytes a).toNat / 256 ^ o % 256 ^ n))

/-! ### Dirty granules and shadow copies (R353, R355) -/

/-- The line at a as the home itself copies it: none where it is lost or bad (R215, R216, R372). -/
def State.copyLine (s : State) (a : Nat) : State × Option Nat :=
  let d := homeDie a
  let m := memOf a
  if s.lineListed d a || s.pageListed d a then (s, none) else
  let chk := s.checkHit d a
  if chk.2 then (chk.1, none) else
  match chk.1.hit d a with
  | some w => (chk.1, some (chk.1.line (lineKey d a w)).data.toNat)
  | none =>
    let r := chk.1.readCodewords m 2 [a, a + 64]
    (r.1, if r.2 then none else some (r.1.lineBytes a).toNat)

/-- The lines of granule g joined in address order, by the read f of one line; none where one cannot be read. -/
def State.granuleLines (s : State) (f : State → Nat → State × Option Nat) (g : Nat) : State × Option (BitVec 32768) :=
  let r := (List.range 32).foldl (fun (p : State × Option Nat) i =>
    match p.2 with
    | none => p
    | some v => let q := f p.1 (4096 * g + 128 * i); (q.1, q.2.map fun x => v + x * 256 ^ (128 * i))) (s, some 0)
  (r.1, r.2.map (BitVec.ofNat 32768))

/-- The granule is frozen, its frame has not been sent, and no shadow copy holds it: a write must copy it first (R355). -/
def State.mustCopy (s : State) (g mode : Nat) : Bool :=
  let mi := s.mirror
  mode != 2 && SMap.get noFlag mi.frozen g && (match mi.ckpt with | some c => !c.inFlight.contains g | none => false) &&
  !mi.shadow.any (·.1 == g)

/-- R355: a write at a must wait, because the shadow area is full. -/
def State.noSlot (s : State) (a : Nat) : Bool :=
  match s.regionMode a with
  | none => false
  | some mode => s.mustCopy (a / 4096) mode && s.shadowSlots ≤ s.mirror.shadow.length

/-- R353, R355: a write at a that need not wait copies its granule where it must, and marks it. -/
def State.mirrorMark (s : State) (a : Nat) : State :=
  let g := a / 4096
  match s.regionMode a with
  | none => s
  | some mode =>
    let s := if s.mustCopy g mode then
        let r := s.granuleLines State.copyLine g
        { r.1 with mirror := { r.1.mirror with shadow := r.1.mirror.shadow ++ [(g, r.2)] } }
      else s
    if mode < 4 then { s with mirror := { s.mirror with cur := SMap.set noFlag s.mirror.cur g true } } else s

/-! ### Writes -/

-- log 61: DEDUCED, unsafe.
/-- A write waits at its home; the first time it waits for a shadow slot counts in MIR_CNT_STALL (R355). -/
def State.holdWrite (s : State) (h : HeldWrite) : State :=
  let other := { h with stall := !h.stall }
  if s.store.held.contains h then s
  else
    let s := { s with store := { s.store with held := s.store.held.filter (· != other) ++ [h] } }
    if h.stall then s.stick MIR_CNT_STALL MIR_CNT_STALL_COUNT 1 else s

/-- The write no longer waits. -/
def State.unhold (s : State) (c : Cls) (who a n : Nat) : State :=
  { s with store := { s.store with held := s.store.held.filter fun h => !(h.cls == c && h.who == who && h.addr == a && h.len == n) } }

/-- The requester has withdrawn its waiting writes. -/
def State.unholdAll (s : State) (c : Cls) (who : Nat) : State :=
  { s with store := { s.store with held := s.store.held.filter fun h => !(h.cls == c && h.who == who) } }

-- log 160: DEDUCED, unsafe.
/-- R369: the data of a write of n bytes at a is still bad after the resends. -/
def State.dataBad (s : State) (a n : Nat) : Bool := s.store.badData.any fun b => a ≤ b && b < a + n
-- log 160: DEDUCED, unsafe.
/-- Its two resends in block d count as detections of their own (R368, R379), and it has been met. -/
def State.dataMet (s : State) (d a n : Nat) : State :=
  let s := (s.rasCount d 1).rasCount d 1
  { s with store := { s.store with badData := s.store.badData.filter fun b => !(a ≤ b && b < a + n) } }

/-- The bytes v of length n merged into a line at offset o. -/
def mergeLine (l : BitVec 1024) (o n v : Nat) : BitVec 1024 :=
  let mask := BitVec.ofNat 1024 ((256 ^ n - 1) * 256 ^ o)
  (l &&& ~~~ mask) ||| BitVec.ofNat 1024 (v % 256 ^ n * 256 ^ o)

/-- The SEV of a write that fails: UNREPORTED where its class has no completion (R225, R369). -/
def unheardSev : Cls → Nat
  | .scalar => 3
  | .host => 3
  | _ => 2

-- log 160: DEDUCED, unsafe.
/-- R369: the line of a write whose data stays bad is invalidated and lost. -/
def State.lineSpoiled (s : State) (c : Cls) (d a o n : Nat) : State :=
  let s := (s.dataMet d (a + o) n).rasEvent d 0x01 (unheardSev c) 0 0 (a + o)
  let s := match s.hit d a with | some w => s.setLine (lineKey d a w) Line.invalid | none => s
  s.loseLine d a

/-- R197, R199, R225: a write that the line at a takes now: n bytes v at offset o. A write of the whole line replaces its data
without reading it. -/
def State.linePerform (s : State) (c : Cls) (a o n v : Nat) : State × Option MemFail :=
  let d := homeDie a
  let m := memOf a
  let chk := match s.hit d a with
    | some w => if n = 128 ∧ (s.line (lineKey d a w)).bad = 1 then (s, false) else s.checkLine d a w
    | none => (s, false)
  let s := chk.1
  if chk.2 then (s, some .uncorr) else
  match s.hit d a with
  | some w =>
    let k := lineKey d a w
    let s := (s.mirrorMark (a + o)).countHit d
    let s := if s.bit (LLS_ALLOC d) (clsFld c) then s.touch d a w else s
    (s.setLine k { valid := true, dirty := true, addr := a, data := mergeLine (s.line k).data o n v, bad := 0 }, none)
  | none =>
    let s := s.countMiss d
    let whole := n == 128
    match s.missWay c m d a whole with
    | some w =>
      let s := if whole then s else (s.readCodewords m 2 [a, a + 64]).1
      let s := s.mirrorMark (a + o)
      let l := if whole then 0 else s.lineBytes a
      (s.fill d w a (mergeLine l o n v) true, none)
    | none =>
      let cws := cwTouched a o n
      let r := s.readCodewords m (unheardSev c) (cws.filter fun q => !(a + o ≤ q && q + 64 ≤ a + o + n))
      if r.2 then (r.1, some (if r.1.restoring a then .held else .uncorr))
      else
        let s := cws.foldl (fun s q => if s.unswept m q then s.recodedAsFound q else s.recoded q) (r.1.mirrorMark (a + o))
        (s.setBytes (a + o) v n, none)

-- log 61: DEDUCED, unsafe.
/-- A write of n bytes v at offset o of the line at a (HBM or bulk) by requester `who` of class c reaches the home LLS. -/
def State.lineWrite (s : State) (c : Cls) (who a o n v : Nat) : State × Option MemFail :=
  let d := homeDie a
  let m := memOf a
  let s := s.meetInjected d (a + o) n
  let wait (stall : Bool) := (s.holdWrite ⟨c, who, a + o, n, stall⟩, some MemFail.held)
  let past := s.unhold c who (a + o) n
  if s.homeDown d m then (past.rasEvent d 0x10 2 m 0 a, some .uncorr)
  else if n < 128 ∧ (s.lineListed d a || s.pageListed d a) then
    (if unheardSev c = 3 then past.rasEvent d 0x08 3 0 0 a else past, some .uncorr)
  else if c ≠ .mirror ∧ s.imageCovers (a + o) n then (past, some .access)
  else if c ≠ .mirror ∧ s.restoring a then wait false
  else if s.noSlot (a + o) then wait true
  else if s.dataBad (a + o) n then (past.lineSpoiled c d a o n, some .uncorr)
  else
    match past.linePerform c a o n v with
    | (s, none) => (if n = 128 then s.unlist d a else s, none)
    | (s, some .held) => (s.holdWrite ⟨c, who, a + o, n, false⟩, some .held)
    | r => r

/-! ### Accesses of any length -/

/-- The lines that n bytes at a touch, as (line, offset, bytes); fuel is at least the number of lines. -/
def linesOf : Nat → Nat → Nat → List (Nat × Nat × Nat)
  | 0, _, _ => []
  | f + 1, a, n =>
    if n = 0 then [] else
    let o := a % 128
    let k := min n (128 - o)
    (a / 128 * 128, o, k) :: linesOf f (a + k) (n - k)

/-- Scratch bytes are readable: the way is scratch and not moving (R205). -/
def State.scratchOk (s : State) (d w : Nat) : Bool :=
  (s.rd (LLS_WAYS d)).getLsbD (16 + w) && !(s.rd (LLS_WAYS d)).getLsbD w

/-- A parity event in a scratch byte is met by a reader (R218). -/
def State.scratchRead (s : State) (d w a n : Nat) : State × Except MemFail Nat :=
  let s := s.meetInjected d a n
  if !s.scratchOk d w then (s, .error .access)
  else if s.bit (RAS_STATUS d) RAS_STATUS_FENCE then (s, .error .uncorr)
  else if s.badIn a n then (s.parityEvent d w, .error .uncorr)
  else (s, .ok (s.bytes a n))

/-- One piece of an access, inside one line, in any memory that the LLS slices serve. -/
def State.pieceRead (s : State) (c : Cls) (a n : Nat) : State × Except MemFail Nat :=
  match regionOf a with
  | .hbm _ => s.lineRead c (a / 128 * 128) (a % 128) n
  | .bulk _ => s.lineRead c (a / 128 * 128) (a % 128) n
  | .scratch d w => s.scratchRead d w a n
  | _ => (s, .error .access)

-- log 160: DEDUCED, unsafe.
/-- n bytes v reach a tile store or scratch way: written with good parity (R370), or, where their data stays bad, turned into
bytes with bad parity and recorded with SEV sev: true then (R369). -/
def State.bytesWrite (s : State) (a n v sev : Nat) : State × Bool :=
  if s.dataBad a n then
    let unit := match regionOf a with | .store t => t | .scratch _ w => w | _ => 0
    let s := (s.dataMet (dieOf a) a n).rasEvent (dieOf a) 0x01 sev unit 0 a
    ((List.range n).foldl (fun s i => s.setBad (a + i) true) s, true)
  else ((s.setBytes a v n).clearBad a n, false)

def State.pieceWrite (s : State) (c : Cls) (who a n v : Nat) : State × Option MemFail :=
  match regionOf a with
  | .hbm _ => s.lineWrite c who (a / 128 * 128) (a % 128) n v
  | .bulk _ => s.lineWrite c who (a / 128 * 128) (a % 128) n v
  | .scratch d w =>
    if s.scratchOk d w then
      if s.bit (RAS_STATUS d) RAS_STATUS_FENCE then (s, some .uncorr)
      else let r := s.bytesWrite a n v (unheardSev c); (r.1, if r.2 then some .uncorr else none)
    else (s, some .access)
  | _ => (s, some .access)

/-- Pieces of a read joined in address order, or the first that fails. -/
def State.readPieces (s : State) (c : Cls) : List (Nat × Nat × Nat) → State × Except (MemFail × Nat × Nat) Nat
  | [] => (s, .ok 0)
  | (l, o, k) :: ps =>
    match s.pieceRead c (l + o) k with
    | (s, .error e) => (s, .error (e, l + o, k))
    | (s, .ok v) =>
      match State.readPieces s c ps with
      | (s, .error e) => (s, .error e)
      | (s, .ok w) => (s, .ok (v + w * 256 ^ k))

/-- Pieces of a write in address order, or the first that is not performed, with its value. -/
def State.writePieces (s : State) (c : Cls) (who v : Nat) : List (Nat × Nat × Nat) → State × Option (MemFail × Nat × Nat × Nat)
  | [] => (s, none)
  | (l, o, k) :: ps =>
    match s.pieceWrite c who (l + o) k (v % 256 ^ k) with
    | (s, none) => State.writePieces s c who (v / 256 ^ k) ps
    | (s, some e) => (s, some (e, l + o, k, v % 256 ^ k))

/-- n bytes read at device address a of HBM, the bulk tier or LLS scratch, for a requester of class c (R197). Where a piece
cannot be read, that piece alone has been tried. -/
def State.memRead (s : State) (c : Cls) (a n : Nat) : State × Except (MemFail × Nat) Nat :=
  match s.readPieces c (linesOf (n / 128 + 2) a n) with
  | (_, .error (e, b, k)) => ((s.pieceRead c b k).1, .error (e, b))
  | (s, .ok v) => (s, .ok v)

/-- n bytes v written there by requester `who` of class c: all of them, or none (R177), the refused piece alone having been
tried. -/
def State.memWrite (s : State) (c : Cls) (who a n v : Nat) : State × Option (MemFail × Nat) :=
  match s.writePieces c who v (linesOf (n / 128 + 2) a n) with
  | (_, some (e, b, k, w)) => ((s.pieceWrite c who b k w).1, some (e, b))
  | (s, none) => (s, none)

/-- R376: the 128-byte unit of a bad stored byte of tile t is remembered; the fourth distinct one within 65,536 strokes marks
the physical tile. -/
def State.noteBad (s : State) (t a : Nat) : State :=
  let p := s.physOf t
  let old := s.ras.badUnits.filter fun q => (s.now - q.2.2).toNat < 65536 && !(q.1 == p && q.2.1 == a % 0x800000 / 128)
  let l := old ++ [(p, a % 0x800000 / 128, s.now)]
  let s := { s with ras := { s.ras with badUnits := l } }
  if 4 ≤ (l.filter fun q => q.1 == p).length then s.markTile p else s

/-- R370: n bytes of a tile store are read through any port. -/
def State.storeRead (s : State) (t a n : Nat) : State × Except (MemFail × Nat) Nat :=
  let d := t / 32
  let s := s.meetInjected d a n
  if s.badIn a n then
    let first := ((List.range n).find? fun i => s.badByte (a + i)).getD 0
    ((s.noteBad t (a + first)).rasEvent d 0x02 2 (t % 256) 0 (a + first), .error (.uncorr, a + first))
  else (s, .ok (s.bytes a n))

/-- n bytes of a tile store are written by a requester that hears nothing (R369, R370). -/
def State.storeWrite (s : State) (a n v : Nat) : State := (s.bytesWrite a n v 3).1

/-- n bytes of a tile store are written by a requester that has a completion. -/
def State.storeWriteTold (s : State) (a n v : Nat) : State × Option (MemFail × Nat) :=
  let r := s.bytesWrite a n v 2
  (r.1, if r.2 then some (.uncorr, a) else none)

end Sys2Proof.Machine
end

