-- ==== Sys2Proof/Machine/Tile.lean ====
section
/-!
DEFINITION. What every tile instruction shares: CSRs (Table 3.7), retirement with hardware loops and single step
(R62, R77), traps and escalation (R78, R80), translation and the targets of scalar accesses (R68 to R71).
-/
namespace Sys2Proof.Machine

/-! ### CSR numbers (Table 3.7) -/

def csrStatus : Nat := 0x000
def csrMask : Nat := 0x001
def csrCause : Nat := 0x002
def csrEpc : Nat := 0x003
def csrTval : Nat := 0x004
def csrTbase : Nat := 0x005
def csrFsp : Nat := 0x006
def csrFsl : Nat := 0x007
def csrEntry (n : Nat) : Nat := 0x008 + n
def csrAsum : Nat := 0x00C
def csrIpend : Nat := 0x00D
def csrLen : Nat := 0x010
def csrGrp : Nat := 0x011
def csrVfx : Nat := 0x012
def csrFflags : Nat := 0x018
def csrFtrap : Nat := 0x019
def csrLc (n : Nat) : Nat := 0x020 + 2 * n
def csrLs (n : Nat) : Nat := 0x021 + 2 * n
def csrMprog : Nat := 0x030
def csrMseed : Nat := 0x031
def csrAccmode : Nat := 0x032
def csrCycle : Nat := 0x040
def csrInstret : Nat := 0x041
def csrTid : Nat := 0x048
def csrPloc : Nat := 0x049

def stPriv : Fld := ⟨0, 1⟩
def stFm : Fld := ⟨8, 1⟩
def stSstep : Fld := ⟨9, 1⟩
def stPrecise : Fld := ⟨10, 1⟩
def stRetOvf : Fld := ⟨14, 1⟩
def mkLevel : Fld := ⟨0, 3⟩
def lcCount : Fld := ⟨32, 32⟩
def lcBody : Fld := ⟨0, 12⟩
def ffFrm : Fld := ⟨5, 3⟩
def ffFlags : Fld := ⟨0, 5⟩
def asFlags : Fld := ⟨8, 5⟩
def asScalar : Fld := ⟨0, 1⟩
def asVector : Fld := ⟨1, 1⟩
def asMatrix : Fld := ⟨2, 1⟩
def asChain : Fld := ⟨3, 1⟩

-- log 5: DESIGN CHOICE, unsafe.
/-- CSR reset values (tables of chapters 03 to 05; u is 0, log 5). -/
def csrReset (n : Nat) : Word :=
  if n = csrStatus then 0x101 else if n = csrMask then 0x4007 else if n = csrGrp then 0xC else 0

def zeroWord : Nat → Word := fun _ => 0
def zeroVec : Nat → BitVec 16384 := fun _ => 0

/-- The stored value of CSR n. -/
def Tile.c (x : Tile) (n : Nat) : Word := SMap.get csrReset x.csr n
def Tile.setC (x : Tile) (n : Nat) (v : Word) : Tile := { x with csr := SMap.set csrReset x.csr n v }
def Tile.cf (x : Tile) (n : Nat) (f : Fld) : Nat := f.get (x.c n)
def Tile.setCf (x : Tile) (n : Nat) (f : Fld) (k : Nat) : Tile := x.setC n (f.put (x.c n) k)

/-- s registers: s0 reads zero and discards writes (Table 3.1). -/
def Tile.rs (x : Tile) (r : Nat) : Word := if r = 0 then 0 else SMap.get zeroWord x.s r
def Tile.setS (x : Tile) (r : Nat) (v : Word) : Tile := if r = 0 then x else { x with s := SMap.set zeroWord x.s r v }
def Tile.rf (x : Tile) (r : Nat) : Word := SMap.get zeroWord x.f r
def Tile.setF (x : Tile) (r : Nat) (v : Word) : Tile := { x with f := SMap.set zeroWord x.f r v }
def Tile.rv (x : Tile) (r : Nat) : BitVec 16384 := SMap.get zeroVec x.v r
def Tile.setV (x : Tile) (r : Nat) (v : BitVec 16384) : Tile := { x with v := SMap.set zeroVec x.v r v }
def Tile.rp (x : Tile) (r : Nat) : BitVec 16384 := SMap.get zeroVec x.p r
def Tile.setP (x : Tile) (r : Nat) (v : BitVec 16384) : Tile := { x with p := SMap.set zeroVec x.p r v }

def Tile.user (x : Tile) : Bool := x.cf csrStatus stPriv == 0
def Tile.precise (x : Tile) : Bool := x.cf csrStatus stPrecise == 1

/-! ### Exception codes (Table 3.9) -/

def exIllegal : Nat := 0x01
def exPrivileged : Nat := 0x02
def exFetchAccess : Nat := 0x03
def exLoadMiss : Nat := 0x04
def exStoreMiss : Nat := 0x05
def exFetchMiss : Nat := 0x06
def exLoadPerm : Nat := 0x07
def exStorePerm : Nat := 0x08
def exFetchPerm : Nat := 0x09
def exLoadAccess : Nat := 0x0A
def exStoreAccess : Nat := 0x0B
def exMemUncorr : Nat := 0x0C
def exArith : Nat := 0x0D
def exBreak : Nat := 0x0E
def exSstep : Nat := 0x0F
def exVecConfig : Nat := 0x10
def exMatConfig : Nat := 0x11
def exVersion : Nat := 0x12
def exDescriptor : Nat := 0x13
def exBuckleRange : Nat := 0x14
def exMsgTarget : Nat := 0x15

/-! ### Trace (R465) -/

/-- A traced event writes one entry into the tile's buffer of 2,048; DELTA counts tile cycles, which the model leaves
free. -/
def State.trace (s : State) (t kind code target : Nat) : State :=
  let x := s.tile t
  if (s.rd (DBG_TRC_CTRL (t / 32))).getLsbD (t % 32) && !x.traceStopped then
    let fr := s.fresh
    let e := BitVec.ofNat 64 (kind * 2 ^ 61 + code % 256 * 2 ^ 53 + fr.1.toNat % 32 * 2 ^ 48 + target % 2 ^ 48)
    fr.2.setTile t { x with trace := (e :: x.trace).take 2048 }
  else s

/-! ### The pause of the K-stream unit (R135) -/

def mpValid : Fld := ⟨63, 1⟩
def mpHeld : Fld := ⟨62, 1⟩
def mpPaused : Fld := ⟨61, 1⟩
def mpErr : Fld := ⟨60, 1⟩
def mpPcw : Fld := ⟨32, 21⟩
def mpKdone : Fld := ⟨0, 32⟩

/-- The operation at the head of the K-stream unit must wait for an earlier drain of its bank (R132). -/
def Tile.kBlocked (x : Tile) (k : KOp) : Bool := x.dUnit.any fun d => d.bank == k.bank && d.seq < k.seq
def Tile.dBlocked (x : Tile) (d : DOp) : Bool := x.kUnit.any fun k => k.bank == d.bank && k.seq < d.seq

/-- The unit pauses now, in the frame of the trap that asked: progress into mprog (R135). -/
def Tile.pauseNow (x : Tile) (t frame : Nat) : Tile :=
  let x := { x with kPause := .paused frame }
  match x.kUnit with
  | [] => x.setCf csrMprog mpPaused 1
  | k :: _ =>
    if k.kind = .stream ∧ k.started then
      let w := mpKdone.put (x.c csrMprog) k.done
      let w := mpPcw.put w ((k.pc - storeBase t) / 4)
      x.setC csrMprog (mpValid.put (mpPaused.put w 1) 1)
    else x.setCf csrMprog mpPaused 1

/-- R135: a trap entry asks the unit to pause. It pauses at once when it is idle, filling, blocked, or waits on a ring
buckle. A nested trap does not move the recorded frame. -/
def State.askPause (s : State) (t frame : Nat) : State :=
  let x := s.tile t
  match x.kPause with
  | .none =>
    let busy : Bool := match x.kUnit with
      | [] => false
      | k :: _ => k.kind == .stream && !x.kBlocked k && k.started &&
          !(k.ring != 0 && k.done == k.taken * 128 && !(s.links.done.contains (.ring t)))
    s.setTile t (if busy then { x with kPause := .asked frame } else x.pauseNow t frame)
  | _ => s

/-! ### Escalation and traps -/

/-- R135: the K-stream unit of a tile that escalates pauses, in the frame of an earlier trap where one has asked; no frame of
its own is stacked (R80). -/
def Tile.pauseFrozen (x : Tile) (t : Nat) : Tile :=
  match x.kPause with
  | .none => x.pauseNow t 0
  | .asked f => x.pauseNow t f
  | .paused _ => x

/-- R80, R466: the tile freezes and TIL_ESC records why; the Cox receives a tile-escalation event. -/
def State.escalate (s : State) (t kind code sub epc tval : Nat) : State :=
  let s := s.setTile t { (s.tile t).pauseFrozen t with mode := .frozen, traceStopped := true }
  let s := s.wr (TIL_ESC t) (BitVec.ofNat 64 (2 ^ 63 + kind * 2 ^ 24 + sub % 256 * 256 + code % 256))
  let s := s.wr (TIL_ESC_EPC t) (BitVec.ofNat 64 (epc % 2 ^ 48))
  let s := s.wr (TIL_ESC_TVAL t) (BitVec.ofNat 64 (tval % 2 ^ 48))
  s.notify (TIL_ESC t) 63 (some ⟨3, kind, 0, t⟩)

/-- The frame of Table 3.13, doublewords 0 to 31. -/
def frameWords (x : Tile) (ret : Nat) (cause tval : Word) : List Word :=
  [BitVec.ofNat 64 ret, x.c csrStatus, x.c csrMask, cause, tval, x.c (csrLc 0), x.c (csrLs 0), x.c (csrLc 1), x.c (csrLs 1)]
    ++ (List.range 23).map fun i => x.rs (i + 1)

def State.setWords (s : State) (a : Nat) : List Word → State
  | [] => s
  | w :: ws => (s.storeWrite a 8 w.toNat).setWords (a + 8) ws

/-- The address of the next fetch: the pc below what a jalr left above it (R68). -/
def Tile.fullPc (x : Tile) : Nat := x.pcHigh.toNat * 2 ^ 48 + x.pc.toNat

/-- Cycle 0 of Table 3.12: epc, cause and tval are latched, PRIV and FM set, mask.LEVEL becomes `level`. -/
def Tile.trapLatch (x : Tile) (pc : Nat) (cause tval : Word) (level : Nat) : Tile :=
  let x := ((x.setC csrEpc (BitVec.ofNat 64 pc)).setC csrCause cause).setC csrTval tval
  ((x.setCf csrStatus stPriv 1).setCf csrStatus stFm 1).setCf csrMask mkLevel level

-- log 12: DEDUCED, unsafe.
/-- R78: trap entry for a cause, to trap-table entry `idx`, with mask.LEVEL set to `level`. The frame and the trap table lie
in the own populated store (log 12). A trap entry that escalates has run its cycle 0. An entry of the table with bits [63:48]
not zero makes the first fetch fault (R68). -/
def State.enterTrap (s : State) (t code sub : Nat) (int : Bool) (tval : Word) (idx level : Nat) : State :=
  let x := s.tile t
  let pc := x.fullPc
  let cause := BitVec.ofNat 64 ((if int then 2 ^ 63 else 0) + sub % 256 * 256 + code % 256)
  let fsp := (x.c csrFsp).toNat
  let fsl := (x.c csrFsl).toNat
  let entry := (x.c csrTbase).toNat + 8 * idx
  let y := s.setTile t (x.trapLatch pc cause tval level)
  if fsp < 256 + fsl then y.escalate t 2 code sub pc tval.toNat
  else if !(inStore t (fsp - 256) 256 && inStore t entry 8) then y.escalate t 3 code sub pc tval.toNat
  else match y.storeRead t entry 8 with
    | (s, .error _) => s.escalate t 3 code sub pc tval.toNat
    | (s, .ok target) =>
      let s := s.setWords (fsp - 256) (frameWords x pc cause tval)
      let y := (s.tile t).setC csrFsp (BitVec.ofNat 64 (fsp - 256))
      let s := s.setTile t { y with pc := BitVec.ofNat 48 (target / 4 * 4), pcHigh := BitVec.ofNat 16 (target / 2 ^ 48) }
      (s.askPause t (fsp - 256)).trace t 2 code (target / 4 * 4)

/-- R78, R80: a synchronous exception at the tile's pc. While status.FM is 1 it escalates. -/
def State.exc (s : State) (t code sub : Nat) (tval : Word) : State :=
  let x := s.tile t
  if x.cf csrStatus stFm = 1 then s.escalate t 1 code sub x.pc.toNat tval.toNat
  else s.enterTrap t code sub false tval code 7

/-! ### Retirement -/

/-- The end of the loop of pair n (R61). -/
def Tile.loopEnd (x : Tile) (n : Nat) : Nat := (x.c (csrLs n)).toNat + 4 * (x.cf (csrLc n) lcBody + 1)
def Tile.loopActive (x : Tile) (n : Nat) : Bool := x.cf (csrLc n) lcCount != 0
/-- The instruction at the pc is the last of an active loop body (R62). -/
def Tile.atLoopEnd (x : Tile) (n : Nat) : Bool := x.loopActive n && x.pc.toNat + 4 == x.loopEnd n

/-- R62: back-edge of pair n where the instruction at pc ends it: true when the pc returns to lsN. -/
def Tile.backEdge (x : Tile) (n : Nat) : Tile × Bool :=
  if x.atLoopEnd n then
    let k := x.cf (csrLc n) lcCount
    if 1 < k then ({ x.setCf (csrLc n) lcCount (k - 1) with pc := (x.c (csrLs n)).setWidth 48 }, true)
    else (x.setCf (csrLc n) lcCount 0, false)
  else (x, false)

-- log 153: DEDUCED, unsafe.
/-- The next pc in sequence, with the back-edges of R62 (lc1 first). -/
def Tile.seqNext (x : Tile) : Tile × Bool :=
  let r1 := x.backEdge 1
  if r1.2 then r1 else
  let r0 := r1.1.backEdge 0
  if r0.2 then r0 else ({ r0.1 with pc := r0.1.pc + 4 }, false)

/-- R62: a taken branch or jump outside the body of pair n ends the loop. -/
def Tile.leaveLoop (x : Tile) (n target : Nat) : Tile :=
  if x.loopActive n && !((x.c (csrLs n)).toNat ≤ target && target < x.loopEnd n)
  then x.setCf (csrLc n) lcCount 0 else x

/-- instret counts one retirement (WRAP, R9). -/
def Tile.countRet (x : Tile) : Tile :=
  let n := (x.c csrInstret) + 1
  let y := x.setC csrInstret n
  if n = 0 then y.setCf csrStatus stRetOvf 1 else y

-- log 132: DEDUCED, unsafe.
/-- R77: after a retirement at user level with SSTEP set, SSTEP is raised before the next instruction. -/
def State.stepTrap (s : State) (t : Nat) (user : Bool) (sstep : Bool) : State :=
  if user && sstep then s.exc t exSstep 0 0 else s

-- log 132: DEDUCED, unsafe.
/-- An instruction of tile t retires and execution continues in sequence. -/
def State.retire1 (s : State) (t : Nat) : State :=
  let x := s.tile t
  let user := x.user
  let ss := x.cf csrStatus stSstep == 1
  let r := x.countRet.seqNext
  let s := s.setTile t { r.1 with mode := .running }
  let s := if r.2 then s.trace t 1 0 r.1.pc.toNat else s
  s.stepTrap t user ss

-- log 132: DEDUCED, unsafe.
/-- An instruction that executed at the given level retires to a target. -/
def State.retireAs (s : State) (t : Nat) (user : Bool) (target : Nat) : State :=
  let x := s.tile t
  let ss := x.cf csrStatus stSstep == 1
  let s := s.setTile t { x.countRet with pc := BitVec.ofNat 48 target, pcHigh := BitVec.ofNat 16 (target / 2 ^ 48), mode := .running }
  s.stepTrap t user ss

/-- An instruction retires to a target that is not a branch: a loop that is skipped. -/
def State.retireTo (s : State) (t target : Nat) : State := s.retireAs t (s.tile t).user target

-- log 153: DEDUCED, unsafe.
/-- A taken branch or jump retires (R62: it may end loops). -/
def State.retireJump (s : State) (t target : Nat) : State :=
  let x := s.tile t
  let s := s.setTile t ((x.leaveLoop 1 target).leaveLoop 0 target)
  let s := s.trace t 0 0 target
  s.retireTo t target

/-- Tile t's core executes instructions. -/
def State.runs (s : State) (t : Nat) : Bool := (s.tile t).mode == .running && !s.stilled t

-- log 171: DESIGN CHOICE, unsafe.
/-- R371: a register with bad parity is read: the tile halts and freezes before any result. -/
def State.parityHalt (s : State) (t : Nat) (acc : Bool) : State :=
  let s := s.setTile t { s.tile t with mode := .frozen, traceStopped := true }
  let s := s.markTile (s.physOf t)
  let src := if acc then 0x04 else 0x03
  (s.rasEvent (t / 32) src 5 (t % 256) 0 0).rasNotice (t / 32) 0 src t

-- log 3: DESIGN CHOICE, safe; log 6: DESIGN CHOICE, safe; log 13: DESIGN CHOICE, safe.
/-- A tile instruction: it acts only while the core runs, and halts the tile when a register it reads has bad
parity (R371). A fetch address with nonzero bits [63:48] faults first (R68). -/
def onTile (t : BitVec 8) (reads : List ParReg) (s : State) (k : Nat → Tile → State) : Host.Outcome State Fault Refusal :=
  let n := t.toNat
  if s.runs n then
    if (s.tile n).pcHigh ≠ 0 then
      .next (s.exc n exFetchAccess 0 ((s.tile n).pcHigh.setWidth 64 <<< 48 ||| (s.tile n).pc.setWidth 64))
    else if reads.any (fun r => (s.tile n).parBad.contains r) then .next (s.parityHalt n false)
    else .next (k n (s.tile n))
  else .next s

-- log 16: DEDUCED, safe.
/-- R63, R133: a drain that has not completed delays a serialising instruction. A drain that waits for a stream of a
paused unit does not, since only the instruction that waits could resume it (log 16). -/
def Tile.drainBusy (x : Tile) : Bool :=
  x.dUnit.any fun d => !(x.dBlocked d && (match x.kPause with | .paused _ => true | _ => false))

-- log 16: DEDUCED, safe.
/-- A serialising instruction: it waits, as state unchanged, until earlier drains have completed (R63). -/
def onTileSerial (t : BitVec 8) (reads : List ParReg) (s : State) (k : Nat → Tile → State) :
    Host.Outcome State Fault Refusal :=
  onTile t reads s fun n x => if x.drainBusy then s else k n x

/-- Flags of a unit (0 scalar, 1 vector, 2 matrix, 3 chain) are ORed into fflags and remembered for asum (R81, R82). -/
def Tile.raiseFlags (x : Tile) (unit flags : Nat) : Tile :=
  { x.setC csrFflags (x.c csrFflags ||| BitVec.ofNat 64 (flags % 32)) with raised := x.raised ||| (flags % 32) <<< (5 * unit) }

/-- Some of the flags is enabled in ftrap. -/
def Tile.trapsOn (x : Tile) (flags : Nat) : Bool := BitVec.ofNat 64 (flags % 32) &&& x.c csrFtrap != 0

/-- asum records the enabled flags among these and the unit (R81, R83). -/
def Tile.noteAsum (x : Tile) (unit flags : Nat) : Tile :=
  x.setC csrAsum (x.c csrAsum ||| ((BitVec.ofNat 64 (flags % 32) &&& x.c csrFtrap) <<< 8) ||| BitVec.ofNat 64 (2 ^ unit))

/-- R81: flags are ORed into fflags; one that ftrap enables traps with ARITH and no destination is written. -/
def State.fpFin (s : State) (t flags : Nat) (write : Tile → Tile) : State :=
  let x := (s.tile t).raiseFlags 0 flags
  if x.trapsOn flags then (s.setTile t (x.noteAsum 0 flags)).exc t exArith 0 0
  else (s.setTile t (write x)).retire1 t

/-- The result v is written to s register rd and the instruction retires. -/
def State.finS (s : State) (t rd : Nat) (v : Word) : State := (s.setTile t ((s.tile t).setS rd v)).retire1 t
def State.finF (s : State) (t rd : Nat) (v : Word) : State := (s.setTile t ((s.tile t).setF rd v)).retire1 t

/-! ### Pending interrupts (Table 3.15) -/

/-- Bit c is 1 while interrupt code c is pending. -/
def State.ipend (s : State) (t : Nat) : Word :=
  let x := s.tile t
  let b1 : Word := if x.inbox.isEmpty then 0 else 2
  let b2 : Word := if s.bit (TIL_DM_STATUS t) TIL_DM_STATUS_IRQ then 4 else 0
  let b3 : Word := if s.bit (TIL_BKL_EVT t) TIL_BKL_EVT_WAIT_DONE || s.bit (TIL_BKL_EVT t) TIL_BKL_EVT_SAT then 8 else 0
  b1 ||| b2 ||| b3 ||| (x.latched &&& 0x1F0)

/-- Interrupt code c is enabled (mask bits EN1 to EN8). -/
def Tile.irqOn (x : Tile) (c : Nat) : Bool := c == 7 || (x.c csrMask).getLsbD (7 + c)

/-- The levels of Table 3.10. -/
def irqLevel : Nat → Nat
  | 1 => 2 | 2 => 2 | 3 => 3 | 4 => 4 | 5 => 1 | 6 => 5 | 7 => 7 | _ => 1

/-! ### Translation (R68 to R71) -/

inductive Acc where
  | fetch | load | store
  deriving DecidableEq, Repr

def missCode : Acc → Nat | .fetch => exFetchMiss | .load => exLoadMiss | .store => exStoreMiss
def permCode : Acc → Nat | .fetch => exFetchPerm | .load => exLoadPerm | .store => exStorePerm
def accCode : Acc → Nat | .fetch => exFetchAccess | .load => exLoadAccess | .store => exStoreAccess
def permFld : Acc → Fld | .fetch => TIL_XLAT_W0_X | .load => TIL_XLAT_W0_R | .store => TIL_XLAT_W0_W

/-- Entry i of tile t's translation table matches virtual address va (R70; 64 KiB or 32 MiB). -/
def State.xlatHit (s : State) (t va i : Nat) : Bool :=
  s.bit (TIL_XLAT_W0 t i) TIL_XLAT_W0_V &&
    (if s.bit (TIL_XLAT_W0 t i) TIL_XLAT_W0_SIZE
     then s.fld (TIL_XLAT_W0 t i) TIL_XLAT_W0_VPN / 512 == va / 0x2000000
     else s.fld (TIL_XLAT_W0 t i) TIL_XLAT_W0_VPN == va / 65536)

/-- The device address of a data or fetch address of tile t at the given level, or its exception code. -/
def State.translate (s : State) (t : Nat) (user : Bool) (k : Acc) (va : Nat) : Except Nat Nat :=
  if 2 ^ 48 ≤ va then .error (accCode k)
  else if !user then .ok va
  else match (List.range 1024).find? (s.xlatHit t va) with
    | none => .error (missCode k)
    | some i =>
      let w := TIL_XLAT_W0 t i
      if s.bit w TIL_XLAT_W0_U && s.bit w (permFld k) then
        let ppn := s.fld (TIL_XLAT_W1 t i) TIL_XLAT_W1_PPN
        if s.bit w TIL_XLAT_W0_SIZE then .ok (ppn / 512 * 0x2000000 + va % 0x2000000) else .ok (ppn * 65536 + va % 65536)
      else .error (permCode k)

/-- R69: where a scalar access of tile t to device address a is served, or its exception code. -/
def scalarTarget (t : Nat) (user : Bool) (k : Acc) (a n whole va : Nat) : Except Nat Region :=
  match regionOf a with
  | .store u => if u = t ∧ inStore t a n then .ok (.store u) else .error (accCode k)
  | .hbm m => .ok (.hbm m)
  | .bulk m => .ok (.bulk m)
  | .scratch d w => .ok (.scratch d w)
  | .ctl => if user then .error (permCode k)
            else if (whole = 4 ∨ whole = 8) ∧ va % whole = 0 then .ok .ctl else .error (accCode k)
  | _ => .error (accCode k)

/-- R76: the halves of an access of n bytes at va: split at a 128-byte boundary. -/
def halves (va n : Nat) : List (Nat × Nat) :=
  if va % 128 + n ≤ 128 then [(va, n)] else [(va, 128 - va % 128), (va + (128 - va % 128), n - (128 - va % 128))]

/-- The exception of an access: code, subcode and address. -/
structure AccFail where
  code : Nat
  sub : Nat
  addr : Nat
  deriving DecidableEq, Repr

/-- Both halves of an access translated and checked, in address order (R76): pieces of (device address, bytes). -/
def State.checkHalves (s : State) (t : Nat) (user : Bool) (k : Acc) (whole va : Nat) (i : Nat) :
    List (Nat × Nat) → Except AccFail (List (Nat × Nat))
  | [] => .ok []
  | (h, n) :: hs =>
    match s.translate t user k h with
    | .error e => .error ⟨e, i, h⟩
    | .ok a =>
      match scalarTarget t user k a n whole va with
      | .error e => .error ⟨e, i, h⟩
      | .ok (.scratch d w) =>
        if s.scratchOk d w then
          match State.checkHalves s t user k whole va (i + 1) hs with
          | .error e => .error e
          | .ok ps => .ok ((a, n) :: ps)
        else .error ⟨accCode k, i, h⟩
      | .ok _ =>
        match State.checkHalves s t user k whole va (i + 1) hs with
        | .error e => .error e
        | .ok ps => .ok ((a, n) :: ps)

/-- The pieces of a scalar access at the tile's present level. -/
def State.access (s : State) (t : Nat) (k : Acc) (va n : Nat) : Except AccFail (List (Nat × Nat)) :=
  s.checkHalves t (s.tile t).user k n va 0 (halves va n)

/-! ### Instruction words, for tval (Tables 3.3 and 3.5) -/

def wordR (g rd rs1 rs2 fn : Nat) : Word := BitVec.ofNat 64 (g * 2 ^ 28 + rd * 2 ^ 23 + rs1 * 2 ^ 18 + rs2 * 2 ^ 13 + fn)
def wordI (g rd rs1 fn imm : Nat) : Word := BitVec.ofNat 64 (g * 2 ^ 28 + rd * 2 ^ 23 + rs1 * 2 ^ 18 + fn * 2 ^ 14 + imm)
def wordE (sub low : Nat) : Word := BitVec.ofNat 64 (0xE * 2 ^ 28 + sub * 2 ^ 24 + low)

/-- R62: an instruction that must not end a loop body raises ILLEGAL with SUB 3 there. -/
def State.notLast (s : State) (t : Nat) (word : Word) (k : State) : State :=
  let x := s.tile t
  if x.atLoopEnd 1 || x.atLoopEnd 0 then s.exc t exIllegal 3 word else k

end Sys2Proof.Machine
end

