-- ==== Sys2Proof/Machine/Chain.lean ====
section
/-!
DEFINITION. The fused chain: its descriptor (Tables 4.3 to 4.5), the checks of R109, and what it computes (R110, R166).
-/
namespace Sys2Proof.Machine

/-- A chain stage (Table 4.4). -/
structure Stage where
  op : Nat
  opnd : Nat
  vreg : Nat
  arg : Nat
  imm : Nat
  deriving DecidableEq, Repr

/-- A chain descriptor (Table 4.3). -/
structure Chain where
  wide : Bool
  rowlen : Nat
  tag : Nat
  stages : List Stage
  deriving DecidableEq, Repr

def field (w : Word) (hi lo : Nat) : Nat := w.toNat / 2 ^ lo % 2 ^ (hi - lo + 1)

def stageOf (w : Word) : Stage :=
  { op := field w 63 58, opnd := field w 57 56, vreg := field w 55 51, arg := field w 47 40, imm := field w 31 0 }

/-- The chain of the ten doublewords of a descriptor. -/
def chainOf (ws : List Word) : Chain :=
  let w := ws.headD 0
  { wide := field w 51 51 == 1, rowlen := field w 47 32, tag := field w 31 24
    stages := ((ws.drop 2).take (field w 55 52)).map stageOf }

def opActivation (op : Nat) : Bool := 9 ≤ op && op ≤ 13
def opBinary (op : Nat) : Bool := 1 ≤ op && op ≤ 5
def opRow (op : Nat) : Bool := op == 0x11 || op == 0x12
def opQuant : Nat := 0x10
def opListed (op : Nat) : Bool := opBinary op || op == 8 || opActivation op || op == opQuant || opRow op

/-- R109 step 2: a nonzero VER, RSV field or reserved OP, a stage at or above NSTAGE that is not zero, a format code of
R20, or a recipe of R162. -/
def chainVersion (ws : List Word) : Bool :=
  let w := ws.headD 0
  let n := field w 55 52
  field w 63 60 != 0 || field w 59 56 != 0 || field w 50 48 != 0 || field w 23 0 != 0 || ws.getD 1 0 != 0 ||
  ((List.range 8).any fun i =>
    let v := ws.getD (2 + i) 0
    let g := stageOf v
    if n ≤ i then v != 0
    else field v 50 48 != 0 || field v 39 32 != 0 || !opListed g.op ||
      ((g.opnd ≥ 2 || g.op == opQuant) && 0x18 ≤ g.arg % 32) ||
      (g.op == opQuant && isMX (g.arg % 32) && 6 ≤ g.arg / 32))

-- log 18: DEDUCED, unsafe.
/-- R109 step 3: an inconsistent stage i of n (log 18 names the cases the rule leaves to its words). -/
def stageBad (wide drain : Bool) (n i : Nat) (g : Stage) : Bool :=
  (if opBinary g.op then g.opnd == 0 else g.opnd != 0) ||
  (g.op == opQuant && i + 1 != n) ||
  (opRow g.op && !drain) ||
  (wide && 8 ≤ g.op && g.op ≤ 13) ||
  (2 ≤ g.opnd && (!isFIQ (g.arg % 32) || 32 ≤ g.arg)) ||
  (g.opnd < 2 && g.op != opQuant && g.arg != 0) ||
  (g.op == opQuant && !(isFIQ (g.arg % 32) || isMX (g.arg % 32)))

-- log 18: DEDUCED, unsafe.
def chainInconsistent (ws : List Word) (drain : Bool) : Bool :=
  let w := ws.headD 0
  let c := chainOf ws
  8 < field w 55 52 || c.rowlen == 0 || 16384 < c.rowlen ||
  ((List.range c.stages.length).any fun i => stageBad c.wide drain c.stages.length i (c.stages.getD i ⟨0, 0, 0, 0, 0⟩))

/-- The internal format: FP32 or FP64. -/
def Chain.fmt (c : Chain) : Nat := if c.wide then 0 else 1
/-- The output format: that of QUANT, or the internal one. -/
def Chain.outFmt (c : Chain) : Nat :=
  match c.stages.getLast? with
  | some g => if g.op = opQuant then g.arg % 32 else c.fmt
  | none => c.fmt
def Chain.recipe (c : Chain) : Nat := match c.stages.getLast? with | some g => g.arg / 32 | none => 0

/-- A class F, I or Q element converted into the internal format by RNE: bits and flags (R110, R157); a NaN of that format
itself becomes the canonical one (R149). -/
def toInternal (f src b : Nat) : Nat × Nat := let r := cvtVal 0 f (valOf src b); (r.1, r.2.1)

/-! ### Activations (Table 4.5, R110)

Arguments of the exponential are magnitudes in units of 2^-160, cut at 256, beyond which no FP32 result changes. -/

def unit160 : Nat := 2 ^ 160
def fix160 (m : Nat) (e : Int) : Nat :=
  min (256 * unit160) (if 0 ≤ e + 160 then m * 2 ^ (e + 160).toNat else m / 2 ^ (-(e + 160)).toNat)

/-- e^a: the series at a / 1,024, squared ten times. -/
def expFix (a : Nat) : Nat :=
  let t := (List.range 40).foldl (fun p k => (p.1 + p.2, p.2 * (a / 1024) / (unit160 * (k + 1)))) (0, unit160)
  (List.range 10).foldl (fun e _ => e * e / unit160) t.1

/-- 1 / (1 + e^(-a)), or at -a when `neg`, as numerator and denominator. -/
def sigmoidFix (neg : Bool) (a : Nat) : Nat × Nat :=
  let x := expFix a
  (if neg then unit160 else x, unit160 + x)

/-- The magnitude of tanh(m × 2^e) as numerator, denominator and exponent: x(1 - x²/3 + 2x⁴/15) below 2^-12. -/
def tanhFix (m : Nat) (e : Int) : Nat × Nat × Int :=
  let a := fix160 m e
  if a < 2 ^ 148 then
    let x2 := a * a / unit160
    (m * (15 * unit160 + 2 * (x2 * x2 / unit160) - 5 * x2), 15 * unit160, e)
  else let x := expFix (min (256 * unit160) (2 * a)); (x - unit160, x + unit160, 0)

/-- 2 × 0.797,884,56 × (x + 0.044,715 x³) for a magnitude x: GELU is x / (1 + e^(-that)). -/
def geluArg (m : Nat) (e : Int) : Nat :=
  let a := fix160 m e
  min (256 * unit160) (2 * 79788456 * (a * 1000000 + 44715 * (a * a * a / 2 ^ 320)) / 10 ^ 14)

/-- The quotient ±num / den × 2^e correctly rounded to FP32. -/
def quotient32 (neg : Bool) (num den : Nat) (e : Int) : Nat :=
  let k := 64 + bitLen den
  (fp32.round 0 neg (num * 2 ^ k / den) (e - k) (num * 2 ^ k % den != 0)).1

def one32 : Nat := 0x3F800000

/-- The FP32 result of an activation correctly rounded; none at -∞ for GELU and SILU, where Table 4.5 gives ∞ over ∞ or
∞ times 0. -/
def activation32 (op : Nat) : FVal → Option Nat
  | .nan _ => some fp32.nan
  | .inf neg =>
    match op with
    | 0x09 | 0x0A => if neg then none else some fp32.infBits
    | 0x0B => some (if neg then 0 else one32)
    | 0x0C => some (if neg then fp32.signBit + one32 else one32)
    | _ => some (if neg then 0 else fp32.infBits)
  | .fin neg m e =>
    match op with
    | 0x09 => let q := sigmoidFix neg (geluArg m e); some (quotient32 neg (m * q.1) q.2 e)
    | 0x0A => let q := sigmoidFix neg (fix160 m e); some (quotient32 neg (m * q.1) q.2 e)
    | 0x0B => let q := sigmoidFix neg (fix160 m e); some (quotient32 false q.1 q.2 0)
    | 0x0C => let q := tanhFix m e; some (quotient32 neg q.1 q.2.1 q.2.2)
    | _ => let x := expFix (fix160 m e); some (quotient32 false (if neg then unit160 else x) (if neg then x else unit160) 0)

/-- FP32 bits that are not NaN as a place on the line of FP32 numbers: neighbours lie 1 ulp apart. -/
def place32 (b : Nat) : Int := if fp32.signBit ≤ b then - ((b % fp32.signBit : Nat) : Int) else b

-- log 45: DESIGN CHOICE, safe.
/-- An activation of FP32 bits (R110): what Config gives for it where that lies within 2 ulp of the correctly rounded
result, else that result; a NaN gives the canonical one (R149). -/
def activate (op x : Nat) : Nat × Nat :=
  match fp32.decode x with
  | .nan s => (fp32.nan, if s then flNV else 0)
  | v =>
    let b := (Config.activation op (BitVec.ofNat 32 x)).toNat
    let fl := (Config.activationFlags op (BitVec.ofNat 32 x)).toNat
    match activation32 op v with
    | none => (b, fl)
    | some r => (if b % fp32.signBit ≤ fp32.infBits && (place32 b - place32 r).natAbs ≤ 2 then b else r, fl)

/-- One stage on internal bits x with operand b: bits and flags (Table 4.5). -/
def stageEval (f : FpFmt) (op x b : Nat) : Nat × Nat :=
  match op with
  | 0x01 => let p := mulV (f.decode x) (f.decode b); let r := f.ofV 0 p.1; (r.1, r.2 ||| p.2)
  | 0x02 => f.addV 0 (f.decode x) (f.decode b)
  | 0x03 => f.addV 0 (f.decode x) (f.decode b).negate
  | 0x04 => f.minMax true x b
  | 0x05 => f.minMax false x b
  | 0x08 => f.minMax true x 0
  | _ => if opActivation op then activate op x else (x, 0)

/-- Element i through the stages before QUANT: bits, all flags, flags of the last rounding, and the value that reached
a ROWMAX or ROWMIN stage. `opd` gives the raw operand element of a stage. -/
def chainGo (c : Chain) (opd : Stage → Nat) : List Stage → Nat × Nat × Nat × Option (Bool × Nat) → Nat × Nat × Nat × Option (Bool × Nat)
  | [], r => r
  | g :: gs, (x, fl, last, row) =>
    if g.op = opQuant then (x, fl, last, row)
    else if opRow g.op then chainGo c opd gs (x, fl, last, some (g.op == 0x11, x))
    else
      let b := if g.opnd = 0 then (0, 0)
        else if g.opnd = 1 then toInternal c.fmt 1 g.imm
        else toInternal c.fmt g.arg (opd g)
      let r := stageEval (fpOf c.fmt) g.op x b.1
      chainGo c opd gs (r.1, fl ||| b.2 ||| r.2, r.2, row)

/-- What a chain delivers for one element: internal bits before QUANT, flags, flags of the last rounding, row value. -/
structure ChainMid where
  bits : Nat
  flags : Nat
  last : Nat
  row : Option (Bool × Nat)
  deriving DecidableEq, Repr

def Chain.mid (c : Chain) (src b : Nat) (opd : Stage → Nat) : ChainMid :=
  let i := toInternal c.fmt src b
  let r := chainGo c opd c.stages (i.1, i.2, i.2, none)
  ⟨r.1, r.2.1, r.2.2.1, r.2.2.2⟩

def markOf (f bits flags : Nat) : Mark :=
  match valOf f bits with
  | .nan _ => 3
  | .inf _ => 3
  | .fin _ m _ => if m = 0 ∧ flags % 2 = 1 then 1 else 0

/-- The output of one element without MX: bits, flags, mark (R166). -/
def Chain.out (c : Chain) (m : ChainMid) : Nat × Nat × Mark :=
  let o := c.outFmt
  if o = c.fmt then (m.bits, m.flags, markOf o m.bits m.last)
  else
    let r := cvtVal 0 o (valOf c.fmt m.bits)
    (r.1, m.flags ||| r.2.1, if isF o then markOf o r.1 r.2.1 else if r.2.2 then 2 else if r.1 = 0 ∧ r.2.1 % 2 = 1 then 1 else 0)

/-- The output of one block of 32 elements in MX: scale, elements with marks, flags. -/
def Chain.outBlock (c : Chain) (ms : List ChainMid) : Nat × List (Nat × Mark) × Nat :=
  let r := mxBlock c.outFmt c.recipe (ms.map fun m => valOf c.fmt m.bits)
  (r.1, r.2.1, r.2.2 ||| ms.foldl (fun a m => a ||| m.flags) 0)

end Sys2Proof.Machine
end

