-- ==== Sys2Proof/Machine/Buckles.lean ====
section
/-!
DEFINITION. Buckles at their homes (R188 to R191, R476), and enables that follow R11.
-/
namespace Sys2Proof.Machine

/-! ### Enables (R11) -/

/-- R11: a write of `on` to the enable `en` of the register at `ctl`, whose block's ACTIVE bit is `act` at `st`. -/
def State.writeEnable (s : State) (w : Drainer) (ctl : Nat) (en : Fld) (st : Nat) (act : Fld) (on : Bool) : State :=
  match s.drain? w with
  | some _ => { s with drains := s.drains.map fun d => if d.who = w then { d with held := on } else d }
  | none =>
    if on then s.setf ctl en 1
    else if s.bit ctl en then
      let s := (s.setf ctl en 0).setf st act 1
      { s with drains := s.drains ++ [⟨w, 0, false⟩] }
    else s

/-- R11: the drain of w is over: ACTIVE falls, and a held write of 1 takes effect. -/
def State.endDrain (s : State) (w : Drainer) (ctl : Nat) (en : Fld) (st : Nat) (act : Fld) : State :=
  match s.drain? w with
  | none => s
  | some d =>
    let s := { s with drains := s.drains.filter fun e => e.who ≠ w }
    let s := s.setf st act 0
    if d.held then s.setf ctl en 1 else s

/-- R11: a limit of n strokes expires at the (n + 1)th catch after the enable was cleared. -/
def State.drainExpired (s : State) (w : Drainer) (n : Nat) : Bool :=
  match s.drain? w with | some d => n + 1 ≤ d.catches | none => false

/-! ### The home of a buckle -/

def noBuckle : Nat → Buckle := fun _ => Buckle.zero
def State.buckle (s : State) (b : Nat) : Buckle := SMap.get noBuckle s.links.buckles b
def State.setBuckle (s : State) (b : Nat) (k : Buckle) : State :=
  { s with links := { s.links with buckles := SMap.set noBuckle s.links.buckles b k } }

/-- The saturated count (R189). -/
def bkMax : Nat := 0xFFFFFFFF

/-- R189: n taken from a count; a saturated count stays. -/
def bkTake (c n : Nat) : Nat := if c = bkMax then c else c - n

/-- R188: waits served from the head while the head can be satisfied: the count left, the waits left, the waits
served. -/
def bkServe (c : Nat) : List Waiter → Nat × List Waiter × List WaitWho
  | [] => (c, [], [])
  | w :: ws =>
    if w.n ≤ c then
      let r := bkServe (bkTake c w.n) ws
      (r.1, r.2.1, w.who :: r.2.2)
    else (c, w :: ws, [])

/-- The entries of `homes` for the waits of `who` that are satisfied and on their way. -/
def Links.homesOf (k : Links) (who : WaitWho) : List (WaitWho × Nat) :=
  let mine := k.homes.filter (·.1 == who)
  mine.drop (mine.length - k.done.count who)

/-- A wait served at the home of buckle b is on its way to its waiter. -/
def Links.serve (k : Links) (b : Nat) (who : WaitWho) : Links :=
  { k with homes := k.homes.filter (·.1 != who) ++ k.homesOf who ++ [(who, b / 2048)], done := k.done ++ [who] }

/-- The count of buckle b becomes c, and its home serves the waiters. -/
def State.bkCount (s : State) (b c : Nat) : State :=
  let r := bkServe c (s.buckle b).waiters
  let s := s.setBuckle b ⟨r.1, r.2.1⟩
  { s with links := r.2.2.foldl (fun k w => k.serve b w) s.links }

/-- n is added at the home, saturating with BUCKLE_SAT in the home tile (R189). -/
def State.bkPlus (s : State) (b n : Nat) : State :=
  let c := (s.buckle b).count + n
  let s :=
    if 0 < n ∧ bkMax ≤ c then
      let t := b / 64
      (s.setf (TIL_BKL_EVT t) TIL_BKL_EVT_SAT 1).setf (TIL_BKL_EVT t) TIL_BKL_EVT_SAT_BKL b
    else s
  s.bkCount b (min c bkMax)

/-- A wait for n joins the queue at the home; a wait for 0 completes on arrival (R188). -/
def State.bkJoin (s : State) (b n : Nat) (who : WaitWho) : State :=
  if n = 0 then { s with links := s.links.serve b who }
  else
    let k := s.buckle b
    (s.setBuckle b { k with waiters := k.waiters ++ [⟨who, n⟩] }).bkCount b k.count

/-- An operation for a home that is being moved is held (R196). -/
def State.park (s : State) (p : Parked) : State := { s with links := { s.links with parked := s.links.parked ++ [p] } }

/-- bsig at the home, held while the home is moved. -/
def State.bkAdd (s : State) (b n : Nat) : State := if s.moving (b / 64) then s.park ⟨b, n, none⟩ else s.bkPlus b n

/-- bset at the home. -/
def State.bkSet (s : State) (b n : Nat) : State := s.bkCount b (min n bkMax)

/-- bwait at the home, held while the home is moved. -/
def State.bkWait (s : State) (b n : Nat) (who : WaitWho) : State :=
  if s.moving (b / 64) then s.park ⟨b, n, some who⟩ else s.bkJoin b n who

/-- R196: what was held for tile t is delivered in its original order. -/
def State.unpark (s : State) (t : Nat) : State :=
  let mine := s.links.parked.filter fun p => p.buckle / 64 == t
  mine.foldl (fun s p => match p.who with | some w => s.bkJoin p.buckle p.n w | none => s.bkPlus p.buckle p.n)
    { s with links := { s.links with parked := s.links.parked.filter fun p => p.buckle / 64 != t } }

/-- An earlier buckle operation of tile t has not reached the home of buckle b. -/
def State.bkBehind (s : State) (t b : Nat) : Bool := s.links.ops.any fun o => o.tile == t && o.buckle / 64 == b / 64

/-- A take of n that tile t's matrix array or data mover asks for, behind the tile's earlier operations to that home
(R193). -/
def State.bkTakeFor (s : State) (t b n : Nat) (who : WaitWho) : State :=
  if s.bkBehind t b then { s with links := { s.links with ops := s.links.ops ++ [BkOp.mk t b (.take n who)] } }
  else s.bkWait b n who

/-- An add of n by tile t's matrix array or data mover, behind the tile's earlier operations to that home (R193). -/
def State.bkAddFor (s : State) (t b n : Nat) : State :=
  if s.bkBehind t b then { s with links := { s.links with ops := s.links.ops ++ [BkOp.mk t b (.add n)] } } else s.bkAdd b n

/-- A take on its way that serves someone p names. -/
def BkKind.serves (k : BkKind) (p : WaitWho → Bool) : Bool := match k with | .take _ w => p w | _ => false

/-- R476: the waits of `who` that their homes have not performed are withdrawn and take no count. A wait behind one
withdrawn from the head is then served. -/
def State.bkWithdraw (s : State) (p : WaitWho → Bool) : State :=
  let s := { s with links := { s.links with ops := s.links.ops.filter fun o => !o.kind.serves p
                                            parked := s.links.parked.filter fun q => !q.who.any p } }
  let keys := s.links.buckles.map (·.1)
  keys.foldl (fun s b =>
    let k := s.buckle b
    if k.waiters.any (fun w => p w.who) then
      (s.setBuckle b { k with waiters := k.waiters.filter fun w => !p w.who }).bkCount b k.count
    else s) s

/-- R190: the buckle number n is outside the range (SUB 0) or not permitted at user level (SUB 1). -/
def State.bkRange (s : State) (t : Nat) (user : Bool) (n : Nat) : Option Nat :=
  if 16383 < n then some 0
  else if user then
    let w := TIL_BKL_WIN t
    if s.bit w TIL_BKL_WIN_UEN && s.fld w TIL_BKL_WIN_LO ≤ n && n ≤ s.fld w TIL_BKL_WIN_HI then none else some 1
  else none

/-- The drain of an inbox or data mover, by name (R183, R187). -/
def State.writeDmEn (s : State) (t : Nat) (on : Bool) : State :=
  s.writeEnable (.mover t) (TIL_DM_CTRL t) TIL_DM_CTRL_EN (TIL_DM_STATUS t) TIL_DM_STATUS_ACTIVE on
def State.writeMsgEn (s : State) (t : Nat) (on : Bool) : State :=
  s.writeEnable (.inbox t) (TIL_MSG_CTRL t) TIL_MSG_CTRL_EN (TIL_MSG_STATUS t) TIL_MSG_STATUS_ACTIVE on

end Sys2Proof.Machine
end

