-- ==== Sys2Proof/Machine/TileRegs.lean ====
section
/-!
DEFINITION. The TIL_ block of a tile: reads with the counts its units hold, and writes under the rules of R71, R72,
R74, R183, R187 and R192.
-/
namespace Sys2Proof.Machine

/-- A read of the TIL_ block of tile t at offset o. -/
def State.tilRead (s : State) (t o : Nat) : Word :=
  let x := s.tile t
  let a := tilBase t + o
  if o = 0x0000 then BitVec.ofNat 64 t
  else if o = 0x0008 then BitVec.ofNat 64 (s.physOf t)
  else if o = 0x0108 then TIL_DM_STATUS_QCOUNT.put (s.rd a) (x.dmQueue.length + x.dmSlots.length)
  else if o = 0x0208 then TIL_MSG_STATUS_OCC.put (TIL_MSG_STATUS_OQ.put (s.rd a) x.outbox.length) x.inbox.length
  else if 0x8000 ≤ o ∧ o < 0x8400 then
    let b := 64 * t + (o - 0x8000) / 16
    if o % 16 = 0 then BitVec.ofNat 64 (s.buckle b).count
    else if o % 16 = 8 then BitVec.ofNat 64 (s.buckle b).waiters.length else 0
  else s.rd a

/-- R4, R71, R72: a doubleword write of translation entry i: word 1 clears V; word 0 is checked against word 1. -/
def State.xlatWrite (s : State) (t i : Nat) (hi : Bool) (v : Word) : State :=
  let a := if hi then TIL_XLAT_W1 t i else TIL_XLAT_W0 t i
  let big := TIL_XLAT_W0_SIZE.get v = 1 ∧
    (TIL_XLAT_W0_VPN.get v % 512 ≠ 0 ∨ s.fld (TIL_XLAT_W1 t i) TIL_XLAT_W1_PPN % 512 ≠ 0)
  if rsvBad a v ∨ (!hi ∧ big) then
    (s.setf (TIL_XLAT_ERR t) TIL_XLAT_ERR_ERR 1).setf (TIL_XLAT_ERR t) TIL_XLAT_ERR_INDEX i
  else if hi then (s.wr a v).setf (TIL_XLAT_W0 t i) TIL_XLAT_W0_V 0
  else s.wr a v

/-- R74: a write of TIL_COX_NOTE by the Cox stores the note and makes interrupt code 0x06 pending; by the tile's
supervisor it clears UNREAD and OVR as the bits it carries say. -/
def State.noteWrite (s : State) (m : Master) (t : Nat) (v : Word) : State :=
  let a := TIL_COX_NOTE t
  if rsvBad a v then s
  else if m = .cox then
    let ovr := s.fld a TIL_COX_NOTE_UNREAD
    let s := s.setf a TIL_COX_NOTE_NOTE (TIL_COX_NOTE_NOTE.get v)
    let s := s.setf a TIL_COX_NOTE_UNREAD 1
    let s := if ovr = 1 then s.setf a TIL_COX_NOTE_OVR 1 else s
    s.latchIrq t 6
  else
    let s := if TIL_COX_NOTE_UNREAD.get v = 1 then s.setf a TIL_COX_NOTE_UNREAD 0 else s
    if TIL_COX_NOTE_OVR.get v = 1 then s.setf a TIL_COX_NOTE_OVR 0 else s

/-- The tile supervisor reaches only its own block, the Cox every block (03, "TIL_ registers"); debug acts with the
Cox's permissions. -/
def tilMay (m : Master) (t : Nat) : Bool :=
  match m with | .cox => true | .tile u => u == t | .host => false

/-- The tile's drain ends once no descriptor is left (R183). -/
def State.moverSettle (s : State) (t : Nat) : State :=
  let x := s.tile t
  if x.dmQueue.isEmpty && x.dmSlots.isEmpty then
    s.endDrain (.mover t) (TIL_DM_CTRL t) TIL_DM_CTRL_EN (TIL_DM_STATUS t) TIL_DM_STATUS_ACTIVE
  else s

/-- The inbox's drain ends once no sender holds a message for it (R187). -/
def State.inboxSettle (s : State) (t : Nat) : State :=
  if s.tiles.any fun p => p.2.outbox.any fun m => m.who == t then s
  else s.endDrain (.inbox t) (TIL_MSG_CTRL t) TIL_MSG_CTRL_EN (TIL_MSG_STATUS t) TIL_MSG_STATUS_ACTIVE

/-- A write of doubleword v at offset o of the TIL_ block of tile t. A write that is not permitted, or that carries a
nonzero RSV field, is discarded and recorded nowhere but in TIL_XLAT_ERR (R4). -/
def State.tilWrite (s : State) (m : Master) (t o : Nat) (v : Word) : State :=
  let a := tilBase t + o
  if !tilMay m t then s
  else if 0x4000 ≤ o ∧ o < 0x8000 then s.xlatWrite t ((o - 0x4000) / 16) (o % 16 == 8) v
  else if rsvBad a v then s
  else if o = 0x0100 then (s.writeDmEn t (v.getLsbD 0)).moverSettle t
  else if o = 0x0200 then (s.writeMsgEn t (v.getLsbD 0)).inboxSettle t
  else if o = 0x0040 then s.noteWrite m t v
  else if 0x8000 ≤ o ∧ o < 0x8400 then
    if o % 16 = 0 then s.bkSet (64 * t + (o - 0x8000) / 16) (v.toNat % 2 ^ 32) else s
  else s.put a v

/-- The doubleword that a 4-byte write of v at address a produces (R72): the other half of every RW field as it stands,
zero in every other field, so that no event bit there is cleared or set. A buckle's count stands at its home (R192). -/
def State.mergeHalf (s : State) (a : Nat) (v : Word) (width : Nat) : Word :=
  let dw := a / 8 * 8
  let o := (dw - dieBase 0) % 0x02000000
  let keep := if dw < hubBase ∧ o < 0x200000 ∧ 0x8000 ≤ o % 0x10000 ∧ o % 0x10000 < 0x8400 then
      s.tilRead ((dw - dieBase 0) / 0x02000000 * 32 + o / 0x10000) (o % 0x10000)
    else match descOf dw with | some r => s.rd dw &&& r.rw | none => 0
  if width = 8 then v
  else if a % 8 = 0 then (keep &&& 0xFFFFFFFF00000000) ||| (v &&& 0xFFFFFFFF)
  else (keep &&& 0xFFFFFFFF) ||| (v <<< 32)

end Sys2Proof.Machine
end

