-- ==== Sys2Proof/Machine/ScalarInt.lean ====
section
/-!
DEFINITION. The scalar core's integer instructions, moves, branches, jumps and hardware loops (R55 to R62, R65, R479).
-/
namespace Sys2Proof.Machine

abbrev Outcome := Host.Outcome State Fault Refusal

/-- Two source registers, one destination. -/
def aluRR (t : BitVec 8) (rd rs1 rs2 : BitVec 5) (f : Word → Word → Word) (s : State) : Outcome :=
  onTile t [.s rs1.toNat, .s rs2.toNat] s fun n x => s.finS n rd.toNat (f (x.rs rs1.toNat) (x.rs rs2.toNat))

/-- One source register and an immediate. -/
def aluRI (t : BitVec 8) (rd rs1 : BitVec 5) (f : Word → Word) (s : State) : Outcome :=
  onTile t [.s rs1.toNat] s fun n x => s.finS n rd.toNat (f (x.rs rs1.toNat))

def ofBool (b : Bool) : Word := if b then 1 else 0

/-- R55: signed quotient and remainder. -/
def divS (a b : Word) : Word :=
  if b = 0 then BitVec.allOnes 64 else BitVec.ofInt 64 (a.toInt.tdiv b.toInt)
def remS (a b : Word) : Word := if b = 0 then a else BitVec.ofInt 64 (a.toInt.tmod b.toInt)
def divU (a b : Word) : Word := if b = 0 then BitVec.allOnes 64 else BitVec.ofNat 64 (a.toNat / b.toNat)
def remU (a b : Word) : Word := if b = 0 then a else BitVec.ofNat 64 (a.toNat % b.toNat)

/-- Bits of a, the highest first, that are 0 before the first 1 (R479). -/
def clzW (a : Word) : Nat := ((List.range 64).find? fun i => a.getLsbD (63 - i)).getD 64
def ctzW (a : Word) : Nat := ((List.range 64).find? fun i => a.getLsbD i).getD 64
def popcW (a : Word) : Nat := ((List.range 64).filter fun i => a.getLsbD i).length

def execAdd (t : BitVec 8) (rd rs1 rs2 : BitVec 5) (s : State) : Outcome := aluRR t rd rs1 rs2 (fun a b => a + b) s
def execSub (t : BitVec 8) (rd rs1 rs2 : BitVec 5) (s : State) : Outcome := aluRR t rd rs1 rs2 (fun a b => a - b) s
def execAnd (t : BitVec 8) (rd rs1 rs2 : BitVec 5) (s : State) : Outcome := aluRR t rd rs1 rs2 (fun a b => a &&& b) s
def execOr (t : BitVec 8) (rd rs1 rs2 : BitVec 5) (s : State) : Outcome := aluRR t rd rs1 rs2 (fun a b => a ||| b) s
def execXor (t : BitVec 8) (rd rs1 rs2 : BitVec 5) (s : State) : Outcome := aluRR t rd rs1 rs2 (fun a b => a ^^^ b) s
/-- R479: the shift count is bits [5:0]. -/
def execSll (t : BitVec 8) (rd rs1 rs2 : BitVec 5) (s : State) : Outcome :=
  aluRR t rd rs1 rs2 (fun a b => a <<< (b.toNat % 64)) s
def execSrl (t : BitVec 8) (rd rs1 rs2 : BitVec 5) (s : State) : Outcome :=
  aluRR t rd rs1 rs2 (fun a b => a >>> (b.toNat % 64)) s
def execSra (t : BitVec 8) (rd rs1 rs2 : BitVec 5) (s : State) : Outcome :=
  aluRR t rd rs1 rs2 (fun a b => a.sshiftRight (b.toNat % 64)) s
def execSlt (t : BitVec 8) (rd rs1 rs2 : BitVec 5) (s : State) : Outcome :=
  aluRR t rd rs1 rs2 (fun a b => ofBool (a.slt b)) s
def execSltu (t : BitVec 8) (rd rs1 rs2 : BitVec 5) (s : State) : Outcome :=
  aluRR t rd rs1 rs2 (fun a b => ofBool (a.ult b)) s
def execMin (t : BitVec 8) (rd rs1 rs2 : BitVec 5) (s : State) : Outcome :=
  aluRR t rd rs1 rs2 (fun a b => if b.slt a then b else a) s
def execMax (t : BitVec 8) (rd rs1 rs2 : BitVec 5) (s : State) : Outcome :=
  aluRR t rd rs1 rs2 (fun a b => if a.slt b then b else a) s
def execMinu (t : BitVec 8) (rd rs1 rs2 : BitVec 5) (s : State) : Outcome :=
  aluRR t rd rs1 rs2 (fun a b => if b.ult a then b else a) s
def execMaxu (t : BitVec 8) (rd rs1 rs2 : BitVec 5) (s : State) : Outcome :=
  aluRR t rd rs1 rs2 (fun a b => if a.ult b then b else a) s
def execMul (t : BitVec 8) (rd rs1 rs2 : BitVec 5) (s : State) : Outcome := aluRR t rd rs1 rs2 (fun a b => a * b) s
/-- The high half of the signed product. -/
def execMulh (t : BitVec 8) (rd rs1 rs2 : BitVec 5) (s : State) : Outcome :=
  aluRR t rd rs1 rs2 (fun a b => BitVec.ofInt 64 (a.toInt * b.toInt / 2 ^ 64)) s
def execMulhu (t : BitVec 8) (rd rs1 rs2 : BitVec 5) (s : State) : Outcome :=
  aluRR t rd rs1 rs2 (fun a b => BitVec.ofNat 64 (a.toNat * b.toNat / 2 ^ 64)) s
def execDiv (t : BitVec 8) (rd rs1 rs2 : BitVec 5) (s : State) : Outcome := aluRR t rd rs1 rs2 divS s
def execDivu (t : BitVec 8) (rd rs1 rs2 : BitVec 5) (s : State) : Outcome := aluRR t rd rs1 rs2 divU s
def execRem (t : BitVec 8) (rd rs1 rs2 : BitVec 5) (s : State) : Outcome := aluRR t rd rs1 rs2 remS s
def execRemu (t : BitVec 8) (rd rs1 rs2 : BitVec 5) (s : State) : Outcome := aluRR t rd rs1 rs2 remU s
def execClz (t : BitVec 8) (rd rs1 : BitVec 5) (s : State) : Outcome :=
  aluRI t rd rs1 (fun a => BitVec.ofNat 64 (clzW a)) s
def execCtz (t : BitVec 8) (rd rs1 : BitVec 5) (s : State) : Outcome :=
  aluRI t rd rs1 (fun a => BitVec.ofNat 64 (ctzW a)) s
def execPopc (t : BitVec 8) (rd rs1 : BitVec 5) (s : State) : Outcome :=
  aluRI t rd rs1 (fun a => BitVec.ofNat 64 (popcW a)) s

/-- Table 3.3, Table 3.4: imm14 sign-extended, or zero-extended for andi, ori and xori. -/
def sx14 (imm : BitVec 14) : Word := imm.signExtend 64
def zx14 (imm : BitVec 14) : Word := imm.setWidth 64

def execAddi (t : BitVec 8) (rd rs1 : BitVec 5) (imm : BitVec 14) (s : State) : Outcome :=
  aluRI t rd rs1 (fun a => a + sx14 imm) s
def execAndi (t : BitVec 8) (rd rs1 : BitVec 5) (imm : BitVec 14) (s : State) : Outcome :=
  aluRI t rd rs1 (fun a => a &&& zx14 imm) s
def execOri (t : BitVec 8) (rd rs1 : BitVec 5) (imm : BitVec 14) (s : State) : Outcome :=
  aluRI t rd rs1 (fun a => a ||| zx14 imm) s
def execXori (t : BitVec 8) (rd rs1 : BitVec 5) (imm : BitVec 14) (s : State) : Outcome :=
  aluRI t rd rs1 (fun a => a ^^^ zx14 imm) s

/-- A shift immediate uses imm14[5:0]; a nonzero imm14[13:6] raises ILLEGAL with SUB 0 (R65). -/
def shiftI (t : BitVec 8) (rd rs1 : BitVec 5) (imm : BitVec 14) (fn : Nat) (f : Word → Nat → Word) (s : State) : Outcome :=
  onTile t [.s rs1.toNat] s fun n x =>
    if imm.toNat / 64 ≠ 0 then s.exc n exIllegal 0 (wordI 1 rd.toNat rs1.toNat fn imm.toNat)
    else s.finS n rd.toNat (f (x.rs rs1.toNat) (imm.toNat % 64))

def execSlli (t : BitVec 8) (rd rs1 : BitVec 5) (imm : BitVec 14) (s : State) : Outcome :=
  shiftI t rd rs1 imm 4 (fun a k => a <<< k) s
def execSrli (t : BitVec 8) (rd rs1 : BitVec 5) (imm : BitVec 14) (s : State) : Outcome :=
  shiftI t rd rs1 imm 5 (fun a k => a >>> k) s
def execSrai (t : BitVec 8) (rd rs1 : BitVec 5) (imm : BitVec 14) (s : State) : Outcome :=
  shiftI t rd rs1 imm 6 (fun a k => a.sshiftRight k) s
def execSlti (t : BitVec 8) (rd rs1 : BitVec 5) (imm : BitVec 14) (s : State) : Outcome :=
  aluRI t rd rs1 (fun a => ofBool (a.slt (sx14 imm))) s
def execSltiu (t : BitVec 8) (rd rs1 : BitVec 5) (imm : BitVec 14) (s : State) : Outcome :=
  aluRI t rd rs1 (fun a => ofBool (a.ult (sx14 imm))) s

/-- Table 3.4: jalr jumps to rs1 + imm14 with bits [1:0] cleared; a target outside 48 bits faults at its fetch (R68). -/
def execJalr (t : BitVec 8) (rd rs1 : BitVec 5) (imm : BitVec 14) (s : State) : Outcome :=
  onTile t [.s rs1.toNat] s fun n x =>
    s.notLast n (wordI 1 rd.toNat rs1.toNat 0xF imm.toNat)
      (let target := (x.rs rs1.toNat + sx14 imm).toNat / 4 * 4
       (s.setTile n (x.setS rd.toNat ((x.pc + 4).setWidth 64))).retireJump n target)

/-- The pc plus a signed word offset. -/
def pcPlus (pc : BitVec 48) (off : Int) : Nat := (BitVec.ofInt 48 (pc.toNat + 4 * off)).toNat

def execJal (t : BitVec 8) (rd : BitVec 5) (off : BitVec 23) (s : State) : Outcome :=
  onTile t [] s fun n x =>
    s.notLast n (BitVec.ofNat 64 (5 * 2 ^ 28 + rd.toNat * 2 ^ 23 + off.toNat))
      ((s.setTile n (x.setS rd.toNat ((x.pc + 4).setWidth 64))).retireJump n (pcPlus x.pc off.toInt))

/-- COND of Table 3.4; none for an unlisted code. -/
def branchCond (cond : Nat) (a b : Word) : Option Bool :=
  match cond with
  | 0 => some (a == b) | 1 => some (a != b) | 2 => some (a.slt b) | 3 => some (!a.slt b)
  | 4 => some (a.ult b) | 5 => some (!a.ult b) | _ => none

/-- R59: a taken branch goes to the word offset from its own address; an unlisted COND is ILLEGAL with SUB 0 (R65). -/
def execConditionalBranch (t : BitVec 8) (cond : BitVec 3) (rs1 rs2 : BitVec 5) (off : BitVec 15) (s : State) : Outcome :=
  onTile t [.s rs1.toNat, .s rs2.toNat] s fun n x =>
    let word := BitVec.ofNat 64 (4 * 2 ^ 28 + cond.toNat * 2 ^ 25 + rs1.toNat * 2 ^ 20 + rs2.toNat * 2 ^ 15 + off.toNat)
    match branchCond cond.toNat (x.rs rs1.toNat) (x.rs rs2.toNat) with
    | none => s.exc n exIllegal 0 word
    | some taken => s.notLast n word (if taken then s.retireJump n (pcPlus x.pc off.toInt) else s.retire1 n)

/-- Table 3.3: KEEP 0 sets rd to imm16 at field SH; KEEP 1 replaces that field of rd. -/
def execMoveWide (t : BitVec 8) (rd : BitVec 5) (sh : BitVec 2) (keep : Bool) (imm : BitVec 16) (s : State) : Outcome :=
  onTile t (if keep then [.s rd.toNat] else []) s fun n x =>
    let v : Word := (imm.setWidth 64) <<< (16 * sh.toNat)
    let m : Word := (0xFFFF : Word) <<< (16 * sh.toNat)
    s.finS n rd.toNat (if keep then (x.rs rd.toNat &&& ~~~ m) ||| v else v)

/-- R61: loop lcN, s_a, BODY; with COUNT 0 execution continues at the loop end. `body` is BODY - 1 as encoded. -/
def execLoop (t : BitVec 8) (pair : Bool) (ra : BitVec 5) (body : BitVec 12) (s : State) : Outcome :=
  onTileSerial t [.s ra.toNat] s fun n x =>
    let p := if pair then 1 else 0
    s.notLast n (wordE 2 (p * 2 ^ 23 + ra.toNat * 2 ^ 18 + body.toNat))
      (let count := (x.rs ra.toNat).toNat % 2 ^ 32
       let ls := x.pc + 4
       let x := x.setC (csrLc p) (BitVec.ofNat 64 (count * 2 ^ 32 + body.toNat))
       let x := x.setC (csrLs p) (ls.setWidth 64)
       let s := s.setTile n x
       if count = 0 then s.retireTo n ((ls.toNat + 4 * (body.toNat + 1)) % 2 ^ 48) else s.retire1 n)

end Sys2Proof.Machine
end

