-- ==== Sys2Proof/Machine/ScalarFp.lean ====
section
/-!
DEFINITION. The scalar core's FP64 arithmetic (R55, R81, R149, R157, R479, R481).
-/
namespace Sys2Proof.Machine

def Tile.frm (x : Tile) : Nat := x.cf csrFflags ffFrm

/-- An FP64 operation on two f registers into an f register. -/
def fpRR (t : BitVec 8) (rd rs1 rs2 : BitVec 5) (f : Nat → Nat → Nat → Nat × Nat) (s : State) : Outcome :=
  onTile t [.f rs1.toNat, .f rs2.toNat] s fun n x =>
    let r := f x.frm (x.rf rs1.toNat).toNat (x.rf rs2.toNat).toNat
    s.fpFin n r.2 fun x => x.setF rd.toNat (BitVec.ofNat 64 r.1)

/-- An FP64 operation into an s register. -/
def fpCmp (t : BitVec 8) (rd rs1 rs2 : BitVec 5) (f : FVal → FVal → Bool × Nat) (s : State) : Outcome :=
  onTile t [.f rs1.toNat, .f rs2.toNat] s fun n x =>
    let r := f (fp64.decode (x.rf rs1.toNat).toNat) (fp64.decode (x.rf rs2.toNat).toNat)
    s.fpFin n r.2 fun x => x.setS rd.toNat (ofBool r.1)

def fpFma (t : BitVec 8) (rd rs1 rs2 rs3 : BitVec 5) (np na : Bool) (s : State) : Outcome :=
  onTile t [.f rs1.toNat, .f rs2.toNat, .f rs3.toNat] s fun n x =>
    let a := fp64.decode (x.rf rs1.toNat).toNat
    let b := fp64.decode (x.rf rs2.toNat).toNat
    let c := fp64.decode (x.rf rs3.toNat).toNat
    let r := fp64.fmaV x.frm (if np then a.negate else a) b (if na then c.negate else c)
    s.fpFin n r.2 fun x => x.setF rd.toNat (BitVec.ofNat 64 r.1)

def execFadd (t : BitVec 8) (rd rs1 rs2 : BitVec 5) (s : State) : Outcome :=
  fpRR t rd rs1 rs2 (fun m a b => fp64.addV m (fp64.decode a) (fp64.decode b)) s
def execFsub (t : BitVec 8) (rd rs1 rs2 : BitVec 5) (s : State) : Outcome :=
  fpRR t rd rs1 rs2 (fun m a b => fp64.addV m (fp64.decode a) (fp64.decode b).negate) s
def execFmul (t : BitVec 8) (rd rs1 rs2 : BitVec 5) (s : State) : Outcome :=
  fpRR t rd rs1 rs2 (fun m a b =>
    let p := mulV (fp64.decode a) (fp64.decode b)
    let r := fp64.ofV m p.1
    (r.1, r.2 ||| p.2)) s
def execFdiv (t : BitVec 8) (rd rs1 rs2 : BitVec 5) (s : State) : Outcome :=
  fpRR t rd rs1 rs2 (fun m a b => fp64.divV m (fp64.decode a) (fp64.decode b)) s
def execFsqrt (t : BitVec 8) (rd rs1 : BitVec 5) (s : State) : Outcome :=
  fpRR t rd rs1 rs1 (fun m a _ => fp64.sqrtV m (fp64.decode a)) s
def execFmin (t : BitVec 8) (rd rs1 rs2 : BitVec 5) (s : State) : Outcome :=
  fpRR t rd rs1 rs2 (fun _ a b => fp64.minMax false a b) s
def execFmax (t : BitVec 8) (rd rs1 rs2 : BitVec 5) (s : State) : Outcome :=
  fpRR t rd rs1 rs2 (fun _ a b => fp64.minMax true a b) s

/-- R149: the sign of b joined to the magnitude of a, bits otherwise unchanged. -/
def signMask : Word := 0x8000000000000000
def signInj (t : BitVec 8) (rd rs1 rs2 : BitVec 5) (f : Word → Word → Word) (s : State) : Outcome :=
  onTile t [.f rs1.toNat, .f rs2.toNat] s fun n x =>
    s.finF n rd.toNat ((x.rf rs1.toNat &&& ~~~ signMask) ||| (f (x.rf rs1.toNat) (x.rf rs2.toNat) &&& signMask))
def execFsgnj (t : BitVec 8) (rd rs1 rs2 : BitVec 5) (s : State) : Outcome := signInj t rd rs1 rs2 (fun _ b => b) s
def execFsgnjn (t : BitVec 8) (rd rs1 rs2 : BitVec 5) (s : State) : Outcome := signInj t rd rs1 rs2 (fun _ b => ~~~ b) s
def execFsgnjx (t : BitVec 8) (rd rs1 rs2 : BitVec 5) (s : State) : Outcome := signInj t rd rs1 rs2 (fun a b => a ^^^ b) s

/-- Comparisons (R55): equality signals only for a signalling NaN, the ordered comparisons for any NaN (log 14). -/
def cmpEq (a b : FVal) : Bool × Nat :=
  if a.isNan || b.isNan then (false, nanFlags [a, b]) else (a.cmp b == .eq, 0)
def cmpLt (a b : FVal) : Bool × Nat := if a.isNan || b.isNan then (false, flNV) else (a.cmp b == .lt, 0)
def cmpLe (a b : FVal) : Bool × Nat := if a.isNan || b.isNan then (false, flNV) else (a.cmp b != .gt, 0)
-- log 14: DEDUCED, unsafe.
def execFeq (t : BitVec 8) (rd rs1 rs2 : BitVec 5) (s : State) : Outcome := fpCmp t rd rs1 rs2 cmpEq s
-- log 14: DEDUCED, unsafe.
def execFlt (t : BitVec 8) (rd rs1 rs2 : BitVec 5) (s : State) : Outcome := fpCmp t rd rs1 rs2 cmpLt s
-- log 14: DEDUCED, unsafe.
def execFle (t : BitVec 8) (rd rs1 rs2 : BitVec 5) (s : State) : Outcome := fpCmp t rd rs1 rs2 cmpLe s

/-- R479: one-hot class. -/
def execFclass (t : BitVec 8) (rd rs1 : BitVec 5) (s : State) : Outcome :=
  onTile t [.f rs1.toNat] s fun n x => s.finS n rd.toNat (BitVec.ofNat 64 (2 ^ fp64.classOf (x.rf rs1.toNat).toNat))

def execFcvtDL (t : BitVec 8) (rd rs1 : BitVec 5) (s : State) : Outcome :=
  onTile t [.s rs1.toNat] s fun n x =>
    let r := fp64.round x.frm ((x.rs rs1.toNat).toInt < 0) (x.rs rs1.toNat).toInt.natAbs 0 false
    s.fpFin n r.2 fun x => x.setF rd.toNat (BitVec.ofNat 64 r.1)
def execFcvtLD (t : BitVec 8) (rd rs1 : BitVec 5) (s : State) : Outcome :=
  onTile t [.f rs1.toNat] s fun n x =>
    let r := toIntV x.frm (-2 ^ 63) (2 ^ 63 - 1) (fp64.decode (x.rf rs1.toNat).toNat)
    s.fpFin n r.2 fun x => x.setS rd.toNat (BitVec.ofInt 64 r.1)
def execFcvtDLu (t : BitVec 8) (rd rs1 : BitVec 5) (s : State) : Outcome :=
  onTile t [.s rs1.toNat] s fun n x =>
    let r := fp64.round x.frm false (x.rs rs1.toNat).toNat 0 false
    s.fpFin n r.2 fun x => x.setF rd.toNat (BitVec.ofNat 64 r.1)
def execFcvtLuD (t : BitVec 8) (rd rs1 : BitVec 5) (s : State) : Outcome :=
  onTile t [.f rs1.toNat] s fun n x =>
    let r := toIntV x.frm 0 (2 ^ 64 - 1) (fp64.decode (x.rf rs1.toNat).toNat)
    s.fpFin n r.2 fun x => x.setS rd.toNat (BitVec.ofInt 64 r.1)

/-- R149: moves of bits. -/
def execFmvXD (t : BitVec 8) (rd rs1 : BitVec 5) (s : State) : Outcome :=
  onTile t [.f rs1.toNat] s fun n x => s.finS n rd.toNat (x.rf rs1.toNat)
def execFmvDX (t : BitVec 8) (rd rs1 : BitVec 5) (s : State) : Outcome :=
  onTile t [.s rs1.toNat] s fun n x => s.finF n rd.toNat (x.rs rs1.toNat)

/-- R479: the four fused forms: the exact result, negation included, rounded once. -/
def execFmadd (t : BitVec 8) (rd rs1 rs2 rs3 : BitVec 5) (s : State) : Outcome := fpFma t rd rs1 rs2 rs3 false false s
def execFmsub (t : BitVec 8) (rd rs1 rs2 rs3 : BitVec 5) (s : State) : Outcome := fpFma t rd rs1 rs2 rs3 false true s
def execFnmadd (t : BitVec 8) (rd rs1 rs2 rs3 : BitVec 5) (s : State) : Outcome := fpFma t rd rs1 rs2 rs3 true true s
def execFnmsub (t : BitVec 8) (rd rs1 rs2 rs3 : BitVec 5) (s : State) : Outcome := fpFma t rd rs1 rs2 rs3 true false s

end Sys2Proof.Machine
end

