-- ==== Sys2Proof/Machine/ScalarMem.lean ====
section
/-!
DEFINITION. Scalar loads and stores (R57, R68, R69, R76, R149, R157, R193, R478).
-/
namespace Sys2Proof.Machine

/-- The block of control space that an address belongs to (Tables 12.11 and 12.12; R478). -/
def ctlBlock (a : Nat) : Nat :=
  if hubBase ≤ a then a / 0x100000 * 0x100000
  else
    let o := (a - dieBase 0) % 0x02000000
    if o < 0x200000 then a / 0x10000 * 0x10000
    else if o / 0x100000 = 3 then a / 0x40000 * 0x40000
    else if o / 0x100000 = 4 then a / 0x1000 * 0x1000
    else a / 0x100000 * 0x100000

/-- The address lies in the TIL_ block of tile t. -/
def ownTil (t a : Nat) : Bool := tilBase t ≤ a && a < tilBase t + 0x10000

/-- An in-flight memory store takes effect at its home (R193) and is in flight no more; true when it waits there instead
(R355, R373). A store the LLS refuses, or whose home has no path (R266), has retired: it is dropped. -/
def State.performStore (s : State) (o : OutStore) : State × Bool :=
  let out (s : State) : State := { s with store := { s.store with outStores := s.store.outStores.erase o } }
  if s.holds (o.tile / 32) (dieOf o.addr) && !s.vekin.old.any (·.stores.contains o) then (s, true)
  else if s.reach (o.tile / 32) (dieOf o.addr) then
    match s.memWrite .scalar o.tile o.addr o.width o.value with
    | (s, some (.held, _)) => (s, true)
    | (s, _) => (out s, false)
  else (out ((s.unhold .scalar o.tile o.addr o.width).rasEvent (o.tile / 32) 0x14 3 (o.tile % 32) 0 o.addr), false)

/-- The tile's own in-flight memory stores that overlap n bytes at a take effect first, in program order (R193), and so do
those on their way to the same other die (R262); true when one of them waits. -/
def State.ownStoresFirst (s : State) (t a n : Nat) : State × Bool :=
  let d := dieOf a
  (s.store.outStores.filter fun o => o.tile == t && !o.ctl &&
    (o.addr < a + n && a < o.addr + o.width || d != t / 32 && dieOf o.addr == d)).foldl
    (fun p o => if p.2 then p else p.1.performStore o) (s, false)

/-- What a load's read ends with. -/
inductive LoadRes where
  | value (v : Nat)
  | fault (f : AccFail)
  /-- held at its home (R355, R373): tried again -/
  | wait
  /-- on its way to a control-space block (R478) -/
  | control
  deriving DecidableEq, Repr

/-- The pieces of a load read in address order. `va` is the virtual address of the piece and i its half. -/
def State.loadPieces (s : State) (t va i : Nat) : List (Nat × Nat) → State × LoadRes
  | [] => (s, .value 0)
  | (a, n) :: ps =>
    match regionOf a with
    | .ctl =>
      if ownTil t a then
        let w := s.tilRead t ((a - tilBase t) / 8 * 8)
        (s, .value (w.toNat / 256 ^ (a % 8) % 256 ^ n))
      else ({ s with links := { s.links with ctlReads := s.links.ctlReads ++ [⟨t, a, n, none⟩] } }, .control)
    | r =>
      let got := match r with
        | .store _ => s.storeRead t a n
        | _ =>
          let own := s.ownStoresFirst t a n
          if own.2 || own.1.holds (t / 32) (dieOf a) then (own.1, .error (.held, a))
          else if s.reach (t / 32) (dieOf a) then own.1.memRead .scalar a n else (own.1, .error (.uncorr, a))
      match got with
      | (s, .error (.held, _)) => (s, .wait)
      | (s, .error (.uncorr, _)) => (s, .fault ⟨exMemUncorr, i, va⟩)
      | (s, .error (.access, b)) => (s, .fault ⟨exLoadAccess, i, va + (b - a)⟩)
      | (s, .ok v) =>
        match s.loadPieces t (va + n) (i + 1) ps with
        | (s, .value w) => (s, .value (v + w * 256 ^ n))
        | r => r

def extend (width : Nat) (signed : Bool) (v : Nat) : Word :=
  if signed then (match width with
    | 1 => (BitVec.ofNat 8 v).signExtend 64 | 2 => (BitVec.ofNat 16 v).signExtend 64
    | 4 => (BitVec.ofNat 32 v).signExtend 64 | _ => BitVec.ofNat 64 v)
  else BitVec.ofNat 64 v

/-- The value of a load enters its register and the load retires; flw widens as a conversion (R157). -/
def State.finLoad (s : State) (t rd : Nat) (fp : Bool) (width : Nat) (signed : Bool) (v : Nat) : State :=
  if fp then
    if width = 4 then
      let r := fp64.ofV 0 (fp32.decode (v % 2 ^ 32))
      s.fpFin t r.2 fun x => x.setF rd (BitVec.ofNat 64 r.1)
    else s.finF t rd (BitVec.ofNat 64 v)
  else s.finS t rd (extend width signed v)

def sAddr (x : Tile) (rs1 : BitVec 5) (imm : BitVec 14) : Nat := (x.rs rs1.toNat + sx14 imm).toNat

/-- A scalar load of `width` bytes. -/
def loadOp (t : BitVec 8) (rd rs1 : BitVec 5) (imm : BitVec 14) (fp : Bool) (width : Nat) (signed : Bool) (s : State) :
    Outcome :=
  onTile t [.s rs1.toNat] s fun n x =>
    let va := sAddr x rs1 imm
    match s.access n .load va width with
    | .error e => s.exc n e.code e.sub (BitVec.ofNat 64 e.addr)
    | .ok ps =>
      match s.loadPieces n va 0 ps with
      | (s, .value v) => s.finLoad n rd.toNat fp width signed v
      | (s, .fault e) => s.exc n e.code e.sub (BitVec.ofNat 64 e.addr)
      | (s, .wait) => s
      | (s, .control) => s.setTile n { s.tile n with mode := .ctlLoad rd.toNat fp width signed }

def execLb (t : BitVec 8) (rd rs1 : BitVec 5) (imm : BitVec 14) (s : State) : Outcome := loadOp t rd rs1 imm false 1 true s
def execLh (t : BitVec 8) (rd rs1 : BitVec 5) (imm : BitVec 14) (s : State) : Outcome := loadOp t rd rs1 imm false 2 true s
def execLw (t : BitVec 8) (rd rs1 : BitVec 5) (imm : BitVec 14) (s : State) : Outcome := loadOp t rd rs1 imm false 4 true s
def execLd (t : BitVec 8) (rd rs1 : BitVec 5) (imm : BitVec 14) (s : State) : Outcome := loadOp t rd rs1 imm false 8 true s
def execLbu (t : BitVec 8) (rd rs1 : BitVec 5) (imm : BitVec 14) (s : State) : Outcome := loadOp t rd rs1 imm false 1 false s
def execLhu (t : BitVec 8) (rd rs1 : BitVec 5) (imm : BitVec 14) (s : State) : Outcome := loadOp t rd rs1 imm false 2 false s
def execLwu (t : BitVec 8) (rd rs1 : BitVec 5) (imm : BitVec 14) (s : State) : Outcome := loadOp t rd rs1 imm false 4 false s
def execFld (t : BitVec 8) (rd rs1 : BitVec 5) (imm : BitVec 14) (s : State) : Outcome := loadOp t rd rs1 imm true 8 false s
def execFlw (t : BitVec 8) (rd rs1 : BitVec 5) (imm : BitVec 14) (s : State) : Outcome := loadOp t rd rs1 imm true 4 false s

def State.sendStore (s : State) (o : OutStore) : State :=
  { s with store := { s.store with outStores := s.store.outStores ++ [o] } }

/-- The pieces of a store are written, or leave for their homes (R193, R478). -/
def State.storePieces (s : State) (t v : Nat) : List (Nat × Nat) → State
  | [] => s
  | (a, n) :: ps =>
    let w := v % 256 ^ n
    let s := match regionOf a with
      | .store _ => s.storeWrite a n w
      | .ctl =>
        if ownTil t a then s.tilWrite (.tile t) t ((a - tilBase t) / 8 * 8) (s.mergeHalf a (BitVec.ofNat 64 w) n)
        else s.sendStore (OutStore.mk t a n w true)
      | _ => s.sendStore (OutStore.mk t a n w false)
    s.storePieces t (v / 256 ^ n) ps

/-- A scalar store of the low `width` bytes of v: it retires at issue. -/
def State.storeOp (s : State) (t va width : Nat) (v : Word) : State :=
  match s.access t .store va width with
  | .error e => s.exc t e.code e.sub (BitVec.ofNat 64 e.addr)
  | .ok ps => (s.storePieces t (v.toNat % 256 ^ width) ps).retire1 t

def storeS (t : BitVec 8) (rd rs1 : BitVec 5) (imm : BitVec 14) (width : Nat) (s : State) : Outcome :=
  onTile t [.s rd.toNat, .s rs1.toNat] s fun n x => s.storeOp n (sAddr x rs1 imm) width (x.rs rd.toNat)

def execSb (t : BitVec 8) (rd rs1 : BitVec 5) (imm : BitVec 14) (s : State) : Outcome := storeS t rd rs1 imm 1 s
def execSh (t : BitVec 8) (rd rs1 : BitVec 5) (imm : BitVec 14) (s : State) : Outcome := storeS t rd rs1 imm 2 s
def execSw (t : BitVec 8) (rd rs1 : BitVec 5) (imm : BitVec 14) (s : State) : Outcome := storeS t rd rs1 imm 4 s
def execSd (t : BitVec 8) (rd rs1 : BitVec 5) (imm : BitVec 14) (s : State) : Outcome := storeS t rd rs1 imm 8 s
def execFsd (t : BitVec 8) (rd rs1 : BitVec 5) (imm : BitVec 14) (s : State) : Outcome :=
  onTile t [.f rd.toNat, .s rs1.toNat] s fun n x => s.storeOp n (sAddr x rs1 imm) 8 (x.rf rd.toNat)
-- log 15: DEDUCED, unsafe.
/-- fsw narrows by FRM as a conversion; an enabled flag traps and nothing is stored (R81, R157). An address fault
comes first (log 15). -/
def execFsw (t : BitVec 8) (rd rs1 : BitVec 5) (imm : BitVec 14) (s : State) : Outcome :=
  onTile t [.f rd.toNat, .s rs1.toNat] s fun n x =>
    let va := sAddr x rs1 imm
    match s.access n .store va 4 with
    | .error e => s.exc n e.code e.sub (BitVec.ofNat 64 e.addr)
    | .ok _ =>
      let r := fp32.ofV x.frm (fp64.decode (x.rf rd.toNat).toNat)
      let y := x.raiseFlags 0 r.2
      if y.trapsOn r.2 then (s.setTile n (y.noteAsum 0 r.2)).exc n exArith 0 0
      else (s.setTile n y).storeOp n va 4 (BitVec.ofNat 64 r.1)

end Sys2Proof.Machine
end

