-- ==== Sys2Proof/Machine/Csr.lean ====
section
/-!
DEFINITION. CSR accesses (R66, R477, R90, R120, R139; Table 3.7).
-/
namespace Sys2Proof.Machine

/-- What Table 3.7 and the CSR tables say of one CSR: supervisor only, read-only, and the bits of each access type. -/
structure CsrDesc where
  sup : Bool
  ro : Bool
  rw : Word
  w1c : Word
  rsv : Word
  deriving DecidableEq, Repr

/-- bits [hi:lo] as a mask -/
def bitsMask (hi lo : Nat) : Word := BitVec.ofNat 64 ((2 ^ (hi - lo + 1) - 1) * 2 ^ lo)

def rwCsr (sup : Bool) (rw w1c ro : Word) : CsrDesc := ⟨sup, false, rw, w1c, ~~~ (rw ||| w1c ||| ro)⟩
def roCsr (sup : Bool) : CsrDesc := ⟨sup, true, 0, 0, 0⟩

def csrDesc (n : Nat) : Option CsrDesc :=
  if n = csrStatus then some (rwCsr false (bitsMask 10 8) (bitsMask 15 14) 1)
  else if n = csrMask then some (rwCsr true (bitsMask 13 8 ||| bitsMask 15 15 ||| 7) 0 (bitsMask 14 14))
  else if n = csrCause ∨ n = csrEpc ∨ n = csrTval ∨ n = csrIpend then some (roCsr true)
  else if n = csrTbase then some (rwCsr true (bitsMask 47 9) 0 0)
  else if n = csrFsp ∨ n = csrFsl then some (rwCsr true (bitsMask 47 8) 0 0)
  else if csrEntry 0 ≤ n ∧ n ≤ csrEntry 3 then some (rwCsr true (bitsMask 47 2) 0 0)
  else if n = csrAsum then some (rwCsr false (bitsMask 12 8 ||| 0xF) 0 0)
  else if n = csrLen then some (rwCsr false (bitsMask 14 0) 0 0)
  else if n = csrGrp then some (rwCsr false 0xF 0 0)
  else if n = csrVfx then some (rwCsr false 0xE7 0 0)
  else if n = csrFflags then some (rwCsr false 0xFF 0 0)
  else if n = csrFtrap then some (rwCsr false 0x1F 0 0)
  else if n = csrLc 0 ∨ n = csrLc 1 then some (rwCsr false (bitsMask 63 32 ||| bitsMask 11 0) 0 0)
  else if n = csrLs 0 ∨ n = csrLs 1 then some (rwCsr false (bitsMask 47 2) 0 0)
  else if n = csrMprog then some (rwCsr false 0 (bitsMask 63 63) (bitsMask 62 60 ||| bitsMask 52 0))
  else if n = csrMseed then some (rwCsr false (BitVec.allOnes 64) 0 0)
  else if n = csrAccmode then some (rwCsr false 0xD 0 0)
  else if n = csrCycle ∨ n = csrInstret ∨ n = csrTid ∨ n = csrPloc then some (roCsr false)
  else none

/-- The value a CSR shows. cycle counts tile cycles, which the model leaves free (log 2). -/
def State.csrValue (s : State) (t n : Nat) : State × Word :=
  if n = csrCycle then let r := s.fresh; (r.2, r.1)
  else if n = csrTid then (s, BitVec.ofNat 64 t)
  else if n = csrPloc then (s, BitVec.ofNat 64 (s.physOf t))
  else if n = csrIpend then (s, s.ipend t)
  else (s, (s.tile t).c n)

/-- R87: VLMAX of a grp value. -/
def vlmaxOf (g : Word) : Nat := 2 ^ (g.toNat % 4) * 16384 / (8 * 2 ^ (g.toNat / 4 % 4))
def Tile.vlmax (x : Tile) : Nat := vlmaxOf (x.c csrGrp)

/-- grp takes a value; len is reduced to the new VLMAX (R90). -/
def Tile.setGrp (x : Tile) (g : Word) : Tile :=
  let x := x.setC csrGrp g
  x.setC csrLen (BitVec.ofNat 64 (min (x.c csrLen).toNat x.vlmax))

/-- R477: the value of each field that an access with OP 1, 2 or 3 gives. -/
def csrNew (d : CsrDesc) (op : Nat) (old v : Word) : Word :=
  let rw := match op with | 1 => v | 2 => old ||| v | _ => old &&& ~~~ v
  let one := if op = 3 then 0 else v
  (old &&& ~~~ d.rw &&& ~~~ (one &&& d.w1c)) ||| (rw &&& d.rw)

/-- Every operation of both matrix units has completed. -/
def Tile.matIdle (x : Tile) : Bool := x.kUnit.isEmpty && x.dUnit.isEmpty
def Tile.isPaused (x : Tile) : Bool := match x.kPause with | .paused _ => true | _ => false

/-- R139: the paused or held stream and every later operation of the K-stream unit are discarded; a wait for its ready
buckle is withdrawn (R476). The bank keeps the panels already added. -/
def State.mprogDiscard (s : State) (t : Nat) : State :=
  let x := s.tile t
  if x.cf csrMprog mpValid = 1 then
    let x := { x with kUnit := [], kPause := match x.kPause with | .asked _ => .none | p => p }
    let x := x.setC csrMprog (mpHeld.put (mpValid.put (x.c csrMprog) 0) 0)
    let s := (s.setTile t x).bkWithdraw (fun w => w == .ring t)
    { s with links := { s.links with done := s.links.done.filter fun w => w ≠ .ring t } }
  else s

/-- What an access ends with. -/
inductive CsrRes where
  | done
  | exc (code sub : Nat)
  | wait
  deriving DecidableEq, Repr

/-- R120: a write that changes MODE. -/
def State.setAccmode (s : State) (t : Nat) (v : Word) : State × CsrRes :=
  let x := s.tile t
  if v.getLsbD 0 = (x.c csrAccmode).getLsbD 0 then (s.setTile t (x.setC csrAccmode v), .done)
  else if x.isPaused || x.cf csrMprog mpHeld == 1 then (s, .exc exMatConfig 5)
  else if !x.matIdle then (s, .wait)
  else (s.setTile t { x.setC csrAccmode v with acc := [], parBad := x.parBad.filter fun r => match r with | .acc _ => false | _ => true }, .done)

/-- fflags takes a value; a flag that is cleared is no longer remembered for its unit (R82). -/
def Tile.setFflags (x : Tile) (v : Word) : Tile :=
  let f := v.toNat % 32
  { x.setC csrFflags v with raised := x.raised &&& (f + f * 2 ^ 5 + f * 2 ^ 10 + f * 2 ^ 15) }

/-- A permitted write of CSR n with the value v that its fields take. -/
def State.csrStore (s : State) (t n : Nat) (v : Word) (disc : Bool) : State × CsrRes :=
  let x := s.tile t
  if n = csrFflags then
    if 5 ≤ ffFrm.get v then (s, .exc exIllegal 1) else (s.setTile t (x.setFflags v), .done)
  else if n = csrVfx then
    if 5 ≤ v.toNat / 32 % 8 then (s, .exc exIllegal 1) else (s.setTile t (x.setC n v), .done)
  else if n = csrLen then (s.setTile t (x.setC n (BitVec.ofNat 64 (min v.toNat x.vlmax))), .done)
  else if n = csrGrp then (s.setTile t (x.setGrp v), .done)
  else if n = csrAccmode then s.setAccmode t v
  else if n = csrMprog then (if disc then s.mprogDiscard t else s, .done)
  else (s.setTile t (x.setC n v), .done)

-- log 17: DEDUCED, unsafe.
/-- A user-level access that R66 and R477 refuse. -/
def userBad (d : CsrDesc) (n op : Nat) (old v : Word) : Bool :=
  d.sup || (op != 0 && d.ro) || (n == csrAsum && (op == 1 || op == 2)) ||
    (n == csrStatus && op != 0 && ((csrNew d op old v ^^^ old) &&& bitsMask 9 8) != 0)

-- log 17: DEDUCED, unsafe.
/-- A CSR access: OP 0 read, 1 write, 2 set bits, 3 clear bits. The checks come in the order unassigned, privilege,
RSV (log 17). -/
def csrAccess (t : BitVec 8) (rd rs1 : BitVec 5) (csr : BitVec 12) (op : Nat) (s : State) : Outcome :=
  let n := csr.toNat
  onTile t (.csr n :: (if op = 0 then [] else [.s rs1.toNat])) s fun i x =>
    let word := wordE 0 (rd.toNat * 2 ^ 19 + rs1.toNat * 2 ^ 14 + op * 2 ^ 12 + n)
    match csrDesc n with
    | none => s.exc i exIllegal 0 word
    | some d =>
      if x.user && userBad d n op (x.c n) (x.rs rs1.toNat) then s.exc i exPrivileged 0 word
      else if op ≠ 0 ∧ !d.ro ∧ n ≠ csrAsum ∧ x.drainBusy then s
      else
        let r := s.csrValue i n
        let old := r.2
        let v := x.rs rs1.toNat
        if op = 0 ∨ d.ro then r.1.finS i rd.toNat old
        else if op ≠ 3 ∧ v &&& d.rsv ≠ 0 then s.exc i exIllegal 1 word
        else
          match r.1.csrStore i n (csrNew d op old v) (op != 3 && v.getLsbD 63) with
          | (s, .done) => s.finS i rd.toNat old
          | (s, .exc c k) => s.exc i c k word
          | (s, .wait) => s

def execCsrRead (t : BitVec 8) (rd rs1 : BitVec 5) (csr : BitVec 12) (s : State) : Outcome := csrAccess t rd rs1 csr 0 s
def execCsrWrite (t : BitVec 8) (rd rs1 : BitVec 5) (csr : BitVec 12) (s : State) : Outcome := csrAccess t rd rs1 csr 1 s
def execCsrSet (t : BitVec 8) (rd rs1 : BitVec 5) (csr : BitVec 12) (s : State) : Outcome := csrAccess t rd rs1 csr 2 s
def execCsrClear (t : BitVec 8) (rd rs1 : BitVec 5) (csr : BitVec 12) (s : State) : Outcome := csrAccess t rd rs1 csr 3 s

/-- A write, set or clear of accmode (OP 1, 2 or 3). -/
def opOf (op : BitVec 2) : Nat := if op.toNat = 0 then 1 else op.toNat
def execAccmodeChange (t : BitVec 8) (op : BitVec 2) (rd rs1 : BitVec 5) (s : State) : Outcome :=
  csrAccess t rd rs1 (BitVec.ofNat 12 csrAccmode) (opOf op) s
/-- A write that carries 1 for mprog.VALID. -/
def execMprogDiscard (t : BitVec 8) (op : BitVec 2) (rd rs1 : BitVec 5) (s : State) : Outcome :=
  csrAccess t rd rs1 (BitVec.ofNat 12 csrMprog) (opOf op) s

end Sys2Proof.Machine
end

