-- ==== Sys2Proof/Machine/VecOps.lean ====
section
/-!
DEFINITION. What every vector instruction shares: register groups (R87, R88, R91), activity (R92), elements, accesses to
the tile store (R94, R95), the scalar operand (R100), flags and retirement (R99, R114).
-/
namespace Sys2Proof.Machine

/-! ### Groups -/

def Tile.gf (x : Tile) : Nat := 2 ^ ((x.c csrGrp).toNat % 4)
def Tile.ew (x : Tile) : Nat := 8 * 2 ^ ((x.c csrGrp).toNat / 4 % 4)
def Tile.len (x : Tile) : Nat := (x.c csrLen).toNat
def Tile.vfrm (x : Tile) : Nat := (x.c csrVfx).toNat / 32 % 8
def Tile.vxrm (x : Tile) : Nat := (x.c csrVfx).toNat % 4

/-- The width an element takes in a register: W, with 8 for MXFP6 (R88, R153). -/
def regW (f : Nat) : Nat := if fmtW f = 6 then 8 else fmtW f

/-- R88: the registers an operand of width w occupies. -/
def Tile.nregs (x : Tile) (w : Nat) : Nat := max 1 (x.gf * w / x.ew)
def Tile.badGroup (x : Tile) (r w : Nat) : Bool := 8 < x.nregs w || r % x.nregs w != 0
def Tile.groupOf (x : Tile) (r w : Nat) : List Nat := (List.range (x.nregs w)).map (r + ·)

/-- R91: a destination of n registers at d overlaps a source of k registers at r in a forbidden way. -/
def overlapBad (d n r k : Nat) : Bool := d < r + k && r < d + n && !(d == r && n == k)

/-- R91 for a destination of n registers at d, followed by a scale register when it is MX (R104): N compares n alone. -/
def overlapMX (mx : Bool) (d n r k : Nat) : Bool := overlapBad d n r k || (mx && overlapBad (d + n) 1 r k)

/-- Registers named as operands by a drain (R133, R140). -/
def DOp.regs (d : DOp) : List Nat :=
  let rows := field d.par 14 8 + 1
  ((chainOf d.words).stages.filter fun g => 2 ≤ g.opnd).flatMap fun g =>
    let n := if g.opnd = 2 then 128 else rows * 128
    (List.range ((n * fmtW g.arg + 16383) / 16384)).map (g.vreg + ·)

/-! ### Elements -/

def Tile.elem (x : Tile) (r w i : Nat) : Nat :=
  (x.rv (r + i * w / 16384)).toNat / 2 ^ (i * w % 16384) % 2 ^ w

def Tile.setElem (x : Tile) (r w i v : Nat) : Tile :=
  let k := r + i * w / 16384
  let m := BitVec.ofNat 16384 ((2 ^ w - 1) <<< (i * w % 16384))
  x.setV k ((x.rv k &&& ~~~ m) ||| BitVec.ofNat 16384 ((v % 2 ^ w) <<< (i * w % 16384)))

/-- R92: element i is active under PM. -/
def Tile.activeAt (x : Tile) (pm i : Nat) : Bool := i < x.len && (pm % 8 == 0 || (x.rp (pm % 8)).getLsbD i)

/-- The elements of destination d: active ones from f (bits, flags, saturated), inactive ones kept or zeroed as PM
selects, those at len or above kept. -/
def Tile.vmap (x : Tile) (pm d w : Nat) (f : Nat → Nat × Nat × Bool) : Tile × Nat × Bool :=
  (List.range x.len).foldl (fun a i =>
    if x.activeAt pm i then let r := f i; (a.1.setElem d w i r.1, a.2.1 ||| r.2.1, a.2.2 || r.2.2)
    else if 8 ≤ pm then (a.1.setElem d w i 0, a.2) else a) (x, 0, false)

/-! ### The instruction frame -/

def wordV (g vd vs1 b fmt pm op : Nat) : Word :=
  BitVec.ofNat 64 (g * 2 ^ 28 + vd * 2 ^ 23 + vs1 * 2 ^ 18 + b * 2 ^ 13 + fmt * 2 ^ 8 + pm * 2 ^ 4 + op)
def wordB (sub low : Nat) : Word := BitVec.ofNat 64 (0xB * 2 ^ 28 + sub * 2 ^ 24 + low)

def okIf (bad : Bool) (e : Nat × Nat) (k : Option (Nat × Nat)) : Option (Nat × Nat) := if bad then some e else k

-- log 47: DEDUCED, unsafe.
/-- A vector instruction: configuration checks before any state changes (R117), a wait while a drain names a register
it writes (R133), parity of what it reads (R371), and waking of a gated engine (R115). -/
def vecOp (t : BitVec 8) (word : Word) (chk : Tile → Option (Nat × Nat)) (writes : Tile → List Nat)
    (reads : Tile → List ParReg) (s : State) (k : Nat → Tile → State → State) : Outcome :=
  onTile t [] s fun n x =>
    match chk x with
    | some e => s.exc n e.1 e.2 word
    | none =>
      if x.dUnit.any fun d => (writes x).any fun r => d.regs.contains r then s
      else if (reads x).any fun r => x.parBad.contains r then s.parityHalt n false
      else
        let x := { x with vecGated := false }
        k n x (s.setTile n x)

/-- The instruction's results x are in place: VXSAT, flags of a unit, then the trap of precise mode, which names the
instruction, or retirement (R83, R99, R102, R114). -/
def State.vecFin (s : State) (t : Nat) (x : Tile) (unit flags : Nat) (sat : Bool) : State :=
  let x := x.raiseFlags unit flags
  let x := if sat then x.setC csrVfx (x.c csrVfx ||| 4) else x
  if x.precise && x.trapsOn flags then (s.setTile t (x.noteAsum unit flags)).exc t exArith 0 0
  else (s.setTile t x).retire1 t

def vregs (x : Tile) (r w : Nat) : List ParReg := (x.groupOf r w).map .v
def pmReads (pm : Nat) : List ParReg := if pm % 8 = 0 then [] else [.p (pm % 8)]

/-- R100, R157: the scalar operand for elements of format f: its bits and the flags of its one conversion, which an
FP64 operand passes too (its NaN becomes the canonical one). -/
def Tile.scalarOp (x : Tile) (f r : Nat) : Nat × Nat :=
  if isF f then
    let c := (fpOf f).ofV x.vfrm (fp64.decode (x.rf r).toNat); (c.1, if x.len = 0 then 0 else c.2)
  else ((x.rs r).toNat % 2 ^ fmtW f, 0)
def scalarReg (f r : Nat) : ParReg := if isF f then .f r else .s r

-- log 47: DEDUCED, unsafe.
/-- Checks shared by element-wise instructions: a format code of R20 first (log 47), then reserved PM and class. -/
def fmtChk (f pm : Nat) (cls : Nat → Bool) (k : Option (Nat × Nat)) : Option (Nat × Nat) :=
  okIf (24 ≤ f) (exVersion, 0) (okIf (pm == 8 || !cls f) (exIllegal, 0) k)

/-! ### Tile store accesses (R94, R95) -/

/-- The device page base of each 64 KiB page of an access, or the cause its fault raises. -/
def State.vecPage (s : State) (t : Nat) (user : Bool) (k : Acc) (page : Nat) : Except Nat Nat :=
  match s.translate t user k (page * 65536) with
  | .error e => .error e
  | .ok a => if inStore t a 65536 then .ok a else .error (accCode k)

/-- What an access of n elements of mw bits at va touches: the two pages, as resolved. -/
structure VecAcc where
  va : Nat
  p0 : Except Nat Nat
  p1 : Except Nat Nat

def State.vecAcc (s : State) (t : Nat) (k : Acc) (va : Nat) : VecAcc :=
  let u := (s.tile t).user
  ⟨va, s.vecPage t u k (va / 65536), s.vecPage t u k (va / 65536 + 1)⟩

/-- The device address of byte j of the access, or its half and cause. -/
def VecAcc.at (a : VecAcc) (j : Nat) : Except (Nat × Nat) Nat :=
  let b := a.va + j
  if b / 65536 = a.va / 65536 then
    match a.p0 with | .ok d => .ok (d + b % 65536) | .error e => .error (e, 0)
  else match a.p1 with | .ok d => .ok (d + b % 65536) | .error e => .error (e, 1)

/-- The bytes of element i of mw bits. -/
def elemBytes (mw i : Nat) : List Nat :=
  (List.range ((i * mw + mw - 1) / 8 - i * mw / 8 + 1)).map (i * mw / 8 + ·)

/-- The lowest half in which an active element of the access faults, with its cause. -/
def VecAcc.fault (a : VecAcc) (n mw : Nat) (act : Nat → Bool) : Option (Nat × Nat) :=
  let touch (h : Nat) : Bool := (List.range n).any fun i => act i && (elemBytes mw i).any fun j =>
    (if (a.va + j) / 65536 = a.va / 65536 then 0 else 1) == h
  match a.p0, a.p1 with
  | .error e, .ok _ => if touch 0 then some (e, 0) else none
  | .ok _, .error e => if touch 1 then some (e, 1) else none
  | .error e, .error g => if touch 0 then some (e, 0) else if touch 1 then some (g, 1) else none
  | .ok _, .ok _ => none

/-- The exception of a vector address fault: SUB bit 1, bit 0 the half; tval the first byte of that half. -/
def State.vecFault (s : State) (t va cause half : Nat) : State :=
  s.exc t cause (2 + half) (BitVec.ofNat 64 (if half = 0 then va else (va / 65536 + 1) * 65536))

/-- Byte j of the access, which faults nowhere. -/
def State.vecByte (s : State) (a : VecAcc) (j : Nat) : Nat :=
  match a.at j with | .ok d => (s.byte d).toNat | .error _ => 0

/-- Element i as memory holds it. -/
def State.vecElem (s : State) (a : VecAcc) (mw i : Nat) : Nat :=
  let v := (elemBytes mw i).foldr (fun j acc => s.vecByte a j + 256 * acc) 0
  v / 2 ^ (i * mw % 8) % 2 ^ mw

/-- R98, R370: the bytes of the active elements are read from the store: the address of the first bad one. -/
def State.vecReadCheck (s : State) (t : Nat) (a : VecAcc) (n mw : Nat) (act : Nat → Bool) : State × Option Nat :=
  let bytes := ((List.range n).filter act).flatMap (elemBytes mw)
  bytes.foldl (fun r j =>
    match r.2 with
    | some _ => r
    | none => match a.at j with
      | .error _ => r
      | .ok d => match r.1.storeRead t d 1 with
        | (s, .ok _) => (s, none)
        | (s, .error _) => (s, some (a.va + j))) (s, none)

/-- R98: MEM_UNCORR at the 128-byte unit of the bad byte. -/
def State.vecUncorr (s : State) (t va bad : Nat) : State :=
  let half := if bad / 65536 = va / 65536 then 0 else 1
  s.exc t exMemUncorr (2 + half) (BitVec.ofNat 64 (bad / 128 * 128))

/-- Element i is written with v: only the bytes it covers, its neighbours in a shared byte kept. -/
def State.vecPut (s : State) (a : VecAcc) (mw i v : Nat) : State :=
  let js := elemBytes mw i
  let old := js.foldr (fun j acc => s.vecByte a j + 256 * acc) 0
  let sh := i * mw % 8
  let new := old - old / 2 ^ sh % 2 ^ mw * 2 ^ sh + v % 2 ^ mw * 2 ^ sh
  (js.zip (List.range js.length)).foldl (fun s p =>
    match a.at p.1 with | .ok d => s.storeWrite d 1 (new / 256 ^ p.2 % 256) | .error _ => s) s

end Sys2Proof.Machine
end

