-- ==== Sys2Proof/Machine/VecArith.lean ====
section
/-!
DEFINITION. Element-wise vector instructions (groups 0x8, 0x9 and 0xA): R99 to R103, Tables 4.8 and 4.9.
-/
namespace Sys2Proof.Machine

/-- vsetl (R89): serialising. -/
def execVsetl (t : BitVec 8) (rd rs1 : BitVec 5) (gf ew : BitVec 2) (s : State) : Outcome :=
  onTileSerial t [.s rs1.toNat] s fun n x =>
    let g : Word := BitVec.ofNat 64 (ew.toNat * 4 + gf.toNat)
    let l := min (x.rs rs1.toNat).toNat (vlmaxOf g)
    let x := (x.setC csrGrp g).setC csrLen (BitVec.ofNat 64 l)
    (s.setTile n x).finS n rd.toNat (BitVec.ofNat 64 l)

/-! ### Element functions: bits, flags, saturated -/

abbrev ElemFn := Nat → Nat → Nat → Nat → Nat → Nat × Nat × Bool

/-- A class F operation, else one on the integers of the elements. Arguments: format, VXRM, VFRM, a, b. -/
def fOr (ff : FpFmt → Nat → Nat → Nat → Nat × Nat) (fi : Nat → Int → Int → Int) : ElemFn := fun f _ vfrm a b =>
  if isF f then let r := ff (fpOf f) vfrm a b; (r.1, r.2, false)
  else (bitsOf (fmtW f) (fi f (intOf f a) (intOf f b)), 0, false)

def vAddE : ElemFn := fOr (fun g m a b => g.addV m (g.decode a) (g.decode b)) fun _ a b => a + b
def vSubE : ElemFn := fOr (fun g m a b => g.addV m (g.decode a) (g.decode b).negate) fun _ a b => a - b
def vMulE : ElemFn :=
  fOr (fun g m a b => let p := mulV (g.decode a) (g.decode b); let r := g.ofV m p.1; (r.1, r.2 ||| p.2)) fun _ a b => a * b
def vDivE : ElemFn := fOr (fun g m a b => g.divV m (g.decode a) (g.decode b)) fun _ a _ => a
def vMinE : ElemFn := fOr (fun g _ a b => g.minMax false a b) fun _ a b => min a b
def vMaxE : ElemFn := fOr (fun g _ a b => g.minMax true a b) fun _ a b => max a b
def vAndE : ElemFn := fun _ _ _ a b => (Nat.land a b, 0, false)
def vOrE : ElemFn := fun _ _ _ a b => (Nat.lor a b, 0, false)
def vXorE : ElemFn := fun _ _ _ a b => (Nat.xor a b, 0, false)
/-- R101: the count is the second operand modulo W. -/
def vSllE : ElemFn := fun f _ _ a b => (a * 2 ^ (b % fmtW f) % 2 ^ fmtW f, 0, false)
def vSrlE : ElemFn := fun f _ _ a b => (a / 2 ^ (b % fmtW f), 0, false)
/-- The arithmetic shift of the element's value; UINT8 is unsigned (log 19). -/
def vSraE : ElemFn := fun f _ _ a b => (bitsOf (fmtW f) (intOf f a / 2 ^ (b % fmtW f)), 0, false)
def satE (g : Int → Int → Int) : ElemFn := fun f _ _ a b =>
  let c := clampTo f (g (intOf f a) (intOf f b)); (bitsOf (fmtW f) c.1, 0, c.2)
def vSaddE : ElemFn := satE fun a b => a + b
def vSsubE : ElemFn := satE fun a b => a - b
def vAaddE : ElemFn := fun f vxrm _ a b => (bitsOf (fmtW f) (roundoff (intOf f a + intOf f b) 1 vxrm), 0, false)
def vAsubE : ElemFn := fun f vxrm _ a b => (bitsOf (fmtW f) (roundoff (intOf f a - intOf f b) 1 vxrm), 0, false)
def vSmulE : ElemFn := fun f vxrm _ a b =>
  let c := clampTo f (roundoff (intOf f a * intOf f b) (fmtW f - 1) vxrm); (bitsOf (fmtW f) c.1, 0, c.2)
def vSsrE : ElemFn := fun f vxrm _ a b => (bitsOf (fmtW f) (roundoff (intOf f a) (b % fmtW f) vxrm), 0, false)

/-! ### Two-operand instructions -/

/-- vd, vs1, and b a vector register or (group 0x9) a scalar register. `two` also reads vd (fma, fnms). -/
def vecBin (g op : Nat) (t : BitVec 8) (vs : Bool) (vd vs1 b fmt : BitVec 5) (pm : BitVec 4) (cls : Nat → Bool)
    (limit2 : Bool) (f : ElemFn) (s : State) : Outcome :=
  let fm := fmt.toNat
  let w := fmtW fm
  let d := vd.toNat
  let a := vs1.toNat
  let r := b.toNat
  let p := pm.toNat
  vecOp t (wordV g d a r fm p op)
    (fun x => fmtChk fm p cls
      (okIf (x.badGroup d w || x.badGroup a w || (!vs && x.badGroup r w)) (exVecConfig, 0)
        (okIf (limit2 && 2 < x.nregs w) (exVecConfig, 4) none)))
    (fun x => x.groupOf d w)
    (fun x => vregs x a w ++ (if vs then [scalarReg fm r] else vregs x r w) ++ pmReads p)
    s fun n x s =>
      let sc := if vs then x.scalarOp fm r else (0, 0)
      let res := x.vmap p d w fun i => f fm x.vxrm x.vfrm (x.elem a w i) (if vs then sc.1 else x.elem r w i)
      s.vecFin n res.1 1 (res.2.1 ||| sc.2) res.2.2

def clsFI (f : Nat) : Bool := isF f || isI f
def clsIQ (f : Nat) : Bool := isI f || isQ f

/-- Groups 0x8 and 0x9. -/
def vecBin89 (op : Nat) (t : BitVec 8) (vs : Bool) (vd vs1 b fmt : BitVec 5) (pm : BitVec 4) (cls : Nat → Bool)
    (f : ElemFn) (s : State) : Outcome :=
  vecBin (if vs then 9 else 8) op t vs vd vs1 b fmt pm cls (op == 3) f s

def execVadd (t : BitVec 8) (vs : Bool) (vd vs1 b fmt : BitVec 5) (pm : BitVec 4) (s : State) : Outcome :=
  vecBin89 0 t vs vd vs1 b fmt pm isFIQ vAddE s
def execVsub (t : BitVec 8) (vs : Bool) (vd vs1 b fmt : BitVec 5) (pm : BitVec 4) (s : State) : Outcome :=
  vecBin89 1 t vs vd vs1 b fmt pm isFIQ vSubE s
def execVmul (t : BitVec 8) (vs : Bool) (vd vs1 b fmt : BitVec 5) (pm : BitVec 4) (s : State) : Outcome :=
  vecBin89 2 t vs vd vs1 b fmt pm clsFI vMulE s
def execVdiv (t : BitVec 8) (vs : Bool) (vd vs1 b fmt : BitVec 5) (pm : BitVec 4) (s : State) : Outcome :=
  vecBin89 3 t vs vd vs1 b fmt pm isF vDivE s
def execVmin (t : BitVec 8) (vs : Bool) (vd vs1 b fmt : BitVec 5) (pm : BitVec 4) (s : State) : Outcome :=
  vecBin89 4 t vs vd vs1 b fmt pm isFIQ vMinE s
def execVmax (t : BitVec 8) (vs : Bool) (vd vs1 b fmt : BitVec 5) (pm : BitVec 4) (s : State) : Outcome :=
  vecBin89 5 t vs vd vs1 b fmt pm isFIQ vMaxE s
def execVand (t : BitVec 8) (vs : Bool) (vd vs1 b fmt : BitVec 5) (pm : BitVec 4) (s : State) : Outcome :=
  vecBin89 6 t vs vd vs1 b fmt pm clsIQ vAndE s
def execVor (t : BitVec 8) (vs : Bool) (vd vs1 b fmt : BitVec 5) (pm : BitVec 4) (s : State) : Outcome :=
  vecBin89 7 t vs vd vs1 b fmt pm clsIQ vOrE s
def execVxor (t : BitVec 8) (vs : Bool) (vd vs1 b fmt : BitVec 5) (pm : BitVec 4) (s : State) : Outcome :=
  vecBin89 8 t vs vd vs1 b fmt pm clsIQ vXorE s
def execVsll (t : BitVec 8) (vs : Bool) (vd vs1 b fmt : BitVec 5) (pm : BitVec 4) (s : State) : Outcome :=
  vecBin89 9 t vs vd vs1 b fmt pm clsIQ vSllE s
def execVsrl (t : BitVec 8) (vs : Bool) (vd vs1 b fmt : BitVec 5) (pm : BitVec 4) (s : State) : Outcome :=
  vecBin89 10 t vs vd vs1 b fmt pm clsIQ vSrlE s
-- log 19: DEDUCED, unsafe.
def execVsra (t : BitVec 8) (vs : Bool) (vd vs1 b fmt : BitVec 5) (pm : BitVec 4) (s : State) : Outcome :=
  vecBin89 11 t vs vd vs1 b fmt pm clsIQ vSraE s
def execVsadd (t : BitVec 8) (vs : Bool) (vd vs1 b fmt : BitVec 5) (pm : BitVec 4) (s : State) : Outcome :=
  vecBin89 14 t vs vd vs1 b fmt pm clsIQ vSaddE s
def execVssub (t : BitVec 8) (vs : Bool) (vd vs1 b fmt : BitVec 5) (pm : BitVec 4) (s : State) : Outcome :=
  vecBin89 15 t vs vd vs1 b fmt pm clsIQ vSsubE s

/-- vd ± a × b with one rounding for class F; modulo 2^W for class I (R99, R101). -/
def vecFma (op : Nat) (neg : Bool) (t : BitVec 8) (vs : Bool) (vd vs1 b fmt : BitVec 5) (pm : BitVec 4) (s : State) : Outcome :=
  let fm := fmt.toNat
  let w := fmtW fm
  let d := vd.toNat
  let a := vs1.toNat
  let r := b.toNat
  let p := pm.toNat
  vecOp t (wordV (if vs then 9 else 8) d a r fm p op)
    (fun x => fmtChk fm p clsFI
      (okIf (x.badGroup d w || x.badGroup a w || (!vs && x.badGroup r w)) (exVecConfig, 0) none))
    (fun x => x.groupOf d w)
    (fun x => vregs x d w ++ vregs x a w ++ (if vs then [scalarReg fm r] else vregs x r w) ++ pmReads p)
    s fun n x s =>
      let sc := if vs then x.scalarOp fm r else (0, 0)
      let res := x.vmap p d w fun i =>
        let e := x.elem a w i
        let q := if vs then sc.1 else x.elem r w i
        let c := x.elem d w i
        if isF fm then
          let g := fpOf fm
          let r := g.fmaV x.vfrm (if neg then (g.decode e).negate else g.decode e) (g.decode q) (g.decode c)
          (r.1, r.2, false)
        else (bitsOf w (if neg then intOf fm c - intOf fm e * intOf fm q else intOf fm c + intOf fm e * intOf fm q), 0, false)
      s.vecFin n res.1 1 (res.2.1 ||| sc.2) res.2.2

def execVfma (t : BitVec 8) (vs : Bool) (vd vs1 b fmt : BitVec 5) (pm : BitVec 4) (s : State) : Outcome :=
  vecFma 12 false t vs vd vs1 b fmt pm s
def execVfnms (t : BitVec 8) (vs : Bool) (vd vs1 b fmt : BitVec 5) (pm : BitVec 4) (s : State) : Outcome :=
  vecFma 13 true t vs vd vs1 b fmt pm s

/-! ### Group 0xA -/

def execVaadd (t : BitVec 8) (vd vs1 vs2 fmt : BitVec 5) (pm : BitVec 4) (s : State) : Outcome :=
  vecBin 10 0 t false vd vs1 vs2 fmt pm clsIQ false vAaddE s
def execVasub (t : BitVec 8) (vd vs1 vs2 fmt : BitVec 5) (pm : BitVec 4) (s : State) : Outcome :=
  vecBin 10 1 t false vd vs1 vs2 fmt pm clsIQ false vAsubE s
def execSmulVv (t : BitVec 8) (vd vs1 vs2 fmt : BitVec 5) (pm : BitVec 4) (s : State) : Outcome :=
  vecBin 10 2 t false vd vs1 vs2 fmt pm isQ false vSmulE s
def execSmulVs (t : BitVec 8) (vd vs1 rs2 fmt : BitVec 5) (pm : BitVec 4) (s : State) : Outcome :=
  vecBin 10 3 t true vd vs1 rs2 fmt pm isQ false vSmulE s
def execSsr (t : BitVec 8) (vd vs1 rs2 fmt : BitVec 5) (pm : BitVec 4) (s : State) : Outcome :=
  vecBin 10 4 t true vd vs1 rs2 fmt pm clsIQ false vSsrE s

/-- The destination format of nclip (R102). -/
def nclipDst : Nat → Option Nat
  | 4 => some 5 | 5 => some 6 | 6 => some 7 | 9 => some 11 | 10 => some 9 | _ => none

/-- nclip: FMT names the source, of width 2W. -/
def execNclip (t : BitVec 8) (vd vs1 rs2 fmt : BitVec 5) (pm : BitVec 4) (s : State) : Outcome :=
  let fm := fmt.toNat
  let w := fmtW fm
  let p := pm.toNat
  let d := vd.toNat
  let a := vs1.toNat
  vecOp t (wordV 10 d a rs2.toNat fm p 5)
    (fun x => fmtChk fm p (fun f => (nclipDst f).isSome)
      (okIf (x.badGroup d (w / 2) || x.badGroup a w) (exVecConfig, 0)
        (okIf (overlapBad d (x.nregs (w / 2)) a (x.nregs w)) (exVecConfig, 2) none)))
    (fun x => x.groupOf d (w / 2))
    (fun x => vregs x a w ++ [.s rs2.toNat] ++ pmReads p)
    s fun n x s =>
      let k := (x.rs rs2.toNat).toNat % w
      let dst := (nclipDst fm).getD 0
      let res := x.vmap p d (w / 2) fun i =>
        let c := clampTo dst (roundoff (intOf fm (x.elem a w i)) k x.vxrm)
        (bitsOf (w / 2) c.1, 0, c.2)
      s.vecFin n res.1 1 res.2.1 res.2.2

/-- Unary operations: function code, permitted classes, element function. -/
def vecUnary (code : Nat) (cls : Nat → Bool) (limit2 : Bool) (f : Nat → Nat → Nat → Nat × Nat) (t : BitVec 8)
    (vd vs1 fmt : BitVec 5) (pm : BitVec 4) (s : State) : Outcome :=
  let fm := fmt.toNat
  let w := fmtW fm
  let d := vd.toNat
  let a := vs1.toNat
  let p := pm.toNat
  vecOp t (wordV 10 d a code fm p 6)
    (fun x => fmtChk fm p cls
      (okIf (x.badGroup d w || x.badGroup a w) (exVecConfig, 0)
        (okIf (limit2 && 2 < x.nregs w) (exVecConfig, 4) none)))
    (fun x => x.groupOf d w) (fun x => vregs x a w ++ pmReads p)
    s fun n x s =>
      let res := x.vmap p d w fun i => let r := f fm x.vfrm (x.elem a w i); (r.1, r.2, false)
      s.vecFin n res.1 1 res.2.1 false

/-- R149: neg and abs of class F change the sign bit alone; of classes I and Q they wrap. -/
def vNegE (f _m a : Nat) : Nat × Nat := if isF f then (Nat.xor a (2 ^ (fmtW f - 1)), 0) else (bitsOf (fmtW f) (- intOf f a), 0)
def vAbsE (f _m a : Nat) : Nat × Nat := if isF f then (a % 2 ^ (fmtW f - 1), 0) else (bitsOf (fmtW f) (intOf f a).natAbs, 0)

def execVneg (t : BitVec 8) (vd vs1 fmt : BitVec 5) (pm : BitVec 4) (s : State) : Outcome :=
  vecUnary 0 isFIQ false vNegE t vd vs1 fmt pm s
def execVabs (t : BitVec 8) (vd vs1 fmt : BitVec 5) (pm : BitVec 4) (s : State) : Outcome :=
  vecUnary 1 isFIQ false vAbsE t vd vs1 fmt pm s
def execVsqrt (t : BitVec 8) (vd vs1 fmt : BitVec 5) (pm : BitVec 4) (s : State) : Outcome :=
  vecUnary 2 isF true (fun f m a => (fpOf f).sqrtV m ((fpOf f).decode a)) t vd vs1 fmt pm s
def execVnot (t : BitVec 8) (vd vs1 fmt : BitVec 5) (pm : BitVec 4) (s : State) : Outcome :=
  vecUnary 3 clsIQ false (fun f _ a => (2 ^ fmtW f - 1 - a, 0)) t vd vs1 fmt pm s
def execVcopy (t : BitVec 8) (vd vs1 fmt : BitVec 5) (pm : BitVec 4) (s : State) : Outcome :=
  vecUnary 4 isFIQ false (fun _ _ a => (a, 0)) t vd vs1 fmt pm s

/-- vsplat: the scalar of R100 into every active element. -/
def execVsplat (t : BitVec 8) (vd r fmt : BitVec 5) (pm : BitVec 4) (s : State) : Outcome :=
  let fm := fmt.toNat
  let w := fmtW fm
  let d := vd.toNat
  let p := pm.toNat
  vecOp t (wordB 6 (d * 2 ^ 19 + r.toNat * 2 ^ 14 + fm * 2 ^ 9 + p * 2 ^ 5))
    (fun x => fmtChk fm p isFIQ (okIf (x.badGroup d w) (exVecConfig, 0) none))
    (fun x => x.groupOf d w) (fun _ => scalarReg fm r.toNat :: pmReads p)
    s fun n x s =>
      let sc := x.scalarOp fm r.toNat
      let res := x.vmap p d w fun _ => (sc.1, 0, false)
      s.vecFin n res.1 1 sc.2 false

end Sys2Proof.Machine
end

