-- ==== Sys2Proof/Machine/VecMem.lean ====
section
/-!
DEFINITION. Vector loads and stores, predicates, compares, reductions, conversions and vchain (chapter 04).
-/
namespace Sys2Proof.Machine

/-! ### Loads and stores (R94 to R98, R106, R153, R154) -/

-- log 155: DEDUCED, unsafe.
/-- Elements moved, their width in memory, their width in registers, for FMT at length len. -/
def moveShape (f len : Nat) : Nat × Nat × Nat :=
  if f = 0x16 then (len / 32, 8, 8) else (len, fmtW f, regW f)

/-- vld or vst of KIND 0 or 1: configuration. -/
def moveChk (x : Tile) (f p r : Nat) (ff : Bool) : Option (Nat × Nat) :=
  fmtChk f p isFormat
    (okIf (x.badGroup r (regW f)) (exVecConfig, 0)
      (okIf (16 ≤ f && x.len % 32 != 0) (exVecConfig, 3)
        (okIf (ff && p != 0) (exVecConfig, 5) none)))

/-- KIND 2 moves a whole group: PM 0 and FMT 0. -/
def wholeChk (x : Tile) (f p r : Nat) : Option (Nat × Nat) :=
  okIf (24 ≤ f) (exVersion, 0)
    (okIf (f != 0 || p == 8) (exIllegal, 0) (okIf (r % x.gf != 0) (exVecConfig, 0) (okIf (p != 0) (exVecConfig, 5) none)))

-- log 155: DEDUCED, unsafe.
/-- R92: whether unit i of a vld or vst moves; for E8M0 the unit is a scale byte, and predicate bit i governs byte i
(log 155). -/
def Tile.moveAct (x : Tile) (p i : Nat) : Bool := p % 8 == 0 || (x.rp (p % 8)).getLsbD i

/-- A load into elements of register r: n elements of mw bits in memory and rw bits in registers. -/
def State.vecLoad (s : State) (t : Nat) (x : Tile) (va r n mw rw p : Nat) (k : State → Tile → State) : State :=
  let a := s.vecAcc t .load va
  let act := x.moveAct p
  match a.fault n mw act with
  | some e => s.vecFault t va e.1 e.2
  | none =>
    match s.vecReadCheck t a n mw act with
    | (s, some b) => s.vecUncorr t va b
    | (s, none) =>
      k s ((List.range n).foldl (fun x i =>
        if act i then x.setElem r rw i (s.vecElem a mw i) else if 8 ≤ p then x.setElem r rw i 0 else x) x)

def State.vecStore (s : State) (t : Nat) (x : Tile) (va r n mw rw p : Nat) : State :=
  let a := s.vecAcc t .store va
  let act := x.moveAct p
  match a.fault n mw act with
  | some e => s.vecFault t va e.1 e.2
  | none =>
    ((List.range n).foldl (fun s i => if act i then s.vecPut a mw i (x.elem r rw i) else s) s).retire1 t

def wordMem (sub r rs1 f p kind : Nat) : Word :=
  wordB sub (r * 2 ^ 19 + rs1 * 2 ^ 14 + f * 2 ^ 9 + p * 2 ^ 5 + kind * 2 ^ 3)

def execVld (t : BitVec 8) (vd rs1 fmt : BitVec 5) (pm : BitVec 4) (whole : Bool) (s : State) : Outcome :=
  let f := fmt.toNat
  let p := pm.toNat
  let r := vd.toNat
  vecOp t (wordMem 10 r rs1.toNat f p (if whole then 2 else 0))
    (fun x => if whole then wholeChk x f p r else moveChk x f p r false)
    (fun x => if whole then (List.range x.gf).map (r + ·) else x.groupOf r (regW f))
    (fun _ => .s rs1.toNat :: pmReads p)
    s fun n x s =>
      let va := (x.rs rs1.toNat).toNat
      if whole then s.vecLoad n x va r (256 * x.gf) 64 64 0 fun s x => (s.setTile n x).retire1 n
      else
        let m := moveShape f x.len
        s.vecLoad n x va r m.1 m.2.1 m.2.2 p fun s x => (s.setTile n x).retire1 n

/-- The first element of an access with a byte in its upper page. -/
def VecAcc.firstUpper (a : VecAcc) (n mw : Nat) : Nat :=
  ((List.range n).find? fun i => (elemBytes mw i).any fun j => (a.va + j) / 65536 != a.va / 65536).getD n

-- log 154: DEDUCED, unsafe.
/-- R97: a first-fault load. For E8M0 whose scale byte k faults, len becomes 32k (log 154). -/
def execVldFf (t : BitVec 8) (vd rs1 fmt : BitVec 5) (pm : BitVec 4) (s : State) : Outcome :=
  let f := fmt.toNat
  let p := pm.toNat
  let r := vd.toNat
  vecOp t (wordMem 10 r rs1.toNat f p 1) (fun x => moveChk x f p r true) (fun x => x.groupOf r (regW f))
    (fun _ => [.s rs1.toNat])
    s fun n x s =>
      let va := (x.rs rs1.toNat).toNat
      let m := moveShape f x.len
      let a := s.vecAcc n .load va
      let k := match a.p1 with | .ok _ => m.1 | .error _ => a.firstUpper m.1 m.2.1
      if k = 0 ∧ m.1 ≠ 0 then
        (match a.p0, a.p1 with
         | .error e, _ => s.vecFault n va e 0
         | _, .error e => s.vecFault n va e 1
         | _, _ => s)
      else s.vecLoad n x va r k m.2.1 m.2.2 0 fun s x =>
        let x := if k < m.1 then x.setC csrLen (BitVec.ofNat 64 (if f = 0x16 then 32 * k else k)) else x
        (s.setTile n x).retire1 n

def execVst (t : BitVec 8) (vs rs1 fmt : BitVec 5) (pm : BitVec 4) (whole : Bool) (s : State) : Outcome :=
  let f := fmt.toNat
  let p := pm.toNat
  let r := vs.toNat
  vecOp t (wordMem 11 r rs1.toNat f p (if whole then 2 else 0))
    (fun x => if whole then wholeChk x f p r else moveChk x f p r false) (fun _ => [])
    (fun x => .s rs1.toNat :: ((if whole then (List.range x.gf).map (fun i => .v (r + i)) else vregs x r (regW f)) ++ pmReads p))
    s fun n x s =>
      let va := (x.rs rs1.toNat).toNat
      if whole then s.vecStore n x va r (256 * x.gf) 64 64 0
      else let m := moveShape f x.len; s.vecStore n x va r m.1 m.2.1 m.2.2 p

/-- pld and pst move all 2,048 bytes (R106). -/
def execPld (t : BitVec 8) (pd : BitVec 3) (rs1 : BitVec 5) (s : State) : Outcome :=
  vecOp t (wordB 8 (pd.toNat * 2 ^ 21 + rs1.toNat * 2 ^ 16)) (fun _ => none) (fun _ => []) (fun _ => [.s rs1.toNat])
    s fun n x s =>
      let va := (x.rs rs1.toNat).toNat
      let a := s.vecAcc n .load va
      match a.fault 2048 8 (fun _ => true) with
      | some e => s.vecFault n va e.1 e.2
      | none => match s.vecReadCheck n a 2048 8 (fun _ => true) with
        | (s, some b) => s.vecUncorr n va b
        | (s, none) =>
          let v := (List.range 2048).foldr (fun j acc => s.vecByte a j + 256 * acc) 0
          (s.setTile n (x.setP pd.toNat (BitVec.ofNat 16384 v))).retire1 n
def execPst (t : BitVec 8) (ps : BitVec 3) (rs1 : BitVec 5) (s : State) : Outcome :=
  vecOp t (wordB 9 (ps.toNat * 2 ^ 21 + rs1.toNat * 2 ^ 16)) (fun _ => none) (fun _ => [])
    (fun _ => [.s rs1.toNat, .p ps.toNat])
    s fun n x s =>
      let va := (x.rs rs1.toNat).toNat
      let a := s.vecAcc n .store va
      match a.fault 2048 8 (fun _ => true) with
      | some e => s.vecFault n va e.1 e.2
      | none =>
        ((List.range 2048).foldl (fun s j => s.vecPut a 8 j ((x.rp ps.toNat).toNat / 256 ^ j % 256)) s).retire1 n

/-! ### Compares and predicates (R93, R105, R106) -/

/-- COND of R105 on two elements: the bit and the flags. -/
def vcmpE (f cond a b : Nat) : Bool × Nat :=
  if isF f then
    let u := valOf f a
    let v := valOf f b
    let nan := u.isNan || v.isNan
    match cond with
    | 0 => (!nan && u.cmp v == .eq, nanFlags [u, v])
    | 1 => (nan || u.cmp v != .eq, nanFlags [u, v])
    | 2 => (!nan && u.cmp v == .lt, if nan then flNV else 0)
    | 3 => (!nan && u.cmp v != .gt, if nan then flNV else 0)
    | 4 => (!nan && u.cmp v == .gt, if nan then flNV else 0)
    | 5 => (!nan && u.cmp v != .lt, if nan then flNV else 0)
    | _ => (nan, nanFlags [u, v])
  else
    let u := intOf f a
    let v := intOf f b
    (match cond with
     | 0 => decide (u = v) | 1 => decide (u ≠ v) | 2 => decide (u < v) | 3 => decide (u ≤ v) | 4 => decide (v < u)
     | _ => decide (v ≤ u), 0)

/-- The 16,384 bits with bit i set where g i, below len (R93). -/
def predOf (len : Nat) (g : Nat → Bool) : BitVec 16384 :=
  BitVec.ofNat 16384 ((List.range len).foldl (fun a i => if g i then a + 2 ^ i else a) 0)

/-- vcmp.vv and vcmp.vs; gov is the governing predicate, 0 none. -/
def vecCmp (sub : Nat) (vs : Bool) (t : BitVec 8) (pd cond : BitVec 3) (vs1 b fmt : BitVec 5) (gov : BitVec 3) (s : State) : Outcome :=
  let f := fmt.toNat
  let w := fmtW f
  let g := gov.toNat
  let c := cond.toNat
  vecOp t (wordB sub (pd.toNat * 2 ^ 21 + c * 2 ^ 18 + vs1.toNat * 2 ^ 13 + b.toNat * 2 ^ 8 + f * 2 ^ 3 + g))
    (fun x => fmtChk f 0 (fun f => isFIQ f && c != 7 && (c != 6 || isF f))
      (okIf (x.badGroup vs1.toNat w || (!vs && x.badGroup b.toNat w)) (exVecConfig, 0) none))
    (fun _ => [])
    (fun x => vregs x vs1.toNat w ++ (if vs then [scalarReg f b.toNat] else vregs x b.toNat w) ++ pmReads g)
    s fun n x s =>
      let sc := if vs then x.scalarOp f b.toNat else (0, 0)
      let e (i : Nat) := vcmpE f c (x.elem vs1.toNat w i) (if vs then sc.1 else x.elem b.toNat w i)
      let fl := (List.range x.len).foldl (fun a i => if x.activeAt g i then a ||| (e i).2 else a) sc.2
      s.vecFin n (x.setP pd.toNat (predOf x.len fun i => x.activeAt g i && (e i).1)) 1 fl false

def execVcmpVv (t : BitVec 8) (pd cond : BitVec 3) (vs1 vs2 fmt : BitVec 5) (gov : BitVec 3) (s : State) : Outcome :=
  vecCmp 1 false t pd cond vs1 vs2 fmt gov s
def execVcmpVs (t : BitVec 8) (pd cond : BitVec 3) (vs1 b fmt : BitVec 5) (gov : BitVec 3) (s : State) : Outcome :=
  vecCmp 2 true t pd cond vs1 b fmt gov s

def pfn (f : Nat) (a b : Bool) : Bool :=
  match f with
  | 0 => a && b | 1 => a || b | 2 => a != b | 3 => a && !b | 4 => a || !b | 5 => !(a && b) | 6 => !(a || b) | _ => a == b

def execPlogic (t : BitVec 8) (pd pa pb fn : BitVec 3) (s : State) : Outcome :=
  vecOp t 0 (fun _ => none) (fun _ => []) (fun _ => [.p pa.toNat, .p pb.toNat]) s fun n x s =>
    s.vecFin n (x.setP pd.toNat (predOf x.len fun i =>
      pfn fn.toNat ((x.rp pa.toNat).getLsbD i) ((x.rp pb.toNat).getLsbD i))) 1 0 false

def execPset (t : BitVec 8) (pd : BitVec 3) (val : Bool) (s : State) : Outcome :=
  vecOp t 0 (fun _ => none) (fun _ => []) (fun _ => []) s fun n x s =>
    s.vecFin n (x.setP pd.toNat (predOf x.len fun _ => val)) 1 0 false

def execPcount (t : BitVec 8) (rd : BitVec 5) (pa : BitVec 3) (s : State) : Outcome :=
  vecOp t 0 (fun _ => none) (fun _ => []) (fun _ => [.p pa.toNat]) s fun n x s =>
    let k := ((List.range x.len).filter fun i => (x.rp pa.toNat).getLsbD i).length
    s.vecFin n (x.setS rd.toNat (BitVec.ofNat 64 k)) 1 0 false

def execPfirst (t : BitVec 8) (rd : BitVec 5) (pa : BitVec 3) (s : State) : Outcome :=
  vecOp t 0 (fun _ => none) (fun _ => []) (fun _ => [.p pa.toNat]) s fun n x s =>
    let k := (List.range x.len).find? fun i => (x.rp pa.toNat).getLsbD i
    s.vecFin n (x.setS rd.toNat (match k with | some i => BitVec.ofNat 64 i | none => BitVec.allOnes 64)) 1 0 false

/-! ### Reductions (R107, R108) -/

-- log 20: DESIGN CHOICE, safe.
/-- vext (log 20): element 0, exactly widened; with len 0 the spec gives no result, and the value is free. -/
def execVext (t : BitVec 8) (rd vs fmt : BitVec 5) (s : State) : Outcome :=
  let f := fmt.toNat
  let w := fmtW f
  vecOp t (wordB 7 (rd.toNat * 2 ^ 19 + vs.toNat * 2 ^ 14 + f * 2 ^ 9))
    (fun x => fmtChk f 0 isFIQ (okIf (x.badGroup vs.toNat w) (exVecConfig, 0) none)) (fun _ => [])
    (fun x => vregs x vs.toNat w)
    s fun n x s =>
      if x.len = 0 then
        let r := s.fresh
        r.2.vecFin n (if isF f then x.setF rd.toNat r.1 else x.setS rd.toNat r.1) 1 0 false
      else
        let e := x.elem vs.toNat w 0
        if isF f then
          let r := fp64.ofV 0 (valOf f e)
          s.vecFin n (x.setF rd.toNat (BitVec.ofNat 64 r.1)) 1 r.2 false
        else s.vecFin n (x.setS rd.toNat (BitVec.ofNat 64 (widenI f e))) 1 0 false

/-- One node of the tree of R107 in 64 bits: value and flags. -/
def redOp (f fn vfrm a b : Nat) : Nat × Nat :=
  if isF f then
    match fn with
    | 0 => fp64.addV vfrm (fp64.decode a) (fp64.decode b)
    | 1 => fp64.minMax true a b
    | _ => fp64.minMax false a b
  else
    let lt : Bool := if f = 8 then a < b else (BitVec.ofNat 64 a).slt (BitVec.ofNat 64 b)
    (match fn with
     | 0 => (a + b) % 2 ^ 64 | 1 => if lt then b else a | 2 => if lt then a else b
     | 3 => Nat.land a b | 4 => Nat.lor a b | _ => Nat.xor a b, 0)

/-- A level of the tree: neighbours are joined, an absent one passes its sibling on. -/
def redLevel (op : Nat → Nat → Nat × Nat) : List (Option Nat) → List (Option Nat) × Nat
  | a :: b :: r =>
    let q := redLevel op r
    match a, b with
    | some x, some y => let v := op x y; (some v.1 :: q.1, v.2 ||| q.2)
    | none, y => (y :: q.1, q.2)
    | x, none => (x :: q.1, q.2)
  | r => (r, 0)

/-- The tree of R107: `fuel` levels. -/
def redTree (op : Nat → Nat → Nat × Nat) : Nat → List (Option Nat) → Option Nat × Nat
  | 0, l => (l.headD none, 0)
  | k + 1, l => let q := redLevel op l; let r := redTree op k q.1; (r.1, q.2 ||| r.2)

/-- Levels of a tree over n leaves. -/
def treeDepth (n : Nat) : Nat := if n ≤ 1 then 0 else bitLen (n - 1)

def execVred (t : BitVec 8) (rd vs1 fn fmt : BitVec 5) (pm : BitVec 4) (s : State) : Outcome :=
  let f := fmt.toNat
  let w := fmtW f
  let p := pm.toNat
  vecOp t (wordV 10 rd.toNat vs1.toNat fn.toNat f p 7)
    (fun x => fmtChk f p (fun f => isFIQ f && fn.toNat < (if isF f then 3 else 6))
      (okIf (x.badGroup vs1.toNat w) (exVecConfig, 0) none))
    (fun _ => []) (fun x => vregs x vs1.toNat w ++ scalarReg f rd.toNat :: pmReads p)
    s fun n x s =>
      let leaves := (List.range (2 ^ treeDepth x.len)).map fun i =>
        if x.activeAt p i then some (if isF f then widenF f (x.elem vs1.toNat w i) else widenI f (x.elem vs1.toNat w i)) else none
      let op := redOp f fn.toNat x.vfrm
      let r := redTree op (treeDepth x.len) leaves
      let old := if isF f then (x.rf rd.toNat).toNat else (x.rs rd.toNat).toNat
      match r.1 with
      | none => s.vecFin n x 1 r.2 false
      | some v =>
        let q := op old v
        let y := BitVec.ofNat 64 q.1
        s.vecFin n (if isF f then x.setF rd.toNat y else x.setS rd.toNat y) 1 (r.2 ||| q.2) false

/-- R108: whether value a (widened bits) is strictly better than b, or equal in rank. -/
def rankCmp (f : Nat) (isMax : Bool) (a b : Nat) : Ordering :=
  let c := if isF f then
      (match (fp64.decode a).cmp (fp64.decode b) with
       | .eq => compare (if (fp64.decode a).neg then 0 else 1) (if (fp64.decode b).neg then 0 else 1)
       | o => o)
    else if f = 8 then compare a b
    else compare (BitVec.ofNat 64 a).toInt (BitVec.ofNat 64 b).toInt
  if isMax then c else c.swap

/-- R108: a candidate (value, index) merges with the running best; a NaN candidate never wins and a NaN running value
loses to any element that is not NaN. -/
def mergeBest (f : Nat) (isMax : Bool) (best cand : Nat × Nat) : Nat × Nat :=
  let nan (v : Nat) : Bool := isF f && (fp64.decode v).isNan
  if nan cand.1 then best
  else if nan best.1 then cand
  else match rankCmp f isMax cand.1 best.1 with
    | .gt => cand
    | .eq => if cand.2 < best.2 then cand else best
    | .lt => best

/-- The value a merge writes back: a running NaN that no element replaced becomes the canonical one (R149). -/
def bestBits (f v : Nat) : Nat := if isF f && (fp64.decode v).isNan then fp64.nan else v

-- log 156: DESIGN CHOICE, unsafe.
/-- vmaxi and vmini (R108). With rd = rx the index, written last, stays (log 156). -/
def vecIdx (op : Nat) (isMax : Bool) (t : BitVec 8) (rd vs1 rx fmt : BitVec 5) (pm : BitVec 4) (s : State) : Outcome :=
  let f := fmt.toNat
  let w := fmtW f
  let p := pm.toNat
  let k := rx.toNat
  vecOp t (wordV 10 rd.toNat vs1.toNat k f p op)
    (fun x => fmtChk f p (fun f => isFIQ f && 1 ≤ k && k ≤ 30) (okIf (x.badGroup vs1.toNat w) (exVecConfig, 0) none))
    (fun _ => []) (fun x => vregs x vs1.toNat w ++ scalarReg f rd.toNat :: .s k :: .s (k + 1) :: pmReads p)
    s fun n x s =>
      let act := (List.range x.len).filter (x.activeAt p)
      if act.isEmpty then s.vecFin n x 1 0 false
      else
        let base := (x.rs (k + 1)).toNat
        let run := if isF f then (x.rf rd.toNat).toNat else (x.rs rd.toNat).toNat
        let cands := act.map fun i =>
          (if isF f then widenF f (x.elem vs1.toNat w i) else widenI f (x.elem vs1.toNat w i), (base + i) % 2 ^ 64)
        let best := cands.foldl (mergeBest f isMax) (run, (x.rs k).toNat)
        let fl := if isF f && (fp64.decode run == .nan true || cands.any fun c => fp64.decode c.1 == .nan true) then flNV else 0
        let y := BitVec.ofNat 64 (bestBits f best.1)
        let x := if isF f then x.setF rd.toNat y else x.setS rd.toNat y
        s.vecFin n (x.setS k (BitVec.ofNat 64 best.2)) 1 fl false

def execVmaxi (t : BitVec 8) (rd vs1 rx fmt : BitVec 5) (pm : BitVec 4) (s : State) : Outcome := vecIdx 8 true t rd vs1 rx fmt pm s
def execVmini (t : BitVec 8) (rd vs1 rx fmt : BitVec 5) (pm : BitVec 4) (s : State) : Outcome := vecIdx 9 false t rd vs1 rx fmt pm s

/-! ### Conversions (R104, Table 4.2) -/

def execVcvt (t : BitVec 8) (vd vs1 dst fmt : BitVec 5) (pm : BitVec 4) (s : State) : Outcome :=
  let f := fmt.toNat
  let g := dst.toNat
  let ws := regW f
  let wd := regW g
  let p := pm.toNat
  let d := vd.toNat
  let a := vs1.toNat
  let toMX := isF f && isMX g
  let fromMX := isMX f && g < 2
  vecOp t (wordV 10 d a g f p 10)
    (fun x =>
      let nd := x.nregs wd
      let ns := x.nregs ws
      okIf (24 ≤ g) (exVersion, 0) (fmtChk f p (fun _ => toMX || fromMX || (isFIQ f && isFIQ g && cvtPair f g))
        (okIf (x.badGroup d wd || x.badGroup a ws || (toMX && 32 ≤ d + nd) || (fromMX && 32 ≤ a + ns)) (exVecConfig, 0)
          (okIf (overlapMX toMX d nd a ns || (fromMX && overlapBad d nd (a + ns) 1)) (exVecConfig, 2)
            (okIf ((toMX || fromMX) && x.len % 32 != 0) (exVecConfig, 3)
              (okIf ((toMX || fromMX) && p != 0) (exVecConfig, 5) none))))))
    (fun x => x.groupOf d wd ++ (if toMX then [d + x.nregs wd] else []))
    (fun x => vregs x a ws ++ (if fromMX then [.v (a + x.nregs ws)] else []) ++ pmReads p)
    s fun n x s =>
      if toMX then
        let sr := d + x.nregs wd
        let r := (List.range (x.len / 32)).foldl (fun acc j =>
          let b := mxBlock g 5 ((List.range 32).map fun i => valOf f (x.elem a ws (32 * j + i)))
          let y := (List.range 32).foldl (fun y i => y.setElem d wd (32 * j + i) (b.2.1.getD i (0, 0)).1) acc.1
          (y.setElem sr 8 j b.1, acc.2 ||| b.2.2)) (x, 0)
        s.vecFin n r.1 1 r.2 false
      else if fromMX then
        let sr := a + x.nregs ws
        let r := x.vmap p d wd fun i =>
          let v := mxDecode f (x.elem a ws i % 2 ^ fmtW f) (x.elem sr 8 (i / 32))
          let q := (fpOf g).ofV x.vfrm v
          (q.1, q.2, false)
        s.vecFin n r.1 1 r.2.1 false
      else
        let r := x.vmap p d wd fun i => cvtElem x.vfrm x.vxrm f g (x.elem a ws i)
        s.vecFin n r.1 1 r.2.1 r.2.2

/-! ### vchain (R109, R110) -/

/-- The descriptor at va in the own store: its ten doublewords, or the exception of R109 step 1. -/
inductive DescRes where
  | words (ws : List Word)
  | fault (cause half : Nat)
  | uncorr (bad : Nat)
  | misaligned
  deriving DecidableEq, Repr

def State.readDesc (s : State) (t va : Nat) : State × DescRes :=
  let a := s.vecAcc t .load va
  match a.fault 80 8 (fun _ => true) with
  | some e => (s, .fault e.1 e.2)
  | none =>
    if va % 16 ≠ 0 then (s, .misaligned)
    else match s.vecReadCheck t a 80 8 (fun _ => true) with
      | (s, some b) => (s, .uncorr b)
      | (s, none) => (s, .words ((List.range 10).map fun i => BitVec.ofNat 64 (s.vecElem a 64 i)))

/-- Counts on their way to the numerics watch (R165, R167); while its EN is 0 it takes none (R168). -/
def State.observe (s : State) (t tag : Nat) (marks : List Nat) : State :=
  if tag = 0 ∨ marks.isEmpty ∨ !s.bit (NWT_CTRL (t / 32)) NWT_CTRL_EN then s
  else { s with watch := s.watch ++ [WatchItem.mk t tag marks] }

/-- The elements of a chain over a group of elements, the destination written. -/
def Tile.chainRun (x : Tile) (c : Chain) (f p d a : Nat) : Tile × Nat × List Nat :=
  let w := fmtW f
  let o := c.outFmt
  let mid (i : Nat) : ChainMid :=
    c.mid f (x.elem a w i) fun g => x.elem g.vreg (fmtW g.arg) (if g.opnd = 2 then i % c.rowlen else i)
  if isMX o then
    let sr := d + x.nregs (regW o)
    (List.range (x.len / 32)).foldl (fun acc j =>
      let b := c.outBlock ((List.range 32).map fun i => mid (32 * j + i))
      let y := (List.range 32).foldl (fun y i => y.setElem d (regW o) (32 * j + i) (b.2.1.getD i (0, 0)).1) acc.1
      (y.setElem sr 8 j b.1, acc.2.1 ||| b.2.2, acc.2.2 ++ b.2.1.map (·.2))) (x, 0, [])
  else
    (List.range x.len).foldl (fun acc i =>
      if x.activeAt p i then
        let r := c.out (mid i)
        (acc.1.setElem d (fmtW o) i r.1, acc.2.1 ||| r.2.1, acc.2.2 ++ [r.2.2])
      else if 8 ≤ p then (acc.1.setElem d (fmtW o) i 0, acc.2) else acc) (x, 0, [])

/-- The checks of a vchain that need its descriptor: R109, then R88, R91 and R104 for the output and the operands. -/
def Tile.chainChk (x : Tile) (ws : List Word) (f p d a : Nat) : Option (Nat × Nat) :=
  let c := chainOf ws
  let o := c.outFmt
  let nd := x.nregs (regW o)
  let ns := x.nregs (fmtW f)
  let opds := c.stages.filter fun g => 2 ≤ g.opnd
  okIf (chainVersion ws) (exVersion, 0)
    (okIf (chainInconsistent ws false) (exVecConfig, 6)
      (okIf (x.badGroup d (regW o) || (opds.any fun g => x.badGroup g.vreg (fmtW g.arg)) || (isMX o && 32 ≤ d + nd)) (exVecConfig, 0)
        (okIf (overlapMX (isMX o) d nd a ns || opds.any fun g => overlapMX (isMX o) d nd g.vreg (x.nregs (fmtW g.arg))) (exVecConfig, 2)
          (okIf (isMX o && x.len % 32 != 0) (exVecConfig, 3) (okIf (isMX o && p != 0) (exVecConfig, 5) none)))))

def execVchain (t : BitVec 8) (vd vs1 ra fmt : BitVec 5) (pm : BitVec 4) (s : State) : Outcome :=
  let f := fmt.toNat
  let p := pm.toNat
  let d := vd.toNat
  let a := vs1.toNat
  let word := wordV 10 d a ra.toNat f p 11
  vecOp t word (fun x => fmtChk f p isFIQ (okIf (x.badGroup a (fmtW f)) (exVecConfig, 0) none)) (fun _ => [])
    (fun x => .s ra.toNat :: (vregs x a (fmtW f) ++ pmReads p))
    s fun n x s =>
      let va := (x.rs ra.toNat).toNat
      match s.readDesc n va with
      | (s, .fault e h) => s.vecFault n va e h
      | (s, .misaligned) => s.exc n exVecConfig 7 word
      | (s, .uncorr b) => s.vecUncorr n va b
      | (s, .words ws) =>
        match x.chainChk ws f p d a with
        | some e => s.exc n e.1 e.2 word
        | none =>
          let c := chainOf ws
          let outs := x.groupOf d (regW c.outFmt) ++ (if isMX c.outFmt then [d + x.nregs (regW c.outFmt)] else [])
          let opr := (c.stages.filter fun g => 2 ≤ g.opnd).flatMap fun g => vregs x g.vreg (fmtW g.arg)
          if x.dUnit.any fun q => outs.any fun r => q.regs.contains r then s
          else if opr.any fun r => x.parBad.contains r then s.parityHalt n false
          else
            let r := x.chainRun c f p d a
            (s.observe n c.tag r.2.2).vecFin n r.1 3 r.2.1 false

/-- R115: after 2,048 idle tile cycles the engine gates its datapath. -/
def execVectorGate (t : BitVec 8) (s : State) : Outcome :=
  let n := t.toNat
  .next (if (s.tile n).mode = .frozen then s else s.setTile n { s.tile n with vecGated := true })

end Sys2Proof.Machine
end

