-- ==== Sys2Proof/Machine/MatOps.lean ====
section
/-!
DEFINITION. The K-stream unit: operands in the tile store (R122, R123), accumulation (R126 to R128), stochastic rounding
(R130, R131), rings (R125), deferred errors (R134), resumption (R136, R137), and completion in order (R132).
-/
namespace Sys2Proof.Machine

def matW : Nat → Nat := fmtW

/-- E of Table 5.3: the element bytes of a panel. -/
def panelE (f : Nat) : Nat := 128 * 128 * fmtW f / 8
def panelStride (f : Nat) : Nat := if isMX f then panelE f + 640 else panelE f

/-- Passes for each K index (Table 5.1); none for a pair that is not listed. -/
def passes (a b : Nat) : Option Nat :=
  if a = 20 ∧ b = 20 then some 1
  else if 16 ≤ a ∧ a ≤ 20 ∧ 16 ≤ b ∧ b ≤ 20 then some 2
  else if a = 21 ∧ b = 21 then some 2
  else if a = b ∧ (a = 2 ∨ a = 3) then some 4
  else if a = b ∧ a = 1 then some 16
  else if a = b ∧ a = 0 then some 32
  else none

/-- The K indices between boundaries (R118). -/
def spacing (a b : Nat) : Nat := 128 / (passes a b).getD 128

/-! ### Exact sums -/

/-- The exact sum of two values; a zero is negative only when both are. -/
def addX (a b : FVal) : FVal × Nat :=
  match a, b with
  | .fin n1 m1 e1, .fin n2 m2 e2 =>
    let s := addExact n1 m1 e1 n2 m2 e2
    if s.1 = 0 then (.fin (n1 && n2 && m1 == 0 && m2 == 0) 0 0, 0) else (.fin (s.1 < 0) s.1.natAbs s.2, 0)
  | .inf n1, .inf n2 => if n1 = n2 then (.inf n1, 0) else (.nan false, flNV)
  | .inf n, .fin _ _ _ => (.inf n, 0)
  | .fin _ _ _, .inf n => (.inf n, 0)
  | _, _ => (.nan false, nanFlags [a, b])

/-! ### Stochastic rounding -/

def srRound (x : Nat) : Nat :=
  let x := x * 0xC4A27F1963D58E2B % 2 ^ 64
  let x := Nat.xor x (x / 2 ^ 29)
  (x + 0x2E71B5D3948C06F9) % 2 ^ 64

/-- sr16 of R130. -/
def sr16 (seed : Word) (t i j k : Nat) : Nat :=
  let x := Nat.xor seed.toNat (k % 2 ^ 32 * 2 ^ 32 + t * 2 ^ 16 + i * 2 ^ 8 + j)
  srRound (srRound (srRound x)) / 2 ^ 48

-- log 51: DEDUCED, unsafe.
/-- R131: an exact value rounded stochastically to FP32 with the draw r. -/
def srFp32 (v : FVal) (r : Nat) : Nat × Nat :=
  match v with
  | .fin neg m e =>
    if m = 0 then fp32.ofV 0 v
    else
      let sgn := if neg then fp32.signBit else 0
      let q := max (e + bitLen m - 1 - 23) fp32.qmin
      let t := (roundAt 1 neg m e q false).1
      let d := (roundAt 1 neg m e (q - 16) false).1 % 2 ^ 16
      let exact := !(roundAt 1 neg m e q false).2
      let n := if !exact && r < d then t + 1 else t
      let bits := n + (q - fp32.qmin).toNat * 2 ^ 23
      if fp32.infBits ≤ bits then (sgn + fp32.infBits, flOF + flNX)
      else (sgn + bits, if exact then 0 else flNX + (if bits < 2 ^ 23 then flUF else 0))
  | _ => fp32.ofV 0 v

/-! ### Operand bytes -/

/-- The device address of a latched operand address (R123). -/
def pageAddr (pages : List (Nat × Nat)) (va : Nat) : Nat :=
  match pages.find? fun p => p.1 == va / 65536 with
  | some p => p.2 + va % 65536
  | none => va

/-- n bytes of the tile store at latched address va, as a number. -/
def State.latchedBytes (s : State) (pages : List (Nat × Nat)) (va : Nat) : Nat → Nat
  | 0 => 0
  | n + 1 => s.latchedBytes pages va n + (s.byte (pageAddr pages (va + n))).toNat * 256 ^ n

/-- The w bits at bit offset o from va. -/
def State.latchedBits (s : State) (pages : List (Nat × Nat)) (va o w : Nat) : Nat :=
  s.latchedBytes pages (va + o / 8) ((o % 8 + w + 7) / 8) / 2 ^ (o % 8) % 2 ^ w

/-- A latched range is read through its port (R370): the address of the first bad byte. Pieces end at page ends. -/
def State.latchedRead (s : State) (t : Nat) (pages : List (Nat × Nat)) : Nat → Nat → Nat → State × Option Nat
  | 0, _, _ => (s, none)
  | fuel + 1, va, n =>
    if n = 0 then (s, none) else
    let k := min n (65536 - va % 65536)
    match s.storeRead t (pageAddr pages va) k with
    | (s, .error (_, b)) => (s, some b)
    | (s, .ok _) => State.latchedRead s t pages fuel (va + k) (n - k)

/-- n bytes v are written at a latched address. -/
def State.latchedWrite (s : State) (pages : List (Nat × Nat)) (va v : Nat) : Nat → State
  | 0 => s
  | n + 1 => (s.latchedWrite pages va v n).storeWrite (pageAddr pages (va + n)) 1 (v / 256 ^ n % 256)

-- log 157: DESIGN CHOICE, unsafe.
/-- R123: a range of n bytes at va lies in the own populated store and, at user level, every 64 KiB page of it is
mapped and permitted: the pages to latch, or the cause and the tval (log 157): the base of a range outside the store,
else the first byte on the faulting page. -/
def State.latchRange (s : State) (t : Nat) (k : Acc) (va n : Nat) : Except (Nat × Nat) (List (Nat × Nat)) :=
  let user := (s.tile t).user
  if !user then (if inStore t va n then .ok [] else .error (accCode k, va))
  else
    (List.range ((va % 65536 + n + 65535) / 65536)).foldl (fun r i =>
      match r with
      | .error e => .error e
      | .ok ps =>
        let page := va / 65536 + i
        match s.vecPage t user k page with
        | .ok d => .ok (ps ++ [(page, d)])
        | .error e => .error (e, max va (page * 65536))) (.ok [])

/-! ### The panels of a stream -/

def KOp.panelA (k : KOp) (p : Nat) : Nat := k.a + (if k.ring = 0 then p else p % 2 ^ k.ring) * panelStride k.afmt
def KOp.panelB (k : KOp) (p : Nat) : Nat := k.b + (if k.ring = 0 then p else p % 2 ^ k.ring) * panelStride k.bfmt

/-- Rows of panel p that exist. -/
def KOp.rows (k : KOp) (p : Nat) : Nat := min 128 (k.k - 128 * p)

/-- The element of lane at row k of the panel at va. -/
def State.panelElem (s : State) (pages : List (Nat × Nat)) (f va row lane : Nat) : Nat :=
  s.latchedBits pages va (row * 128 * fmtW f + lane * fmtW f) (fmtW f)

/-- Its value: with the scale of its block for MX formats. -/
def State.panelVal (s : State) (pages : List (Nat × Nat)) (f va row lane : Nat) : FVal :=
  let e := s.panelElem pages f va row lane
  if isMX f then mxDecode f e (s.latchedBytes pages (va + panelE f + 128 * (row / 32) + lane) 1) else valOf f e

/-- The contribution of rows row .. row + n - 1 at a cell: the exact sum of products (R126) and NV (R128). -/
def State.contrib (s : State) (k : KOp) (pa pb i j row : Nat) : Nat → FVal × Nat
  | 0 => (.fin false 0 0, 0)
  | n + 1 =>
    let p := mulV (s.panelVal k.pages k.afmt pa (row + n) i) (s.panelVal k.pages k.bfmt pb (row + n) j)
    if n = 0 then p
    else
      let r := s.contrib k pa pb i j row n
      let q := addX r.1 p.1
      (q.1, r.2 ||| p.2 ||| q.2)

def bankFmt (bank : Nat) : FpFmt := if bank = 2 then fp64 else fp32

/-- round_bank: a value added into an accumulator element with one rounding (R126, R131). -/
def KOp.into (k : KOp) (t i j step acc : Nat) (v : FVal) : Nat × Nat :=
  let f := bankFmt k.bank
  if k.sr then
    let e := addX (f.decode acc) v
    let r := srFp32 e.1 (sr16 k.seed t i j (k.kbase + step))
    (r.1, e.2 ||| r.2)
  else f.addV 0 (f.decode acc) v

/-- One cell over rows r0 .. of panel p, `groups` rounding groups of `g` rows, without a panel scale. -/
def State.cellPlain (s : State) (k : KOp) (t p pa pb i j r0 g : Nat) : Nat → Nat × Nat → Nat × Nat
  | 0, a => a
  | n + 1, a =>
    let b := s.cellPlain k t p pa pb i j r0 g n a
    let row := r0 + n * g
    let c := s.contrib k pa pb i j row g
    let r := k.into t i j (128 * p + row) b.1 c.1
    (r.1, b.2 ||| c.2 ||| r.2)

-- log 46: DEDUCED, safe.
/-- The stage of R127 over the blocks of a panel. -/
def State.cellStage (s : State) (k : KOp) (pa pb i j : Nat) : Nat → Nat × Nat
  | 0 => (0, 0)
  | n + 1 =>
    let c := s.contrib k pa pb i j (32 * n) 32
    if n = 0 then let r := fp32.ofV 0 c.1; (r.1, c.2 ||| r.2)
    else
      let b := s.cellStage k pa pb i j n
      let r := fp32.addV 0 (fp32.decode b.1) c.1
      (r.1, b.2 ||| c.2 ||| r.2)

def KOp.scaled (k : KOp) : Bool := k.psa || k.psb

-- log 46: DEDUCED, safe.
/-- R127: the panel's stage times its panel scale is added once. -/
def State.cellScaled (s : State) (k : KOp) (t p pa pb i j : Nat) (acc : Nat) : Nat × Nat :=
  let one : FVal := .fin false 1 0
  let st := s.cellStage k pa pb i j (k.rows p / 32)
  let sa := if k.psa then fp32.decode (s.latchedBytes k.pages (pa + panelE k.afmt + 512) 4) else one
  let sb := if k.psb then fp32.decode (s.latchedBytes k.pages (pb + panelE k.bfmt + 512) 4) else one
  let m := mulV sa sb
  let ps := fp32.ofV 0 m.1
  let q := mulV (fp32.decode st.1) (fp32.decode ps.1)
  let r := k.into t i j (128 * p) acc q.1
  (r.1, st.2 ||| m.2 ||| ps.2 ||| q.2 ||| r.2)

def Tile.accAt (x : Tile) (bank e : Nat) : Nat := (SMap.get zeroWord x.acc (bank * 16384 + e)).toNat
def Tile.setAcc (x : Tile) (bank e v : Nat) : Tile :=
  { x with acc := SMap.set zeroWord x.acc (bank * 16384 + e) (BitVec.ofNat 64 v) }
/-- Every element of the bank becomes +0 (R129); its parity is good. -/
def Tile.zeroBank (x : Tile) (bank : Nat) : Tile :=
  { x with acc := x.acc.filter fun p => p.1 / 16384 ≠ bank, parBad := x.parBad.filter (· ≠ ParReg.acc bank) }

/-- A function of every cell of a bank: the new contents and the flags. -/
def Tile.mapBank (x : Tile) (bank : Nat) (f : Nat → Nat → Nat → Nat × Nat) : Tile × Nat :=
  (List.range 16384).foldl (fun a e =>
    let r := f (e / 128) (e % 128) (x.accAt bank e)
    (a.1.setAcc bank e r.1, a.2 ||| r.2)) (x, 0)

/-! ### Progress -/

-- log 49: DEDUCED, unsafe.
/-- R134: the stream stops before the panel at `addr` adds; every operation of the unit is discarded. A core that waits
for one (precise mode) executes again from its instruction. -/
def State.deferError (s : State) (t cause addr : Nat) : State :=
  let x := s.tile t
  let x := { x with kUnit := [], kErr := some (cause, addr), kPause := match x.kPause with | .asked f => .paused f | p => p
                    mode := if x.mode = TileMode.matrix ∧ x.dUnit.all (fun d => d.seq + 1 ≠ x.opSeq) then .running else x.mode }
  let x := x.setCf csrMprog mpErr 1
  let x := match x.kPause with | .paused _ => x.setCf csrMprog mpPaused 1 | _ => x
  let s := (s.setTile t x).bkWithdraw (fun w => w == .ring t)
  { s with links := { s.links with done := s.links.done.filter fun w => w ≠ .ring t } }

/-- What the stream reads of panel p between rows r0 and r1 is checked: element rows, scales, trailers (R122, R134). -/
def State.panelCheck (s : State) (t : Nat) (k : KOp) (f va r0 r1 : Nat) (ps : Bool) : State × Option Nat :=
  let row := 128 * fmtW f / 8
  match s.latchedRead t k.pages 4 (va + r0 * row) ((r1 - r0) * row) with
  | (s, some _) => (s, some exMemUncorr)
  | (s, none) =>
    if !isMX f then (s, none) else
    match s.latchedRead t k.pages 3 (va + panelE f + 128 * (r0 / 32)) (128 * ((r1 + 31) / 32 - r0 / 32)) with
    | (s, some _) => (s, some exMemUncorr)
    | (s, none) =>
      if !ps then (s, none) else
      match s.latchedRead t k.pages 3 (va + panelE f + 512) 128 with
      | (s, some _) => (s, some exMemUncorr)
      | (s, none) => (s, if s.latchedBytes k.pages (va + panelE f + 516) 124 ≠ 0 then some exVersion else none)

/-- R132: the pending slot of the K-stream unit, or of the drain unit, is taken: an operation waits behind another one, or for
its bank. -/
def Tile.kFull (x : Tile) : Bool := 2 ≤ x.kUnit.length || x.kUnit.any fun k => !k.started && x.kBlocked k
def Tile.dFull (x : Tile) : Bool := 2 ≤ x.dUnit.length || x.dUnit.any fun d => x.dBlocked d

/-- The stream at the head of the unit, if it runs. -/
def Tile.running (x : Tile) : Option KOp :=
  match x.kUnit with
  | k :: _ => if k.kind = .stream ∧ k.started ∧ !x.isPaused then some k else none
  | [] => none

def Tile.setHead (x : Tile) (k : KOp) : Tile := { x with kUnit := k :: x.kUnit.drop 1 }

/-- The ring's ready buckle is asked for the next panel (R125). -/
def State.ringAsk (s : State) (t : Nat) (k : KOp) : State :=
  if k.ring ≠ 0 ∧ 128 * k.taken < k.k then s.bkTakeFor t (64 * t + k.rdy) 1 (.ring t) else s

-- log 46: DEDUCED, safe.
/-- The stream works through the K indices up to `stop`, which lies in its present panel. Fails (none) while the ready
count of a ring panel has not been given. -/
def State.kPanel (s : State) (t : Nat) (k : KOp) (stop : Nat) : Option State :=
  let p := k.done / 128
  let needs := k.ring ≠ 0 ∧ k.taken = p
  if needs ∧ !(s.links.done.contains (.ring t)) then none
  else
    let s := if needs then { s with links := { s.links with done := s.links.done.erase (.ring t) } } else s
    let k := if needs then { k with taken := p + 1 } else k
    let pa := k.panelA p
    let pb := k.panelB p
    let r0 := k.done - 128 * p
    let r1 := stop - 128 * p
    if (s.tile t).parBad.contains (ParReg.acc k.bank) then some (s.parityHalt t true)
    else
    match s.panelCheck t k k.afmt pa r0 r1 k.psa with
    | (s, some c) => some (s.deferError t c (pageAddr k.pages pa))
    | (s, none) =>
      match s.panelCheck t k k.bfmt pb r0 r1 k.psb with
      | (s, some c) => some (s.deferError t c (pageAddr k.pages pb))
      | (s, none) =>
        let last := stop == 128 * (p + 1) || stop == k.k
        let x := s.tile t
        let g := if isMX k.afmt then 32 else 1
        let r := if k.scaled then (if last then x.mapBank k.bank (fun i j a => s.cellScaled k t p pa pb i j a) else (x, 0))
          else x.mapBank k.bank fun i j a => s.cellPlain k t p pa pb i j r0 g ((r1 - r0) / g) (a, 0)
        let k := { k with done := stop, added := if k.scaled && !last then k.added else stop, flags := k.flags ||| r.2 }
        let s := s.setTile t ((r.1.raiseFlags 2 r.2).setHead k)
        if last && k.ring != 0 then some ((s.bkAddFor t (64 * t + k.free) 1).ringAsk t k) else some s

/-- The stream works on until `upto` K indices are complete, panel by panel. -/
def State.kAdvance (s : State) (t upto : Nat) : Nat → Option State
  | 0 => some s
  | fuel + 1 =>
    match (s.tile t).running with
    | none => some s
    | some k =>
      if min upto k.k ≤ k.done then some s
      else match s.kPanel t k (min (min upto k.k) (128 * (k.done / 128 + 1))) with
        | none => none
        | some s => State.kAdvance s t upto fuel

/-! ### Starting and completing operations -/

/-- The instruction of a matrix operation retires: its pc is that of its last word (K-streams take two). -/
def State.retireMat (s : State) (t : Nat) (two : Bool) : State :=
  let x := s.tile t
  (if two then s.setTile t { x with pc := x.pc + 4 } else s).retire1 t

/-- The operation with order `seq` completes with its flags; in precise mode the core that waits for it traps or
retires (R83, R137). -/
def State.matDone (s : State) (t seq unit flags : Nat) (two : Bool) : State :=
  let x := s.tile t
  if x.mode = TileMode.matrix ∧ seq + 1 = x.opSeq then
    let s := s.setTile t { x with mode := .running }
    if x.trapsOn flags then (s.setTile t ((s.tile t).noteAsum unit flags)).exc t exArith 0 0
    else s.retireMat t two
  else s

-- log 49: DEDUCED, unsafe.
/-- An mzero, mload or madd performs (R129, R144): tile and flags, or the address of a bad image byte. -/
def State.shortOp (s : State) (t : Nat) (k : KOp) : State × Except Nat Nat :=
  let x := s.tile t
  let w := if k.bank = 2 then 8 else 4
  let el (i j : Nat) : Nat := s.latchedBytes k.pages (k.a + (i * 128 + j) * w) w
  match k.kind with
  | .mload =>
    match s.latchedRead t k.pages 4 k.a (16384 * w) with
    | (s, some b) => (s, .error b)
    | (s, none) =>
      let r := ({ x with parBad := x.parBad.filter (· ≠ ParReg.acc k.bank) }).mapBank k.bank fun i j _ => (el i j, 0)
      (s.setTile t r.1, .ok 0)
  | .madd =>
    match s.latchedRead t k.pages 4 k.a (16384 * w) with
    | (s, some b) => (s, .error b)
    | (s, none) =>
      let f := bankFmt k.bank
      let r := x.mapBank k.bank fun i j a => f.addV 0 (f.decode a) (f.decode (el i j))
      (s.setTile t (r.1.raiseFlags 2 r.2), .ok r.2)
  | _ => (s.setTile t (x.zeroBank k.bank), .ok 0)

/-- The unit starts what stands at its head, unless it is paused or the bank is busy: a stream zeroes its bank and asks
for its first ring panel; a short operation performs and completes. -/
def State.kKick (s : State) (t : Nat) : Nat → State
  | 0 => s
  | fuel + 1 =>
    let x := s.tile t
    match x.kUnit with
    | [] => s
    | k :: rest =>
      if x.kPause ≠ .none ∨ x.kBlocked k ∨ k.started ∨ x.mode = TileMode.frozen ∨ s.stilled t then s
      else if k.kind = .stream then
        let x := if k.zero then x.zeroBank k.bank else x
        let k := { k with started := true }
        (s.setTile t (x.setHead k)).ringAsk t k
      else if k.kind ≠ .mzero ∧ k.kind ≠ .mload ∧ x.parBad.contains (ParReg.acc k.bank) then s.parityHalt t true
      else
        match s.shortOp t k with
        | (s, .error b) => s.deferError t exMemUncorr b
        | (s, .ok fl) =>
          let s := s.setTile t { s.tile t with kUnit := rest }
          State.kKick (s.matDone t k.seq 2 fl false) t fuel

/-- R136: a paused unit without a held stream resumes; a request to pause is dropped. -/
def State.kResume (s : State) (t : Nat) : State :=
  let x := s.tile t
  if x.kPause = .none ∨ x.cf csrMprog mpHeld = 1 then s
  else
    let w := mpValid.put (mpPaused.put (x.c csrMprog) 0) 0
    (s.setTile t { x.setC csrMprog w with kPause := .none }).kKick t 3

/-- R134: the deferred error traps at this instruction; trap entry clears ERR. -/
def State.takeDeferred (s : State) (t : Nat) (e : Nat × Nat) : State :=
  let x := s.tile t
  if x.cf csrStatus stFm = 1 then s.exc t e.1 0x80 (BitVec.ofNat 64 e.2)
  else
    let s := s.setTile t { x.setCf csrMprog mpErr 0 with kErr := none }
    s.exc t e.1 0x80 (BitVec.ofNat 64 e.2)

/-- The device address of the instruction at the pc, for PCW. -/
def State.pcDevice (s : State) (t : Nat) : Nat :=
  let x := s.tile t
  match s.translate t x.user .fetch x.pc.toNat with | .ok a => a | .error _ => x.pc.toNat

/-- What every instruction of groups 0xC and 0xD does first: report a deferred error, resume a paused unit, refuse while
a stream is held (R134, R136, R138). -/
def onMatrix (t : BitVec 8) (word : Word) (reads : List ParReg) (s : State) (k : Nat → State → State) : Outcome :=
  onTile t reads s fun n x =>
    match x.kErr with
    | some e => s.takeDeferred n e
    | none =>
      if x.cf csrMprog mpHeld = 1 then s.exc n exMatConfig 5 word
      else
        let s := s.kResume n
        k n (s.setTile n { s.tile n with matGated := false })

end Sys2Proof.Machine
end

