-- ==== Sys2Proof/Machine/Matrix.lean ====
section
/-!
DEFINITION. Matrix instructions (groups 0xC and 0xD) and the events of the two matrix units (R118 to R147).
-/
namespace Sys2Proof.Machine

/-! ### Recognition of interrupts (R73), which also stops a precise stream (R75) -/

/-- The interrupt that would be taken at a boundary: the highest level first, then the lowest code; debug halt whatever
the level. -/
def State.recognised (s : State) (t : Nat) : Option Nat :=
  let x := s.tile t
  let p := s.ipend t
  let ok (c : Nat) : Bool := p.getLsbD c && x.irqOn c && (c == 7 || x.cf csrMask mkLevel < irqLevel c)
  [7, 6, 4, 3, 1, 2, 5, 8].find? ok

/-! ### Hand-off (R132) -/

/-- An operation enters the K-stream unit: in imprecise mode the instruction retires, in precise mode the core waits. -/
def State.handK (s : State) (t : Nat) (k : KOp) (two : Bool) : State :=
  let x := s.tile t
  let x := { x with kUnit := x.kUnit ++ [k], opSeq := x.opSeq + 1 }
  if x.precise then (s.setTile t { x with mode := .matrix }).kKick t 3
  else ((s.setTile t x).retireMat t two).kKick t 3

def noOp (kind : KKind) (bank : Nat) (x : Tile) (pc : Nat) : KOp :=
  { kind := kind, bank := bank, seq := x.opSeq, pc := pc, pages := [], a := 0, b := 0, k := 0, kbase := 0, afmt := 0, bfmt := 0
    psa := false, psb := false, ring := 0, rdy := 0, free := 0, zero := false, sr := false, seed := 0, started := false
    done := 0, added := 0, taken := 0, held := false, flags := 0 }

/-- R119: the bank does not suit MODE. -/
def Tile.bankBad (x : Tile) (bank : Nat) : Bool := ((x.c csrAccmode).getLsbD 0) != (bank == 2)

/-- The descriptor word of a K-stream (Table 5.5). -/
structure KDesc where
  ver : Nat
  afmt : Nat
  bfmt : Nat
  psa : Bool
  psb : Bool
  rsv : Bool
  ring : Nat
  rdy : Nat
  free : Nat
  deriving DecidableEq, Repr

def kdescOf (d : BitVec 32) : KDesc :=
  let n := d.toNat
  { ver := n / 2 ^ 28, afmt := n / 2 ^ 23 % 32, bfmt := n / 2 ^ 18 % 32, psa := d.getLsbD 17, psb := d.getLsbD 16
    rsv := d.getLsbD 15, ring := n / 2 ^ 12 % 8, rdy := n / 2 ^ 6 % 64, free := n % 64 }

/-- Steps 1 to 7 of R124 that need no address translation. -/
def kChecks (x : Tile) (bank : Nat) (d : KDesc) (a b k : Nat) : Option (Nat × Nat) :=
  let mx := isMX d.afmt || isMX d.bfmt
  let bk := if d.afmt = 0 then bank == 2 else bank != 2
  okIf (bank == 3) (exIllegal, 0)
    (okIf (d.ver != 0 || d.rsv || 24 ≤ d.afmt || 24 ≤ d.bfmt) (exVersion, 0)
      (okIf (passes d.afmt d.bfmt).isNone (exMatConfig, 0)
        (okIf (x.bankBad bank || !bk) (exMatConfig, 1)
          (okIf (k == 0 || (mx && k % 32 != 0)) (exMatConfig, 2)
            (okIf (a % 128 != 0 || b % 128 != 0) (exMatConfig, 3)
              (okIf ((d.psa && !isMX d.afmt) || (d.psb && !isMX d.bfmt) || (d.ring == 0 && (d.rdy != 0 || d.free != 0)) ||
                  (d.ring != 0 && d.rdy == d.free)) (exMatConfig, 4) none))))))

/-- Steps 8 and 9 of R124 and the hand-off. -/
def State.kHand (s : State) (n : Nat) (bank : Nat) (zero : Bool) (d : KDesc) (a b cnt : Nat) (word : Word) : State :=
  let x := s.tile n
  let k := cnt % 2 ^ 32
  match kChecks x bank d a b k with
  | some e => s.exc n e.1 e.2 word
  | none =>
    let panels := if d.ring = 0 then (k + 127) / 128 else 2 ^ d.ring
    match s.latchRange n .load a (panels * panelStride d.afmt), s.latchRange n .load b (panels * panelStride d.bfmt) with
    | .error e, _ => s.exc n e.1 2 (BitVec.ofNat 64 e.2)
    | _, .error e => s.exc n e.1 2 (BitVec.ofNat 64 e.2)
    | .ok pa, .ok pb =>
      let bad := if d.ring = 0 then none
        else [64 * n + d.rdy, 64 * n + d.free].find? fun q => (s.bkRange n x.user q).isSome
      match bad with
      | some q => s.exc n exBuckleRange 1 (BitVec.ofNat 64 q)
      | none =>
        let sr := bank < 2 && (x.c csrAccmode).getLsbD (2 + bank)
        let k : KOp := { noOp .stream bank x (s.pcDevice n) with
          pages := pa ++ pb, a := a, b := b, k := k, kbase := cnt / 2 ^ 32, afmt := d.afmt, bfmt := d.bfmt, psa := d.psa, psb := d.psb
          ring := d.ring, rdy := d.rdy, free := d.free, zero := zero, sr := sr, seed := x.c csrMseed }
        (s.handK n k true).trace n 6 0 x.pc.toNat

/-- R137: the held stream resumes where its instruction executes again. -/
def State.resumeHeld (s : State) (t : Nat) : State :=
  let x := s.tile t
  let x := x.setCf csrMprog mpPaused 0
  let x := match x.kUnit with | k :: _ => x.setHead { k with held := false } | [] => x
  (s.setTile t { x with kPause := .none, mode := .matrix }).kKick t 3

/-- mks: a K-stream instruction of two words (Tables 5.4 and 5.5). -/
def execKStream (t : BitVec 8) (rs1 rs2 rs3 : BitVec 5) (bank : BitVec 2) (zero : Bool) (desc : BitVec 32) (s : State) : Outcome :=
  let word := BitVec.ofNat 64
    (0xC * 2 ^ 28 + rs1.toNat * 2 ^ 23 + rs2.toNat * 2 ^ 18 + rs3.toNat * 2 ^ 13 + bank.toNat * 2 ^ 11 + (if zero then 2 ^ 10 else 0))
  onTile t [] s fun n x =>
    if x.cf csrMprog mpHeld = 1 ∧ x.cf csrMprog mpValid = 1 ∧ x.kErr = none ∧ x.cf csrMprog mpPcw = (s.pcDevice n - storeBase n) / 4 % 2 ^ 21
    then s.resumeHeld n
    else match x.kErr with
    | some e => s.takeDeferred n e
    | none =>
      let d := kdescOf desc
      if x.cf csrMprog mpHeld = 1 then
        match okIf (bank.toNat == 3) (exIllegal, 0) (okIf (d.ver != 0 || d.rsv || 24 ≤ d.afmt || 24 ≤ d.bfmt) (exVersion, 0) none) with
        | some e => s.exc n e.1 e.2 word
        | none => s.exc n exMatConfig 5 word
      else
        let s := s.kResume n
        let s := s.setTile n { s.tile n with matGated := false }
        let x := s.tile n
        if x.kFull then s
        else if [ParReg.s rs1.toNat, .s rs2.toNat, .s rs3.toNat].any (fun r => x.parBad.contains r) then s.parityHalt n false
        else s.kHand n bank.toNat zero d (x.rs rs1.toNat).toNat (x.rs rs2.toNat).toNat (x.rs rs3.toNat).toNat word

/-- The stream at the head has worked through its last K index: it completes. -/
def State.kFinish (s : State) (t : Nat) : State :=
  let x := s.tile t
  match x.running with
  | none => s
  | some k =>
    if k.done < k.k then s
    else
      let x := { x with kUnit := x.kUnit.drop 1 }
      let x := x.setC csrMprog (mpKdone.put (mpHeld.put (mpValid.put (x.c csrMprog) 0) 0) (x.cf csrMprog mpKdone))
      let s := s.setTile t x
      let s := match x.kPause with | .asked f => s.setTile t ((s.tile t).pauseNow t f) | _ => s
      (s.matDone t k.seq 2 k.flags true).kKick t 3

/-- RING_TAKE (R125): the ready count has been given; the array reads the panel and adds to the free buckle after it. -/
def execRingTake (t : BitVec 8) (s : State) : Outcome :=
  let n := t.toNat
  .next (if (s.tile n).mode = .frozen ∨ s.stilled n then s else
    match (s.tile n).running with
    | none => s
    | some k =>
      if k.ring = 0 ∨ k.k ≤ k.done then s else (s.kAdvance n (128 * (k.done / 128 + 1)) 2).getD s)

def execKstreamComplete (t : BitVec 8) (s : State) : Outcome :=
  let n := t.toNat
  .next (if (s.tile n).mode = .frozen ∨ s.stilled n then s else
    match (s.tile n).running with
    | none => s
    | some k =>
      match s.kAdvance n k.k (k.k / 128 + 2) with
      | none => s
      | some s => s.kFinish n)

/-- The next panel meets an uncorrectable operand or a nonzero growth byte (R134). -/
def execDeferredError (t : BitVec 8) (s : State) : Outcome :=
  let n := t.toNat
  .next (if (s.tile n).mode = .frozen ∨ s.stilled n then s else
    match (s.tile n).running with
    | none => s
    | some k =>
      match s.kAdvance n (128 * (k.done / 128 + 1)) 2 with
      | none => s
      | some s' => if (s'.tile n).kErr = none then s else s')

/-- R135, R75: the unit reaches the boundary `kdone` and pauses: after a trap entry, or, in precise mode, because an
interrupt waits for the stream that has not retired, which is then held (R137). -/
def execKstreamPause (t : BitVec 8) (kdone : BitVec 32) (s : State) : Outcome :=
  let n := t.toNat
  let x := s.tile n
  .next (if x.mode = .frozen ∨ s.stilled n then s else
    match x.running with
    | none => s
    | some k =>
      let stop := kdone.toNat
      if stop < k.done ∨ k.k < stop ∨ (stop % spacing k.afmt k.bfmt ≠ 0 ∧ stop ≠ k.k) then s
      else
        let go := s.kAdvance n stop (stop / 128 + 2)
        match x.kPause, go with
        | .asked f, some s => (match (s.tile n).running with
            | some _ => s.setTile n ((s.tile n).pauseNow n f)
            | none => s)
        | .none, some s =>
          if x.mode = .matrix ∧ k.seq + 1 = x.opSeq ∧ (s.recognised n).isSome then
            (match (s.tile n).running with
             | some k =>
               let y := (s.tile n).setHead { k with held := true }
               let y := y.pauseNow n ((x.c csrFsp).toNat - 256)
               s.setTile n { y.setCf csrMprog mpHeld 1 with mode := .running }
             | none => s)
          else s
        | _, _ => s)

/-! ### Short operations -/

/-- mzero, mload and madd: stall while the pending slot is full, checks, hand-off. -/
def shortMat (t : BitVec 8) (kind : KKind) (rs1 : Option (BitVec 5)) (bank : BitVec 2) (word : Word) (s : State) : Outcome :=
  onMatrix t word (match rs1 with | some r => [.s r.toNat] | none => []) s fun n s =>
    let x := s.tile n
    let b := bank.toNat
    if x.kFull then s
    else if b = 3 then s.exc n exIllegal 0 word
    else if x.bankBad b then s.exc n exMatConfig 1 word
    else
      let k := noOp kind b x (s.pcDevice n)
      match rs1 with
      | none => s.handK n k false
      | some r =>
        let a := (x.rs r.toNat).toNat
        if a % 128 ≠ 0 then s.exc n exMatConfig 3 word
        else match s.latchRange n .load a (16384 * (if b = 2 then 8 else 4)) with
          | .error e => s.exc n e.1 2 (BitVec.ofNat 64 e.2)
          | .ok ps => s.handK n { k with pages := ps, a := a } false

def wordD (sub low : Nat) : Word := BitVec.ofNat 64 (0xD * 2 ^ 28 + sub * 2 ^ 24 + low)

def execMzero (t : BitVec 8) (bank : BitVec 2) (s : State) : Outcome :=
  shortMat t .mzero none bank (wordD 1 (bank.toNat * 2 ^ 22)) s
def execMload (t : BitVec 8) (rs1 : BitVec 5) (bank : BitVec 2) (s : State) : Outcome :=
  shortMat t .mload (some rs1) bank (wordD 2 (rs1.toNat * 2 ^ 19 + bank.toNat * 2 ^ 17)) s
def execMadd (t : BitVec 8) (rs1 : BitVec 5) (bank : BitVec 2) (s : State) : Outcome :=
  shortMat t .madd (some rs1) bank (wordD 3 (rs1.toNat * 2 ^ 19 + bank.toNat * 2 ^ 17)) s

/-! ### Drains (R140 to R144) -/

/-- Bytes of an output row in ROW layout. -/
def drainRow (o : Nat) : Nat := 128 * fmtW o / 8 + (if isMX o then 4 else 0)

def parRow0 (p : Word) : Nat := field p 6 0
def parRows (p : Word) : Nat := field p 14 8 + 1
def parStride (p : Word) : Nat := field p 31 16

/-- MAT_CONFIG with SUB 6 (R141). -/
def drainBad (c : Chain) (bank : Nat) (par : Word) (panel : Bool) (arg : Nat) : Bool :=
  let rows := (c.stages.filter fun g => opRow g.op).length
  c.rowlen != 128 || (bank == 2 && !c.wide) || 1 < rows || (rows == 1 && arg == 0) || (rows == 0 && arg != 0) || arg == 31 ||
  127 < parRow0 par + field par 14 8 ||
  (c.stages.any fun g => g.opnd == 3 && 32 * 16384 < g.vreg * 16384 + parRows par * 128 * fmtW g.arg) ||
  (if panel then parRow0 par != 0 || parRows par != 128 || parStride par != 0 else 16 * parStride par < drainRow c.outFmt) ||
  par.getLsbD 7 || par.getLsbD 15

/-- The bytes of the output: the whole range written. -/
def drainBytes (c : Chain) (par : Word) (panel : Bool) : Nat :=
  if panel then panelStride c.outFmt else (parRows par - 1) * 16 * parStride par + drainRow c.outFmt

def execMdrain (t : BitVec 8) (dst desc par arg : BitVec 5) (bank : BitVec 2) (panel : Bool) (s : State) : Outcome :=
  let word := wordD 0 (dst.toNat * 2 ^ 19 + desc.toNat * 2 ^ 14 + par.toNat * 2 ^ 9 + arg.toNat * 2 ^ 4 + bank.toNat * 2 ^ 2 +
    (if panel then 2 else 0))
  onMatrix t word [.s dst.toNat, .s desc.toNat, .s par.toNat, .s arg.toNat] s fun n s =>
    let x := s.tile n
    let b := bank.toNat
    if x.dFull then s
    else if b = 3 then s.exc n exIllegal 0 word
    else
      let va := (x.rs desc.toNat).toNat
      match s.readDesc n va with
      | (s, .fault e h) => s.vecFault n va e h
      | (s, .misaligned) => s.exc n exVecConfig 7 word
      | (s, .uncorr q) => s.vecUncorr n va q
      | (s, .words ws) =>
        let c := chainOf ws
        let p := x.rs par.toNat
        let o := (x.rs dst.toNat).toNat
        let rec_ := (x.rs arg.toNat).toNat
        let al := if panel then 128 else 16
        let chk := okIf (chainVersion ws) (exVersion, 0)
          (okIf (chainInconsistent ws true) (exVecConfig, 6)
            (okIf (drainBad c b p panel arg.toNat) (exMatConfig, 6)
              (okIf (x.bankBad b) (exMatConfig, 1)
                (okIf (o % al != 0 || (arg.toNat != 0 && rec_ % 16 != 0)) (exMatConfig, 3) none))))
        match chk with
        | some e => s.exc n e.1 e.2 word
        | none =>
          match s.latchRange n .store o (drainBytes c p panel),
              (if arg.toNat = 0 then .ok [] else s.latchRange n .store rec_ (16 * parRows p)) with
          | .error e, _ => s.exc n e.1 2 (BitVec.ofNat 64 e.2)
          | _, .error e => s.exc n e.1 2 (BitVec.ofNat 64 e.2)
          | .ok p1, .ok p2 =>
            let d : DOp :=
              { bank := b, seq := x.opSeq, pc := s.pcDevice n, pages := p1 ++ p2, words := ws, dst := o, par := p, panel := panel
                arg := arg.toNat, recs := rec_, base := x.rs ((arg.toNat + 1) % 32) }
            let x := { x with dUnit := x.dUnit ++ [d], opSeq := x.opSeq + 1 }
            if x.precise then s.setTile n { x with mode := .matrix } else (s.setTile n x).retire1 n

/-- The raw operand element n from VREG upward (R140). -/
def Tile.flatElem (x : Tile) (r w n : Nat) : Nat := x.elem r w n

/-- R144: the drain writes a raw bank image: no stage, ROW layout, rows next to each other, the bank's own format. -/
def DOp.raw (d : DOp) (c : Chain) : Bool :=
  c.stages.isEmpty && !d.panel && 16 * parStride d.par == drainRow c.outFmt && c.wide == (d.bank == 2)

/-- Row r of the drain through the chain, or its bits as they are for a raw image. -/
def Tile.drainMids (x : Tile) (d : DOp) (c : Chain) (r : Nat) : List ChainMid :=
  (List.range 128).map fun col =>
    let b := x.accAt d.bank ((parRow0 d.par + r) * 128 + col)
    if d.raw c then ⟨b, 0, 0, none⟩
    else c.mid (if d.bank = 2 then 0 else 1) b fun g =>
      x.flatElem g.vreg (fmtW g.arg) (if g.opnd = 2 then col else r * 128 + col)

/-- The output of a row: element codes with marks, scales of its blocks, flags. -/
def Chain.rowOut (c : Chain) (ms : List ChainMid) : List (Nat × Mark) × List Nat × Nat :=
  if isMX c.outFmt then
    (List.range 4).foldl (fun a b =>
      let r := c.outBlock ((ms.drop (32 * b)).take 32)
      (a.1 ++ r.2.1, a.2.1 ++ [r.1], a.2.2 ||| r.2.2)) ([], [], 0)
  else
    (ms.map fun m => let r := c.out m; (r.1, r.2.2), [], ms.foldl (fun a m => a ||| (c.out m).2.1) 0)

def packBits (w : Nat) (es : List Nat) : Nat := es.foldr (fun e acc => e % 2 ^ w + 2 ^ w * acc) 0

/-- R143: the row's best merges with its record. -/
def State.drainRecord (s : State) (d : DOp) (r : Nat) (c : Chain) (ms : List ChainMid) : State × Nat :=
  if d.arg = 0 then (s, 0) else
  let a := d.recs + 16 * r
  let isMax := ms.any fun m => match m.row with | some (b, _) => b | none => false
  let v0 := s.latchedBytes d.pages a 8
  let cands := (ms.zip (List.range 128)).map fun p =>
    (match p.1.row with | some (_, b) => widenF c.fmt b | none => 0, (d.base.toNat + p.2) % 2 ^ 64)
  let best := cands.foldl (mergeBest 0 isMax) (v0, s.latchedBytes d.pages (a + 8) 8)
  let fl := if fp64.decode v0 == .nan true || (cands.any fun q => fp64.decode q.1 == .nan true) then flNV else 0
  ((s.latchedWrite d.pages a (bestBits 0 best.1) 8).latchedWrite d.pages (a + 8) best.2 8, fl)

/-- The drain's output is written, its records merged, its elements observed slice by slice of 16 rows. -/
def State.drainPerform (s : State) (t : Nat) (d : DOp) : State × Nat :=
  let x := s.tile t
  let c := chainOf d.words
  let o := c.outFmt
  let w := fmtW o
  let rows := parRows d.par
  let outs := (List.range rows).map fun r => c.rowOut (x.drainMids d c r)
  let recd := (List.range rows).foldl (fun a r =>
    let q := a.1.drainRecord d r c (x.drainMids d c r); (q.1, a.2 ||| q.2)) (s, 0)
  let s := recd.1
  let s :=
    if d.panel then
      let s := (List.range 128).foldl (fun s col =>
        let v := packBits w (outs.map fun q => (q.1.getD col (0, 0)).1)
        s.latchedWrite d.pages (d.dst + col * 128 * w / 8) v (128 * w / 8)) s
      if isMX o then
        let s := (List.range 4).foldl (fun s b =>
          s.latchedWrite d.pages (d.dst + panelE o + 128 * b) (packBits 8 (outs.map fun q => q.2.1.getD b 0)) 128) s
        s.latchedWrite d.pages (d.dst + panelE o + 512) (d.par.toNat / 2 ^ 32) 128
      else s
    else
      (outs.zip (List.range rows)).foldl (fun s q =>
        let a := d.dst + q.2 * 16 * parStride d.par
        let s := s.latchedWrite d.pages a (packBits w (q.1.1.map (·.1))) (128 * w / 8)
        s.latchedWrite d.pages (a + 128 * w / 8) (packBits 8 q.1.2.1) q.1.2.1.length) s
  let s := (List.range ((rows + 15) / 16)).foldl (fun s i =>
    s.observe t c.tag (((outs.drop (16 * i)).take 16).flatMap fun q => q.1.map (·.2))) s
  (s, outs.foldl (fun a q => a ||| q.2.2) recd.2)

/-- MDRAIN_COMPLETE: the drain at the head of its unit, once its bank is free, writes its results (R133). -/
def execMdrainComplete (t : BitVec 8) (s : State) : Outcome :=
  let n := t.toNat
  let x := s.tile n
  .next (match x.dUnit with
    | [] => s
    | d :: rest =>
      if x.mode = .frozen ∨ s.stilled n ∨ x.dBlocked d then s
      else if x.parBad.contains (.acc d.bank) || d.regs.any (fun r => x.parBad.contains (.v r)) then
        s.parityHalt n (x.parBad.contains (.acc d.bank))
      else
        let r := s.drainPerform n d
        let s := r.1.setTile n (({ r.1.tile n with dUnit := rest, vecGated := false }).raiseFlags 3 r.2)
        (s.matDone n d.seq 3 r.2 false).kKick n 3)

/-- R146: after 2,048 idle tile cycles the array gates its clock. -/
def execMatrixGate (t : BitVec 8) (s : State) : Outcome :=
  let n := t.toNat
  .next (if (s.tile n).mode = .frozen ∨ !(s.tile n).matIdle then s else s.setTile n { s.tile n with matGated := true })

end Sys2Proof.Machine
end

