-- ==== Sys2Proof/Machine/Watch.lean ====
section
/-!
DEFINITION. The numerics watch of a compute die (R165 to R169).
-/
namespace Sys2Proof.Machine

/-- The die whose watch counts for producer t. -/
def watchDie (t : Nat) : Nat := if t < 256 then t / 32 else t - 256

/-- Counts of die d are on their way. -/
def State.watchBusy (s : State) (d : Nat) : Bool := s.watch.any fun w => watchDie w.tile == d

/-- The watch's drain ends once no count is in flight (R168). -/
def State.watchSettle (s : State) (d : Nat) : State :=
  if s.watchBusy d then s else s.endDrain (.watch d) (NWT_CTRL d) NWT_CTRL_EN (NWT_STATUS d) NWT_STATUS_ACTIVE

/-- One increment of a counter of tag g with its threshold (R10, R167): code is 1 ZERO, 2 SAT, 3 NONFIN. A streamer is no
tile: no tile is interrupted, and TILE is a free value. -/
def State.watchInc (s : State) (t g code : Nat) : State :=
  let d := watchDie t
  let a := if code = 3 then NWT_NF d g else NWT_ZS d g
  let f := match code with | 1 => NWT_ZS_ZERO | 2 => NWT_ZS_SAT | _ => NWT_NF_NONFIN
  let en := match code with | 1 => NWT_THR_EN_ZERO | 2 => NWT_THR_EN_SAT | _ => NWT_THR_EN_NF
  let before := s.fld a f
  let s := s.stick a f 1
  let thr := s.fld (NWT_THR d g) NWT_THR_THRESH
  if thr ≠ 0 ∧ before + 1 = thr ∧ s.bit (NWT_THR d g) en then
    let s := if t < 256 then s.latchIrq t 5 else s
    let r := if t < 256 then (BitVec.ofNat 64 t, s) else s.fresh
    let s := r.2.wr (NWT_EVT d) (BitVec.ofNat 64 (code * 2 ^ 24 + g * 2 ^ 8 + r.1.toNat % 256))
    let s := s.setf (NWT_STATUS d) NWT_STATUS_EVT 1
    s.notify (NWT_STATUS d) 2 (some ⟨9, code, 0, d * 256 + g⟩)
  else s

/-- The counts of one vchain or drain slice, in ascending element order. -/
def State.watchApply (s : State) (w : WatchItem) : State :=
  w.marks.foldl (fun s m =>
    let s := s.stick (NWT_SEEN (watchDie w.tile) w.tag) NWT_SEEN_COUNT 1
    if m = 0 then s else s.watchInc w.tile w.tag m) s

/-- NWT_COUNT: the oldest counts of producer t (a tile, or 256 + d for the streamer of die d) reach the watch. -/
def execNwtCount (t : BitVec 9) (s : State) : Outcome :=
  let n := t.toNat
  .next (match s.watch.find? fun w => w.tile == n with
    | none => s
    | some w => (({ s with watch := s.watch.erase w }).watchApply w).watchSettle (watchDie n))

/-- R169: the Cox (and debug with its permissions) and the tile supervisors of the die write the NWT_ registers. -/
def nwtMay (m : Master) (d : Nat) : Bool :=
  match m with | .cox => true | .tile t => t / 32 == d | .host => false

/-- A write of v at offset o of the NWT_ block of die d; tag 0, which counts nothing, has RSV doublewords alone. -/
def State.nwtWrite (s : State) (m : Master) (d o : Nat) (v : Word) : State :=
  let a := NWT_CTRL d + o
  if !nwtMay m d then s.setf (NWT_STATUS d) NWT_STATUS_PERM_ERR 1
  else if rsvBad a v || (0x1000 ≤ o && o < 0x1020 && v != 0) then s.setf (NWT_STATUS d) NWT_STATUS_VER_ERR 1
  else if 0x1000 ≤ o ∧ o < 0x1020 then s
  else if o = 0 then
    (s.writeEnable (.watch d) a NWT_CTRL_EN (NWT_STATUS d) NWT_STATUS_ACTIVE (v.getLsbD 0)).watchSettle d
  else if 0x1020 ≤ o ∧ o < 0x3000 ∧ o % 32 = 0x18 then
    let g := (o - 0x1000) / 32
    let s := if v.getLsbD 32 then ((s.wr (NWT_SEEN d g) 0).wr (NWT_ZS d g) 0).wr (NWT_NF d g) 0 else s
    s.put a v
  else s.put a v

/-- NWT_EN: a write of NWT_CTRL. -/
def execNwtEn (m : Master) (d : BitVec 3) (v : Word) (s : State) : Outcome := .next (s.nwtWrite m d.toNat 0 v)
/-- NWT_CLEAR: a write of NWT_THR_g. -/
def execNwtClear (m : Master) (d : BitVec 3) (g : BitVec 8) (v : Word) (s : State) : Outcome :=
  .next (s.nwtWrite m d.toNat (0x1018 + 0x20 * g.toNat) v)

end Sys2Proof.Machine
end

