-- ==== Sys2Proof/Machine/System.lean ====
section
/-!
DEFINITION. System control (R58, R67, R79, R82, R84, R85, R194), interrupts (R73, R466), and the two TIL_ writes that
chapter 03 names (R72, R74).
-/
namespace Sys2Proof.Machine

def wordSys (sys operand : Nat) : Word := wordE 1 (sys * 2 ^ 20 + operand)

/-- R67: a fast call. -/
def execEcall (t : BitVec 8) (n : BitVec 2) (s : State) : Outcome :=
  onTileSerial t [.csr (csrEntry n.toNat)] s fun i x =>
    s.notLast i (wordSys 0 n.toNat)
      (let user := x.user
       let target := (x.c (csrEntry n.toNat)).toNat
       let x := (x.setS 31 ((x.pc + 4).setWidth 64)).setCf csrStatus stPriv 1
       ((s.setTile i x).trace i 4 0 target).retireAs i user target)

-- log 152: DEDUCED, unsafe.
/-- R67: the return from a fast call. -/
def execCret (t : BitVec 8) (s : State) : Outcome :=
  onTileSerial t [.s 31] s fun i x =>
    s.notLast i (wordSys 1 0)
      (if x.user then s.exc i exPrivileged 0 (wordSys 1 0)
       else
         let target := (x.rs 31).toNat / 4 * 4
         ((s.setTile i (x.setCf csrStatus stPriv 0)).trace i 5 0 target).retireAs i false target)

/-- The registers that a frame restores (R79, Table 3.13). -/
def Tile.restore (x : Tile) (f : Nat → Word) : Tile :=
  let x := x.setC csrStatus (f 1 &&& (bitsMask 10 8 ||| bitsMask 15 14 ||| 1))
  let x := x.setC csrMask ((f 2 &&& (bitsMask 13 8 ||| bitsMask 15 15 ||| 7)) ||| bitsMask 14 14)
  let lc := bitsMask 63 32 ||| bitsMask 11 0
  let ls := bitsMask 47 2
  let x := ((x.setC (csrLc 0) (f 5 &&& lc)).setC (csrLs 0) (f 6 &&& ls)).setC (csrLc 1) (f 7 &&& lc) |>.setC (csrLs 1) (f 8 &&& ls)
  (List.range 23).foldl (fun x i => x.setS (i + 1) (f (9 + i))) x

-- log 12: DEDUCED, unsafe; log 152: DEDUCED, unsafe.
/-- R79: return from a trap. A frame that does not lie in the own populated store is LOAD_ACCESS (log 12). -/
def execEret (t : BitVec 8) (s : State) : Outcome :=
  onTileSerial t [] s fun i x =>
    s.notLast i (wordSys 2 0)
      (if x.user then s.exc i exPrivileged 0 (wordSys 2 0)
       else
         let fsp := (x.c csrFsp).toNat
         if !inStore i fsp 256 then s.exc i exLoadAccess 0 (x.c csrFsp)
         else match s.storeRead i fsp 256 with
           | (s, .error (_, b)) => s.exc i exMemUncorr 0 (BitVec.ofNat 64 b)
           | (s, .ok v) =>
             let f (k : Nat) : Word := BitVec.ofNat 64 (v / 2 ^ (64 * k))
             let x := (x.restore f).setC csrFsp (BitVec.ofNat 64 (fsp + 256))
             let target := (f 0).toNat / 4 * 4
             let s := s.setTile i x.countRet
             let s := s.setTile i { s.tile i with pc := BitVec.ofNat 48 target, pcHigh := BitVec.ofNat 16 (target / 2 ^ 48) }
             let s := s.trace i 3 0 target
             match x.kPause with
             | .none => s
             | .asked g => if g = fsp then s.kResume i else s
             | .paused g => if g = fsp then s.kResume i else s)

def execEbreak (t : BitVec 8) (s : State) : Outcome :=
  onTileSerial t [] s fun i _ => s.notLast i (wordSys 3 0) (s.exc i exBreak 0 0)

/-- Some interrupt is pending and enabled, whatever its level (R85). -/
def State.wakes (s : State) (t : Nat) : Bool :=
  (List.range 9).any fun c => (s.ipend t).getLsbD c && (s.tile t).irqOn c

/-- R85: wfi waits until an interrupt is pending and enabled, and then retires. -/
def execWfi (t : BitVec 8) (s : State) : Outcome :=
  onTileSerial t [] s fun i x => if s.wakes i then s.retire1 i else s.setTile i { x with mode := .wfi }

def execWfiWake (t : BitVec 8) (s : State) : Outcome :=
  let i := t.toNat
  .next (if (s.tile i).mode = .wfi ∧ s.wakes i ∧ !s.stilled i then s.retire1 i else s)

-- log 13: DESIGN CHOICE, safe.
/-- R58: every scalar and vector store to the own store has been written when the instruction executes, and commands
carry the words that the core fetched: ifence only retires. -/
def execIfence (t : BitVec 8) (s : State) : Outcome := onTileSerial t [] s fun i _ => s.retire1 i

/-- Every K-stream unit operation but a held one, and every drain, has completed. -/
def Tile.matWaited (x : Tile) : Bool := (x.kUnit.isEmpty || x.cf csrMprog mpHeld == 1) && x.dUnit.isEmpty

/-- Flags of unit u remembered in `raised`. -/
def Tile.unitFlags (x : Tile) (u : Nat) : Nat := x.raised / 2 ^ (5 * u) % 32

/-- R82: afence waits for matrix and drain work, reports a deferred error first, then an enabled flag. -/
def execAfence (t : BitVec 8) (s : State) : Outcome :=
  onTile t [] s fun i x =>
    match x.kErr with
    | some e => s.takeDeferred i e
    | none =>
      let s := s.kResume i
      let x := s.tile i
      if !x.matWaited then s
      else
        let fl := (x.c csrFflags).toNat % 32
        if x.trapsOn fl then
          let y := [0, 1, 2, 3].foldl (fun y u =>
            if x.trapsOn (Nat.land (x.unitFlags u) fl) then y.noteAsum u fl else y)
            (x.setC csrAsum (x.c csrAsum ||| ((BitVec.ofNat 64 fl &&& x.c csrFtrap) <<< 8)))
          (s.setTile i y).exc i exArith 0 0
        else s.retire1 i

/-- R84: ofence waits for the classes of its mask. -/
def execOfence (t : BitVec 8) (mask : BitVec 3) (s : State) : Outcome :=
  onTile t [] s fun i x =>
    match (if mask.getLsbD 0 then x.kErr else none) with
    | some e => s.takeDeferred i e
    | none =>
      let s := if mask.getLsbD 0 then s.kResume i else s
      let x := s.tile i
      if x.drainBusy || (mask.getLsbD 0 && !x.matWaited) ||
          (mask.getLsbD 1 && !(x.dmQueue.isEmpty && x.dmSlots.isEmpty)) || (mask.getLsbD 2 && x.waits != 0) then s
      else s.retire1 i

/-- An add, replacement of a count or a take that tile t has handed off has not reached its home. -/
def BkOp.signals (o : BkOp) : Bool := match o.kind with | .add _ => true | .put _ => true | _ => false

/-- R194: mfence waits until the stores, messages or buckle signals of its mask have taken effect. -/
def execMfence (t : BitVec 8) (mask : BitVec 3) (s : State) : Outcome :=
  onTile t [] s fun i x =>
    if (mask.getLsbD 0 && s.store.outStores.any (·.tile == i)) || (mask.getLsbD 1 && !x.outbox.isEmpty) ||
        (mask.getLsbD 2 && s.links.ops.any fun o => o.tile == i && o.signals) then s
    else s.retire1 i

/-- R192: a bread that waits is abandoned; it executes again on return. -/
def State.dropBread (s : State) (t : Nat) : State :=
  match (s.tile t).mode with
  | .bread _ =>
    let s := { s with links := { s.links with
      ops := s.links.ops.filter fun o => !(o.tile == t && o.kind == BkKind.read), reads := s.links.reads.filter fun r => r.1 ≠ t } }
    s.setTile t { s.tile t with mode := .running }
  | _ => s

-- log 150: DESIGN CHOICE, unsafe; log 151: DEDUCED, unsafe.
/-- R73, R78: the interrupt recognised at this boundary is taken; debug halt freezes the tile (R466). -/
def execInterrupt (t : BitVec 8) (s : State) : Outcome :=
  let i := t.toNat
  .next (match if s.stilled i then none else s.recognised i with
    | none => s
    | some c =>
      let s := s.dropBread i
      let x := s.tile i
      if c = 7 then
        if x.mode = .running ∨ x.mode = .idle then
          let s := s.setTile i { x with latched := x.latched &&& ~~~ 0x80 }
          s.escalate i 4 7 0 x.pc.toNat 0
        else s
      else if x.mode = .running then
        let s := if c = 4 ∨ c = 5 ∨ c = 6 ∨ c = 8 then s.setTile i { x with latched := x.latched &&& ~~~ (BitVec.ofNat 64 (2 ^ c)) } else s
        s.enterTrap i c 0 true 0 (0x30 + c) (irqLevel c)
      else s)

/-- R72: a write of doubleword 0x00 (`hi` false) or 0x08 of translation entry i of tile t. -/
def execTilXlatWrite (m : Master) (t : BitVec 8) (i : BitVec 10) (hi : Bool) (v : Word) (s : State) : Outcome :=
  .next (s.tilWrite m t.toNat (0x4000 + 16 * i.toNat + (if hi then 8 else 0)) v)

/-- R74: a Cox write of TIL_COX_NOTE. -/
def execTilCoxNoteWrite (t : BitVec 8) (v : Word) (s : State) : Outcome := .next (s.tilWrite .cox t.toNat 0x40 v)

/-- R57, R68 to R71: the fetch at the pc faults; a fetch that does not fault leaves the state as it is. -/
def execInstructionFetchFault (t : BitVec 8) (s : State) : Outcome :=
  let i := t.toNat
  let x := s.tile i
  .next (if !s.runs i then s
    else
      let va := x.pcHigh.toNat * 2 ^ 48 + x.pc.toNat
      match s.translate i x.user .fetch va with
      | .error e => s.exc i e 0 (BitVec.ofNat 64 va)
      | .ok a => if inStore i a 4 then s else s.exc i exFetchAccess 0 (BitVec.ofNat 64 va))

end Sys2Proof.Machine
end

