-- ==== Sys2Proof/Machine/HostLink.lean ====
section
/-!
DEFINITION. What other units need of the host-facing function: whether it is in reset or may master the bus, and what
leaves the module for it (R182, R311).
-/
namespace Sys2Proof.Machine

-- log 164: PRESUMED, unsafe.
/-- The outbound window ends every access: the function is in reset or asleep, or Bus Master Enable is 0 (R182, R309). -/
def State.hostDown (s : State) : Bool := s.bit PCI_STATUS PCI_STATUS_FRST || !s.bit PCI_STATUS PCI_STATUS_BME || s.host.d3

/-- R309: the host bus address of a device address in the outbound window. -/
def State.busAddr (s : State) (a : Nat) : Nat := s.fld PCI_OB_HI PCI_OB_HI_HI * 2 ^ 44 + (a - 0x040000000000)

-- log 161: DESIGN CHOICE, unsafe.
/-- R310: n bytes at a as requests of at most `most` bytes that cross no 4 KiB boundary; fuel is at least their number. -/
def hostPieces (most : Nat) : Nat → Nat → Nat → List (Nat × Nat)
  | 0, _, _ => []
  | f + 1, a, n =>
    if n = 0 then [] else
    let k := min n (min most (4096 - a % 4096))
    (a, k) :: hostPieces most f (a + k) (n - k)

/-- R309, R310: posted writes of n bytes v at device address a of the window. -/
def State.hostPost (s : State) (a n v : Nat) : State :=
  (hostPieces 512 (n / 512 + 2) a n).foldl (fun s p => s.emit (.hostWrite (s.busAddr p.1) p.2 (v / 256 ^ (p.1 - a) % 256 ^ p.2))) s

end Sys2Proof.Machine
end

