-- ==== Sys2Proof/Machine/Ect.lean ====
section
/-!
DEFINITION. Peer contexts of the fabric (R318 to R326): opening, sending, and what a received packet does to its context.
-/
namespace Sys2Proof.Machine

def noCtx : Nat → PeerCtx := fun _ => PeerCtx.closed
def State.ctx (s : State) (c : Nat) : PeerCtx := SMap.get noCtx s.fabric.ctxs c
def State.setCtx (s : State) (c : Nat) (x : PeerCtx) : State :=
  { s with fabric := { s.fabric with ctxs := SMap.set noCtx s.fabric.ctxs c x } }

/-- Fabric port p is UP or DEGRADED (Table 13.10). -/
def State.fabUp (s : State) (p : Nat) : Bool := (s.rd FAB_STATUS).getLsbD p

/-- The up ports of a PORTS mask, lowest first (R324). -/
def State.portsUp (s : State) (mask : Nat) : List Nat := (List.range 8).filter fun p => mask.testBit p && s.fabUp p

/-- The lowest context that is not open (R326). -/
def freeFrom (used : List Nat) : Nat → Nat → Option Nat
  | _, 0 => none
  | c, n + 1 => if used.contains c then freeFrom used (c + 1) n else some c

def State.freeCtx (s : State) : Option Nat :=
  freeFrom (s.fabric.ctxs.map (·.1)) 0 (min 65536 (s.fabric.ctxs.length + 1))

/-- The open context to the module at an address and UDP port (R326). -/
def State.ctxTo (s : State) (addr udp : Nat) : Option Nat :=
  (s.fabric.ctxs.find? fun q => q.2.state == 1 && q.2.addr == some addr && q.2.udp == udp).map (·.1)

/-! ### The configuration of a port (R317) -/

def noCfg : Nat → List Word := fun _ => []
/-- Bits hi to lo of doubleword i of the FAB_CFG payload of port p. -/
def State.portCfg (s : State) (p i hi lo : Nat) : Nat := field ((SMap.get noCfg s.fabric.cfg p).getD i 0) hi lo
def State.portUdp (s : State) (p : Nat) : Nat := s.portCfg p 0 47 32

/-- The IPv4-mapped address of an IPv4 address whose first byte is the highest; addresses are numbers whose byte 0 is the
first of network order. -/
def mapped4 (v : Nat) : Nat :=
  0xFFFF * 2 ^ 80 + ((List.range 4).foldl (fun n i => n + v / 256 ^ i % 256 * 256 ^ (3 - i)) 0) * 2 ^ 96
def isMapped4 (a : Nat) : Bool := a % 2 ^ 96 == 0xFFFF * 2 ^ 80

/-- The address of port p, of the family of the address a. -/
def State.portAddr (s : State) (p a : Nat) : Nat :=
  if isMapped4 a then mapped4 (s.portCfg p 0 31 0) else s.portCfg p 2 63 0 + s.portCfg p 3 63 0 * 2 ^ 64

/-- The address of port p by itself: IPv6 where it is valid. -/
def State.portHome (s : State) (p : Nat) : Nat := s.portAddr p (if s.portCfg p 0 58 58 = 1 then 0 else mapped4 0)

/-- LEN of a packet (Tables 13.1 to 13.3). -/
def ectLen (typ : Nat) (body : List Nat) : Nat :=
  match typ with
  | 3 => 24 + body.getD 11 0
  | 4 => 24 + body.getD 11 0
  | 5 => Config.ctrlBytes
  | 6 => 8 * (body.length - 1)
  | _ => 0

/-- A packet of TYPE typ leaves on port p of context c: c; DST_CTX plus 1, or 0 while it is not known; PSN, ACK_PSN, SACK,
ECE, RETX, STROKE, SSTATE and AGED of Table 13.1; the peer's address plus 1 or 0, and its UDP port; the address of the port,
the source port (R318), DSCP (R317), the ECN codepoint ECT(0) (R323) and LEN; then the payload. Every packet carries the
acknowledgement (R321). -/
def State.ectFrame (s : State) (c p typ psn retx : Nat) (body : List Nat) : State :=
  let x := s.ctx c
  let s := s.emit (.fabric p typ ([c, (match x.rctx with | some r => r + 1 | none => 0), psn, x.link.expect, x.link.sack,
    (if x.ece then 1 else 0), retx, s.now.toNat % 2 ^ 32, s.fld STK_STATUS STK_STATUS_STATE, s.fld STK_STATUS STK_STATUS_AGED,
    (match x.addr with | some a => a + 1 | none => 0), x.udp, s.portAddr p (x.addr.getD 0), 49152 + c % 16384, s.portCfg p 0 56 51,
    2, ectLen typ body] ++ body))
  s.setCtx c { x with ece := false, link := { x.link with owed := 0 } }

/-- R322, R324: a packet that consumes a PSN is sent on context c and kept until it is acknowledged. -/
def State.ectSend (s : State) (c typ : Nat) (body : List Nat) : State :=
  let x := s.ctx c
  if x.state ≠ 1 then s else
  let psn := x.link.next
  let s1 := s.setCtx c { x with link := x.link.send typ body s.now }
  if 512 ≤ x.link.unacked.length then s1 else
  let up := s.portsUp x.ports
  match up[psn % max 1 up.length]? with
  | some p => s1.ectFrame c p typ psn 0 body
  | none => s1

/-- Packets that waited for acknowledgements leave (R322). -/
def State.ectRelease (s : State) (c : Nat) : Nat → State
  | 0 => s
  | n + 1 =>
    let x := s.ctx c
    match x.link.wait with
    | [] => s
    | (typ, body) :: r =>
      if 512 ≤ x.link.unacked.length then s
      else ((s.setCtx c { x with link := { x.link with wait := r } }).ectSend c typ body).ectRelease c n

/-- A packet p of context c is retransmitted on the next up port (R322). -/
def State.ectResend (s : State) (c : Nat) (p : Pkt) : State :=
  let x := s.ctx c
  let up := s.portsUp x.ports
  let s := s.setCtx c { x with link := x.link.resent p s.now }
  let s := s.wrap CRW_CNT_RETX CRW_CNT_RETX_VALUE 1 CRW_STATUS CRW_STATUS_RETX_OVF
  match up[(p.psn + p.tries + 1) % max 1 up.length]? with
  | some q => s.ectFrame c q p.typ p.psn 1 p.body
  | none => s

/-- The payload of a COLL or PUT packet: CREW, MEMBER, KIND, PHASE, OPID, OFFSET, OP, RED, FMT, OPLEN of Table 13.3, the flags
of the operation so far (R335), the number of data bytes, the data. -/
def CollPkt.body (q : CollPkt) : List Nat :=
  [q.crew, q.mem, q.kind, q.phase, q.opid, q.off, q.op, q.red, q.fmt, q.oplen, q.flags, q.n, q.data]

/-! ### Port training (R315) -/

/-- The state, mode and lanes of a port whose trained lanes are `lanes` (working lanes from the lowest): the fastest mode
that MODE_MAX and the lanes allow. -/
def trainPortMode (modeMax lanes : Nat) : Nat × Nat × Nat :=
  match [0, 1, 2].find? fun m => modeMax ≤ m && 4 / 2 ^ m ≤ lanes with
  | some m => (if m = modeMax then 2 else 3, m, 4 / 2 ^ m)
  | none => (4, 0, 0)

/-! ### Receiving -/

def hTyp : Fld := ⟨56, 4⟩
def hAckv : Fld := ⟨55, 1⟩
def hEce : Fld := ⟨54, 1⟩
def hDst : Fld := ⟨32, 16⟩
def hSrc : Fld := ⟨16, 16⟩
def hLen : Fld := ⟨0, 16⟩

/-- The growth fields of an ECT header (Table 13.1). -/
def hdrGrowth (h : Hdr) : Bool :=
  (h.w0 &&& 0xF01F000000000000) != 0 || (h.w3 &&& 0x1FFFFFFF) != 0

def State.fabDrop (s : State) (p : Nat) : State := s.stick (FAB_CNT_DROP p) FAB_CNT_DROP_COUNT 1

/-- What a received packet does to its context. -/
inductive EctRx where
  /-- discarded, or a duplicate -/
  | drop
  /-- accepted on this context -/
  | take (c : Nat)
  /-- this context is LOST: its SACK shows a packet missing that has been retransmitted RETRY_MAX times (R322) -/
  | lost (c : Nat)
  deriving DecidableEq, Repr

/-- R319: the receiver must discard the packet. -/
def State.ectBad (s : State) (h : Hdr) (src typ len : Nat) : Bool :=
  let x := s.ctx (hDst.get h.w0)
  hdrGrowth h || hTyp.get h.w0 != typ || hLen.get h.w0 != len || x.state != 1 ||
    (match x.rctx with | some r => r != hSrc.get h.w0 | none => false) ||
    (match x.addr with | some a => a != src | none => false)

-- log 78: DEDUCED, unsafe.
/-- R323: an ECE arrives: it counts, and r becomes 7r / 8, once a stroke. -/
def State.eceMet (s : State) (c : Nat) : State :=
  let s := s.stick CRW_CNT_ECE CRW_CNT_ECE_COUNT 1
  let x := s.ctx c
  if x.eces then s else s.setCtx c { x with eces := true, rate := max (1 / 1024) (7 * x.rate / 8) }

-- log 79: DEDUCED, unsafe.
/-- R319 to R325: a packet of TYPE typ with `len` payload bytes arrives on port p from address src, marked CE or not; one
that consumes a PSN is accepted or found a duplicate. -/
def State.ectRx (s : State) (p : Nat) (h : Hdr) (src typ len : Nat) (ce : Bool) : State × EctRx :=
  if !s.fabUp p then (s, .drop)
  else if s.ectBad h src typ len then (s.fabDrop p, .drop)
  else
    let c := hDst.get h.w0
    let x := s.ctx c
    let x := { x with heard := s.now.toNat % 2 ^ 32, addr := some src, udp := if x.addr.isNone then s.portUdp p else x.udp
                      rctx := some (hSrc.get h.w0), sstate := h.w3.toNat / 2 ^ 30 % 4
                      aged := h.w3.getLsbD 29, skew := (h.w3.toNat / 2 ^ 32 + 2 ^ 32 - s.now.toNat % 2 ^ 32) % 2 ^ 32 }
    let ackv := hAckv.get h.w0 = 1
    let ack := h.w1.toNat % 2 ^ 32
    let link := if ackv then (x.link.ack ack h.w2).1 else x.link
    let s := s.setCtx c { x with link := link }
    let s := if hEce.get h.w0 = 1 then s.eceMet c else s
    let missing := if ackv then link.missing ack h.w2 else []
    if missing.any fun q => x.retry ≤ q.tries then (s, .lost c)
    else
      let s := (missing.foldl (fun s q => s.ectResend c q) s).ectRelease c 512
      let x := s.ctx c
      if typ < 3 then (s.setCtx c { x with ece := x.ece || ce }, .take c)
      else
        match x.link.accept (h.w1.toNat / 2 ^ 32) with
        | none => (s, .drop)
        | some l =>
          let s := s.setCtx c { x with link := l, ece := x.ece || ce }
          let up := s.portsUp x.ports
          let s := if l.owed < 8 then s else
            match up.head? with | some q => s.ectFrame c q 1 0 0 [] | none => s
          (s, .take c)

-- log 78: DEDUCED, unsafe.
/-- R325, R321, R323: at a catch a HEARTBEAT leaves on every up port of each context with HB set, and an ACK where an accepted
packet is unacknowledged; the rate grows where no ECE came in the stroke that ended. -/
def State.ectCatch (s : State) : State :=
  (s.fabric.ctxs.map (·.1)).foldl (fun s c =>
    let x := s.ctx c
    if x.state ≠ 1 then s else
    let up := s.portsUp x.ports
    let owed := x.link.owed
    let s := s.setCtx c { x with eces := false, rate := if x.eces then x.rate else min 1 (x.rate + 1 / 64) }
    let s := if x.hb && x.addr.isSome then up.foldl (fun s p => s.ectFrame c p 2 0 0 []) s else s
    if 0 < owed && !x.hb then (match up.head? with | some p => s.ectFrame c p 1 0 0 [] | none => s) else s) s

end Sys2Proof.Machine
end

