-- ==== Sys2Proof/Machine/CoxCore.lean ====
section
/-!
DEFINITION. The Cox: responses (R277), long operations (R286, R287), and the check order of a command (R275).
-/
namespace Sys2Proof.Machine

def noMailbox : Nat → Mailbox := fun _ => Mailbox.free
def noByte : Nat → Byte := fun _ => 0

def State.mailbox (s : State) (m : Nat) : Mailbox := SMap.get noMailbox s.cox.mailboxes m
def State.setMailbox (s : State) (m : Nat) (x : Mailbox) : State :=
  { s with cox := { s.cox with mailboxes := SMap.set noMailbox s.cox.mailboxes m x } }
/-- Doubleword i of mailbox m. -/
def State.mailWord (s : State) (m i : Nat) : Word :=
  BitVec.ofNat 64 ((List.range 8).foldl (fun v k => v + (SMap.get noByte s.cox.mail (m * 8192 + 8 * i + k)).toNat * 256 ^ k) 0)
def State.setMailWord (s : State) (m i : Nat) (w : Word) : State :=
  let mail := (List.range 8).foldl (fun t k => SMap.set noByte t (m * 8192 + 8 * i + k) (BitVec.ofNat 8 (w.toNat / 256 ^ k))) s.cox.mail
  { s with cox := { s.cox with mail := mail } }

/-- The answer to a command (Table 11.4). -/
structure Ans where
  status : Nat
  handle : Nat
  off : Nat
  payload : List Word
  deriving DecidableEq, Repr

def Ans.ok (p : List Word) : Ans := { status := 0, handle := 0, off := 0, payload := p }
def Ans.err (st : Nat) : Ans := { status := st, handle := 0, off := 0, payload := [] }
/-- BAD_ARG or VERSION at byte offset `off` of the payload; 0xFFFF is the header. -/
def Ans.at (st off : Nat) : Ans := { status := st, handle := 0, off := off, payload := [] }

def CoxReq.cmd (r : CoxReq) : Nat := r.h0.toNat / 65536 % 65536
def CoxReq.len (r : CoxReq) : Nat := r.h1.toNat % 8192
def CoxReq.session (r : CoxReq) : Nat := r.h0.toNat / 2 ^ 48
-- log 9: DEDUCED, unsafe.
/-- Doubleword i of the payload. -/
def CoxReq.w (r : CoxReq) (i : Nat) : Nat := (r.words.getD i 0).toNat
def CoxReq.detach (r : CoxReq) : Bool := r.h1.getLsbD 16

def State.tick32 (s : State) : Nat := s.stroke.ticks % 2 ^ 32

-- log 167: DESIGN CHOICE, unsafe.
/-- The response header and payload as doublewords; a payload has at most 4,032 bytes (Table 11.2). -/
def State.ansWords (s : State) (r : CoxReq) (a : Ans) : List Word :=
  let p := a.payload.take 504
  [BitVec.ofNat 64 (r.h0.toNat / 65536 * 65536 + a.status), BitVec.ofNat 64 (a.handle * 2 ^ 32 + 8 * p.length),
   BitVec.ofNat 64 a.off, BitVec.ofNat 64 (s.tick32 * 2 ^ 32 + s.now.toNat % 2 ^ 32), 0, 0, 0, 0] ++ p

/-- R271: message type, Vendor ID and Olupel message code of a command on the MCTP origin. -/
def mctpHead : List Nat := [0x7E, 0x1F3C, 0x01]

/-- R277: the response is written, the mailbox enters DONE (or FREE, R274), and vector VEC is raised when IRQ is set. -/
def State.coxRespond (s : State) (r : CoxReq) (a : Ans) : State :=
  let ws := s.ansWords r a
  match r.origin with
  | .bar0 m =>
    let s := (List.range ws.length).foldl (fun s i => s.setMailWord m (512 + i) (ws.getD i 0)) s
    if (s.mailbox m).freeAtEnd then s.setMailbox m Mailbox.free
    else
      let s := s.setMailbox m { s.mailbox m with state := 3 }
      if r.h0.getLsbD 11 then s.raiseVec (r.h0.toNat % 2048) else s
  | .mctp ep tag => s.emit (.management 0 ([ep, tag] ++ mctpHead ++ ws.map BitVec.toNat))
  | .ect c => s.ectSend c 6 ([1] ++ ws.map BitVec.toNat)

-- log 39: DEDUCED, unsafe.
/-- R468: a record enters the Cox log, which holds the latest 4,096. -/
def State.coxLog (s : State) (kind status session cmd arg party : Nat) (client : Word) : State :=
  let r : CoxLog := { seq := s.cox.logSeq, tick := s.tick32, stroke := s.now.toNat % 2 ^ 32, kind := kind, status := status
                      session := session, cmd := cmd, arg := arg, party := party, client := client }
  let l := s.cox.log ++ [r]
  { s with cox := { s.cox with log := l.drop (l.length - 4096), logSeq := s.cox.logSeq + 1 } }

/-- The session of a command: the open one on its origin (R275 step 2), or the one that closed while it waited (R282). -/
def State.sessionOf (s : State) (r : CoxReq) : Option Session :=
  match r.kept with
  | some x => some x
  | none => s.cox.sessions.find? fun x => x.num == r.session && x.party == r.origin.party

-- log 39: DEDUCED, unsafe.
/-- A command that the Cox has taken ends with the answer a; the log shows its start and its end. -/
def State.coxAnswer (s : State) (r : CoxReq) (a : Ans) : State :=
  let client := ((s.sessionOf r).map (·.client)).getD 0
  let s := s.coxLog 1 0 r.session r.cmd client.toNat r.origin.party client
  (s.coxLog 2 a.status r.session r.cmd a.handle r.origin.party client).coxRespond r a

/-! ### Long operations -/

def State.lop (s : State) (h : Nat) : Option Lop := s.cox.lops.find? (·.handle == h)
def State.putLop (s : State) (l : Lop) : State :=
  { s with cox := { s.cox with lops := s.cox.lops.map fun x => if x.handle = l.handle then l else x } }
def Lop.live (l : Lop) : Bool := l.state < 3

/-- R284, R288: the sessions that receive the LOP_STATE events of an operation. -/
def Lop.heardBy (l : Lop) (x : Session) : Bool :=
  if l.session = 0 then l.detach && x.party == l.party && x.client == l.client else x.num == l.session

/-- The operation l has entered its state; its sessions receive a LOP_STATE event (R288). -/
def State.lopEnter (s : State) (l : Lop) : State :=
  s.cox.sessions.foldl (fun s x =>
    if l.heardBy x then
      match s.cox.sessions.find? (·.num == x.num) with
      | some y => s.sessionEvent y ⟨1, l.status, l.state, l.handle⟩
      | none => s
    else s) (s.putLop l)

-- log 145: DEDUCED, safe.
/-- R287: the live operation h ends in the given state (3 DONE, 4 CANCELLED, 5 FAILED). -/
def State.lopEnd (s : State) (h state status cause : Nat) (result : List Word) : State :=
  match s.lop h with
  | some l =>
    if l.live then s.lopEnter { l with state := state, status := status, cause := cause, endTick := s.tick32, result := result }
    else s
  | none => s

-- log 145: DEDUCED, safe.
def State.lopDone (s : State) (h : Nat) (result : List Word) : State := s.lopEnd h 3 0 0 result
def State.lopFail (s : State) (h cause : Nat) : State := s.lopEnd h 5 0x0D cause []

/-- Handles are nonzero and have 32 bits: the one after h. -/
def handleAfter (h : Nat) : Nat := if 2 ^ 32 ≤ h + 1 then 1 else h + 1
/-- The first handle from h on that no operation holds; fuel is at least the number of operations. -/
def freeHandle (used : List Nat) : Nat → Nat → Nat
  | h, 0 => h
  | h, n + 1 => if used.contains h then freeHandle used (handleAfter h) n else h

-- log 27: DEDUCED, unsafe.
/-- R286: the handle of the next operation. -/
def State.newHandle (s : State) : Nat := freeHandle (s.cox.lops.map (·.handle)) s.cox.nextHandle s.cox.lops.length
/-- R286: no further operation may be live. -/
def State.lopsFull (s : State) : Bool := 1024 ≤ (s.cox.lops.filter Lop.live).length
/-- Operation l, which carries the handle newHandle, is listed. -/
def State.lopAdd (s : State) (l : Lop) : State :=
  { s with cox := { s.cox with lops := s.cox.lops ++ [l], nextHandle := handleAfter l.handle } }

-- log 27: DEDUCED, unsafe.
/-- R286: a long command starts an operation, QUEUED, and answers ACCEPTED with its handle, or NO_RESOURCE at 1,024 live
operations. -/
def State.lopNew (s : State) (r : CoxReq) (x : Session) (args : List Nat) : State × Ans :=
  if s.lopsFull then (s, Ans.err 0x0C)
  else
    let h := s.newHandle
    let l : Lop := { handle := h, cmd := r.cmd, state := 0, status := 0, progress := 0, total := 0, startTick := 0, endTick := 0
                     cause := 0, session := if r.kept.isSome then 0 else x.num, party := x.party, client := x.client, detach := r.detach, suspend := false
                     cancel := false, args := args, result := [] }
    (s.lopAdd l, { status := 1, handle := h, off := 0, payload := [] })

/-- The query record of an operation, whose STATUS is the final one or 0 (R287). -/
def Lop.record (l : Lop) : List Word :=
  [BitVec.ofNat 64 (l.state * 2 ^ 56 + (if l.live then 0 else l.status) * 2 ^ 48 + l.cmd * 2 ^ 32 + l.handle),
   BitVec.ofNat 64 (l.progress * 2 ^ 32 + l.total), BitVec.ofNat 64 (l.startTick * 2 ^ 32 + l.endTick), BitVec.ofNat 64 l.cause]

/-- The long commands of Table 11.8. -/
def longCodes : List Nat := [0x42, 0x60, 0x61, 0x62, 0x63, 0x71, 0x72, 0x80, 0x81, 0x91, 0x92, 0xA0, 0xA1, 0xB0]

/-- A live operation of command code c. -/
def State.liveOf (s : State) (c : Nat) : Option Lop := s.cox.lops.find? fun l => l.live && l.cmd == c

/-! ### The check order -/

/-- Growth fields of a request header (Table 11.3). -/
def CoxReq.growth (r : CoxReq) : Bool :=
  (r.h0 &&& 0xF000) != 0 || (r.h1 &&& 0xFFFFFFFFFFFEE000) != 0 || r.rest

/-- R280: role `have` permits a command for role `need`; commands of MEMBER sessions name it. -/
def roleOk (have_ need : Nat) (member : Bool) : Bool :=
  if have_ = 3 then member else need ≠ 3 && need ≤ have_

/-- The Cox takes no command while it restarts (R285) or before boot stage 0x3 or in recovery (R436, R424). -/
def State.coxIdle (s : State) : Bool :=
  let st := s.fld DEV_STATUS DEV_STATUS_STAGE
  s.bit DEV_STATUS DEV_STATUS_COX_RST || st < 3 || st == 0xE

-- log 10: DEDUCED, safe.
def State.coxPop (s : State) : State := { s with cox := { s.cox with queue := s.cox.queue.tail } }

/-- The commands of interface 2.0 (Table 11.8) and the member messages (Table 13.5). -/
def coxCodes : List Nat :=
  [0x0001, 0x0002, 0x0003, 0x0004, 0x0005, 0x0010, 0x0011, 0x0012, 0x0013, 0x0014, 0x0020, 0x0021, 0x0022, 0x0023, 0x0024,
   0x0030, 0x0031, 0x0038, 0x0039, 0x0040, 0x0041, 0x0042, 0x0043, 0x0044, 0x0048, 0x0049, 0x0050, 0x0051, 0x0060, 0x0061,
   0x0062, 0x0063, 0x0070, 0x0071, 0x0072, 0x0073, 0x0080, 0x0081, 0x0082, 0x0083, 0x0090, 0x0091, 0x0092, 0x0093, 0x00A0,
   0x00A1, 0x00A2, 0x00B0, 0x00B1, 0x0100, 0x0101, 0x0102, 0x0103, 0x0104]

/-- The answer that ends a command of code `code` at steps 1 and 2 of R275, if one does. -/
def State.coxHead12 (s : State) (r : CoxReq) : Option Ans :=
  if r.growth then some (Ans.at 7 0xFFFF)
  else if r.cmd = 1 ∧ r.session = 0 then none
  else if (s.sessionOf r).isSome then none else some (Ans.err 5)

/-- R282: a command that passes step 2 renews its session's lease. -/
def State.renew (s : State) (r : CoxReq) : State :=
  { s with cox := { s.cox with sessions := s.cox.sessions.map fun x =>
    if x.num = r.session ∧ x.party = r.origin.party ∧ r.kept.isNone then { x with lastTick := max x.lastTick r.tick } else x } }

-- log 10: DEDUCED, safe.
/-- R275: commands at the head of the queue that no row of the table names end with BAD_COMMAND, or earlier. -/
def State.coxFlush (s : State) : Nat → State
  | 0 => s
  | n + 1 =>
    match s.cox.queue with
    | [] => s
    | r :: _ =>
      if coxCodes.contains r.cmd || s.coxIdle then s
      else
        let a := s.coxHead12 r
        let s := if a.isNone then s.renew r else s
        (s.coxPop.coxAnswer r (a.getD (Ans.err 3))).coxFlush n

-- log 10: DEDUCED, safe; log 24: DEDUCED, unsafe.
/-- The Cox serves the command of code `code` at the head of its queue, in the check order of R275: the header, the session,
the role (`need`, and whether a MEMBER session may send it), then `body`, whose BAD_ARG and VERSION answers are step 5, whose
DENIED is the owner's check (R283), and whose other answers are step 6. With `early` false the command needs a READY device (R436). -/
def coxCmd (code need : Nat) (member early : Bool) (body : State → CoxReq → Session → State × Ans) (s : State) :
    Host.Outcome State Fault Refusal :=
  .next (match s.cox.queue with
    | [] => s
    | r :: _ =>
      if r.cmd ≠ code ∨ s.coxIdle then s
      else
        let s0 := s.coxPop
        let done (s : State) (a : Ans) : State := let s := s.coxAnswer r a; s.coxFlush s.cox.queue.length
        match s.coxHead12 r with
        | some a => done s0 a
        | none =>
          let s1 := s0.renew r
          match s1.sessionOf r with
          | none => done s1 (Ans.err 5)
          | some x =>
            if !roleOk x.role need member then done s1 (Ans.err 6)
            else
              let q := body s1 r x
              if q.2.status ∈ [4, 6, 7] then done q.1 q.2
              else if !early && !s1.bit DEV_STATUS DEV_STATUS_READY then done s1 (Ans.err 0x0B)
              else done q.1 q.2)

-- log 24: DEDUCED, unsafe.
/-- The first failing check of a payload: (failed, status, offset). -/
def firstBad : List (Bool × Nat × Nat) → Option Ans
  | [] => none
  | (b, st, off) :: r => if b then some (Ans.at st off) else firstBad r

-- log 9: DEDUCED, unsafe; log 24: DEDUCED, unsafe.
/-- Step 5 of R275: a LEN that is wrong (the header's offset) or a failing field; else `k`. -/
def checked (s : State) (r : CoxReq) (len : Nat) (fs : List (Bool × Nat × Nat)) (k : State × Ans) : State × Ans :=
  if r.len ≠ len then (s, Ans.at 4 0xFFFF)
  else match firstBad fs with
    | some a => (s, a)
    | none => k

/-! ### Owners (R283) -/

def State.owned (s : State) (kind index : Nat) : Option Owner := s.cox.owners.find? fun o => o.kind == kind && o.index == index
def State.own (s : State) (kind index : Nat) (x : Session) : State :=
  { s with cox := { s.cox with owners := s.cox.owners ++ [⟨kind, index, x.party, x.client⟩] } }
def State.disown (s : State) (kind index : Nat) : State :=
  { s with cox := { s.cox with owners := s.cox.owners.filter fun o => !(o.kind == kind && o.index == index) } }
/-- The object exists and belongs to another client. -/
def State.otherOwns (s : State) (kind index : Nat) (x : Session) : Bool :=
  match s.owned kind index with | some o => !(o.party == x.party && o.client == x.client) | none => false

end Sys2Proof.Machine
end

