-- ==== Sys2Proof/Machine/Keccak.lean ====
section
/-!
DEFINITION. SHAKE256 (FIPS 202), which digest regions (R366), measurements and key derivation use. The sponge is one
number of 1,600 bits, as wide as the permutation; nothing here is a table: rotation distances and round constants are
computed from their rules.
-/
namespace Sys2Proof.Machine.Keccak

abbrev Sponge := BitVec 1600

/-- The doubleword in column x of row y. -/
def Sponge.cell (v : Sponge) (x y : Nat) : Word := v.extractLsb' (320 * (y % 5) + 64 * (x % 5)) 64

/-- The sponge whose doubleword in column x of row y is `f x y`. -/
def fill (f : Nat → Nat → Word) : Sponge :=
  BitVec.ofNat 1600 ((List.range 5).foldr (fun y n =>
    (List.range 5).foldr (fun x n => n * 2 ^ 64 + (f x y).toNat) n) 0)

/-- The parity of column x over all five rows. -/
def Sponge.parity (v : Sponge) (x : Nat) : Word := (List.range 5).foldl (fun p y => p ^^^ v.cell x y) 0

/-- First part of a round: each column takes in the parities of its two neighbours, the right one turned by one bit. -/
def Sponge.diffuse (v : Sponge) : Sponge := fill fun x y => v.cell x y ^^^ v.parity (x + 4) ^^^ (v.parity (x + 1)).rotateLeft 1

/-- The place that the doubleword of each place but (0, 0) moves to, t times from (1, 0). -/
def tour : Nat → Nat × Nat
  | 0 => (1, 0)
  | t + 1 => let p := tour t; (p.2, (2 * p.1 + 3 * p.2) % 5)

/-- Second part: every doubleword moves one place on along the tour, the t-th turned by the t-th triangular number. -/
def Sponge.scatter (v : Sponge) : Sponge :=
  fill fun x y => match (List.range 24).find? fun t => tour (t + 1) == (x, y) with
    | some t => (v.cell (tour t).1 (tour t).2).rotateLeft ((t + 1) * (t + 2) / 2 % 64)
    | none => v.cell x y

/-- Third part: the only nonlinear one, row by row. -/
def Sponge.mix (v : Sponge) : Sponge := fill fun x y => v.cell x y ^^^ (v.cell (x + 2) y &&& ~~~(v.cell (x + 1) y))

/-- The shift register of the round constants after n shifts (x⁸ + x⁶ + x⁵ + x⁴ + 1). -/
def shifts : Nat → Nat
  | 0 => 1
  | n + 1 => let r := 2 * shifts n; if r < 256 then r else (r % 256) ^^^ 0x71

/-- The constant of round k: bit 2^j − 1 is the register's low bit after 7 k + j shifts. -/
def constant (k : Nat) : Sponge :=
  BitVec.ofNat 1600 ((List.range 7).foldl (fun c j => c + (shifts (7 * k + j)) % 2 * 2 ^ (2 ^ j - 1)) 0)

/-- The permutation: 24 rounds. -/
def permute (v : Sponge) : Sponge := (List.range 24).foldl (fun v k => v.diffuse.scatter.mix ^^^ constant k) v

/-- A message as the number whose byte i is its byte i. -/
def number (m : List Byte) : Nat := m.foldr (fun b n => n * 256 + b.toNat) 0

/-- The first 64 bytes of SHAKE256 of the message: the suffix 1111 and the bits 1 0* 1 fill it up to blocks of 136 bytes. -/
def shake256 (m : List Byte) : List Byte :=
  let k := m.length / 136 + 1
  let n := number m + 0x1F * 256 ^ m.length + 0x80 * 256 ^ (136 * k - 1)
  let v := (List.range k).foldl (fun v j => permute (v ^^^ BitVec.ofNat 1600 (n / 256 ^ (136 * j) % 256 ^ 136))) (0 : Sponge)
  (List.range 64).map fun i => v.extractLsb' (8 * i) 8

/-- The digest as eight doublewords, its first byte lowest. -/
def digestWords (m : List Byte) : List Word :=
  (List.range 8).map fun j => BitVec.ofNat 64 (number (shake256 m) / 2 ^ (64 * j))

end Sys2Proof.Machine.Keccak
end

