-- ==== Sys2Proof/Machine/Lls.lean ====
section
/-!
DEFINITION. The LLS slice as its registers and its Burnisher command it (R201 to R219).
-/
namespace Sys2Proof.Machine

/-- The Cox, whose permissions debug acts with too (R463). -/
def isCox : Master → Bool
  | .cox => true
  | _ => false

/-- Every byte of memory from lo below hi becomes 0. -/
def State.clearMem (s : State) (lo hi : Nat) : State :=
  { s with mem := s.mem.filter fun c => !(lo ≤ c.1 && c.1 < hi) }

/-! ### The lines of a slice -/

/-- The ways' keys of the lines of die d that satisfy p. -/
def State.keysOf (s : State) (d : Nat) (p : Nat → Line → Bool) : List Nat :=
  (s.store.lines.filter fun q => q.1 / 1048576 == d && p q.1 q.2).map (·.1)

/-- FLUSH of one line: written back where it is dirty, then invalidated (Table 8.2). -/
def State.flushLine (s : State) (d k : Nat) : State := (s.writeBack d k).setLine k Line.invalid

/-- Every dirty line of the slice whose memory takes writes is written back and invalidated (R203). -/
def State.drainLines (s : State) (d : Nat) : State :=
  (s.keysOf d fun _ l => l.valid && l.dirty && !s.memDown (memOf l.addr)).foldl (fun s k => s.flushLine d k) s

/-- An accepted write waits at the home of die d, or a granule there for the partner's copy (R203, R355, R373). -/
def State.waitingAt (s : State) (d : Nat) : Bool :=
  s.store.held.any (fun h => homeDie h.addr == d) || s.store.restores.any fun q => homeDie (4096 * q.granule) == d

/-- R203: the drain of the slice ends once no request waits and no dirty line is left; a write of 1 that was held then meets
R202. -/
def State.llsSettle (s : State) (d : Nat) : State :=
  let s := s.drainLines d
  if !s.waitingAt d && (s.keysOf d fun _ l => l.valid && l.dirty).isEmpty then
    let s := s.endDrain (.store d) (LLS_CTRL d) LLS_CTRL_EN (LLS_STATUS d) LLS_STATUS_ACTIVE
    if s.bit (LLS_CTRL d) LLS_CTRL_EN && !s.bit (LLS_STATUS d) LLS_STATUS_TAGS_VALID then
      (s.setf (LLS_CTRL d) LLS_CTRL_EN 0).setf (LLS_STATUS d) LLS_STATUS_SEQ_ERR 1
    else s
  else s

/-- R203: a dirty line that the drain limit finds unwritten is discarded and logged. -/
def State.dropDirty (s : State) (d : Nat) : State :=
  (s.keysOf d fun _ l => l.valid && l.dirty).foldl (fun s k =>
    (s.rasEvent d 0x08 2 0 0 (s.line k).addr).setLine k Line.invalid) s

/-! ### Ways -/

/-- A way's bit in a 16-bit group of LLS_WAYS: DIS from 32, SCR from 16, MOVING from 0. -/
def State.way (s : State) (d lo w : Nat) : Bool := (s.rd (LLS_WAYS d)).getLsbD (lo + w)
def State.setWay (s : State) (d lo w : Nat) (b : Bool) : State :=
  s.setf (LLS_WAYS d) ⟨lo + w, 1⟩ (if b then 1 else 0)

def State.eligibleCount (s : State) (d : Nat) : Nat := ((List.range 16).filter (s.eligible d)).length

/-- Every line of way w is written back and invalidated. -/
def State.cleanWay (s : State) (d w : Nat) : State :=
  (s.keysOf d fun k _ => k % 16 == w).foldl (fun s k => s.flushLine d k) s

/-- R217 steps 2 to 4: the way is cleaned and disabled, and the event reaches the Cox, the log and the retire list. -/
def State.disableWay (s : State) (d w : Nat) : State :=
  let s := ((s.cleanWay d w).setWay d 0 w false).setWay d 32 w true
  let s := ((s.raise (LLS_STATUS d) LLS_STATUS_WAY_EVT).rasEvent d 0x11 4 w 0 0).showDegraded
  s.retire d { kind := 5, cause := 0x11, addr := 0, stroke := s.now.toNat % 2 ^ 32, image := false, unit := d * 16 + w }

/-- The running Burnisher command works on way w (0x9, 0xA and 0xC make their way moving). -/
def State.burnMoves (s : State) (d w : Nat) : Bool :=
  match (s.burn d).running with
  | some c => (c.op == 9 || c.op == 10 || c.op == 12) && c.way == w
  | none => false

-- log 60: DEDUCED, unsafe.
/-- AUTOMATIC_WAY_DISABLE (R217, R218): eight parity events of way w stand within 65,536 strokes. A scratch way, and a
way that would leave fewer than 4 eligible ways, only reports. -/
def execAutomaticWayDisable (d : BitVec 3) (way : BitVec 4) (s : State) : Outcome :=
  let n := d.toNat
  let w := way.toNat
  let hist := SMap.get noHist s.store.parHist (n * 16 + w)
  .next (if hist.length < 8 ∨ s.way n 0 w ∨ s.way n 32 w then s else
    let s := { s with store := { s.store with parHist := SMap.set noHist s.store.parHist (n * 16 + w) (hist.take 7) } }
    if s.way n 16 w then s.raise (LLS_STATUS n) LLS_STATUS_WAY_EVT
    else if s.eligibleCount n < 5 then (s.raise (LLS_STATUS n) LLS_STATUS_WAY_EVT).rasEvent n 0x11 4 w 0 0
    else s.setWay n 0 w true)

/-- WAY_CLEAN_END: the clean of an automatically disabled way finishes (R217). -/
def execWayCleanEnd (d : BitVec 3) (way : BitVec 4) (s : State) : Outcome :=
  let n := d.toNat
  let w := way.toNat
  .next (if s.way n 0 w && !s.burnMoves n w then s.disableWay n w else s)

/-! ### The Burnisher -/

-- log 58: DEDUCED, unsafe.
/-- R213: a command ends: RESULT and LINES, BUSY clear, DONE set, its buckle, and the Cox for slot 32. -/
def State.burnFinish (s : State) (d slot result lines : Nat) (cb : Option Nat) : State :=
  let a := LLS_BURN_STATUS d slot
  let s := (s.setf a LLS_BURN_STATUS_RESULT result).setf a LLS_BURN_STATUS_LINES lines
  let s := ((s.setf a LLS_BURN_STATUS_BUSY 0).setf a LLS_BURN_STATUS_RUN 0).setf a LLS_BURN_STATUS_CANCEL 0
  let s := s.setf a LLS_BURN_STATUS_DONE 1
  let s := match cb with | some b => s.bkAdd b 1 | none => s
  if slot = 32 then s.toCox a 62 else s

-- log 59: DEDUCED, unsafe.
/-- The way of a way operation is unsuitable (R206, R210, R217): a scratch conversion needs a cache way and must leave an
eligible one, a disable needs a cache way, an enable a disabled way; none takes a way that is moving. -/
def State.wayUnfit (s : State) (d op w : Nat) : Bool :=
  let scr := s.way d 16 w
  let dis := s.way d 32 w
  let mov := s.way d 0 w
  match op with
  | 9 => scr || dis || mov || s.eligibleCount d < 2
  | 10 => !scr || mov
  | 12 => scr || dis || mov
  | 13 => !dis || mov
  | _ => false

/-- The range lies wholly in the HBM or wholly in the bulk range of die d (Table 1.3). -/
def rangeOfDie (d a n : Nat) : Bool :=
  (d * 0x1800000000 ≤ a && a + n ≤ (d + 1) * 0x1800000000) ||
  (0x010000000000 + d * 0x3000000000 ≤ a && a + n ≤ 0x010000000000 + (d + 1) * 0x3000000000)

-- log 59: DEDUCED, unsafe.
/-- R210: the RESULT with which a command is rejected at submission. -/
def State.burnReject (s : State) (d : Nat) (c : BurnCmd) (rsv : Bool) : Option Nat :=
  if rsv then some 0x12
  else if 8 ≤ c.op ∧ c.op ≤ 13 ∧ c.slot ≠ 32 then some 0x11
  else if c.op = 6 ∨ c.op = 7 ∨ 13 < c.op ∨ s.wayUnfit d c.op c.way then some 0x10
  else if c.op < 6 ∧ (c.addr % 128 ≠ 0 ∨ c.len = 0 ∨ !rangeOfDie d c.addr (128 * c.len)) then some 0x10
  else if c.op = 8 ∧ (s.bit (LLS_CTRL d) LLS_CTRL_EN ∨ s.bit (LLS_STATUS d) LLS_STATUS_ACTIVE) then some 0x13
  else if 8 < c.op ∧ !s.bit (LLS_STATUS d) LLS_STATUS_TAGS_VALID then some 0x13
  else none

/-- R208, R210: the word v, with OP not 0, is written to LLS_BURN_CMD of a slot. With a nonzero RSV field the register keeps its
value and VER_ERR is set (R4), and the command ends with RESULT VERSION (R210). -/
def State.burnSubmit (s : State) (d slot : Nat) (v : Word) : State :=
  let st := LLS_BURN_STATUS d slot
  if s.bit st LLS_BURN_STATUS_BUSY then s.setf (LLS_STATUS d) LLS_STATUS_BUSY_ERR 1
  else
    let rsv := rsvBad (LLS_BURN_CMD d slot) v
    let c : BurnCmd :=
      { slot := slot, op := LLS_BURN_CMD_OP.get v, way := LLS_BURN_CMD_WAY.get v
        addr := s.fld (LLS_BURN_ADDR d slot) LLS_BURN_ADDR_ADDR, len := s.fld (LLS_BURN_LEN d slot) LLS_BURN_LEN_LEN
        cb := if LLS_BURN_CMD_CBV.get v = 1 then some (LLS_BURN_CMD_CB.get v) else none }
    let s := if rsv then s.setf (LLS_STATUS d) LLS_STATUS_VER_ERR 1 else s.put (LLS_BURN_CMD d slot) v
    let s := s.setf st LLS_BURN_STATUS_BUSY 1
    match s.burnReject d c rsv with
    | some r => s.burnFinish d slot r 0 c.cb
    | none => s.setBurn d { s.burn d with queue := (s.burn d).queue ++ [c] }

/-- R214: a write of 1 to CANCEL of a slot. A running range command ends when its current line is done. -/
def State.burnCancel (s : State) (d slot : Nat) : State :=
  if !s.bit (LLS_BURN_STATUS d slot) LLS_BURN_STATUS_BUSY then s
  else
    match (s.burn d).queue.find? (·.slot == slot) with
    | some c =>
      (s.setBurn d { s.burn d with queue := (s.burn d).queue.erase c }).burnFinish d slot 1 0 c.cb
    | none => s.setf (LLS_BURN_STATUS d slot) LLS_BURN_STATUS_CANCEL 1

/-- R208, R219: who may write offset o of the LLS_ block of die d: each requester its own slot, the Cox slot 32 and what lies
below the slots. -/
def llsMay (m : Master) (d o : Nat) : Bool :=
  (isCox m && (o < 0x1000 || 32 ≤ (o - 0x1000) / 0x20)) || (match m with | .tile t => t / 32 == d && 0x1000 ≤ o && (o - 0x1000) / 0x20 == t % 32 | _ => false)

/-- A write of v at offset o of the LLS_ block of die d (R202, R203, R208, R214, R216, R219). -/
def State.llsWrite (s : State) (m : Master) (d o : Nat) (v : Word) : State :=
  let a := LLS_CTRL d + o
  let slot := (o - 0x1000) / 0x20
  if !llsMay m d o then s.setf (LLS_STATUS d) LLS_STATUS_PERM_ERR 1
  else if 0x1000 ≤ o ∧ slot ≤ 32 ∧ o % 0x20 = 0x10 ∧ LLS_BURN_CMD_OP.get v ≠ 0 then s.burnSubmit d slot v
  else if rsvBad a v then s.setf (LLS_STATUS d) LLS_STATUS_VER_ERR 1
  else if o = 0 then
    if v.getLsbD 0 && !s.bit (LLS_STATUS d) LLS_STATUS_TAGS_VALID then s.setf (LLS_STATUS d) LLS_STATUS_SEQ_ERR 1
    else s.writeEnable (.store d) a LLS_CTRL_EN (LLS_STATUS d) LLS_STATUS_ACTIVE (v.getLsbD 0)
  else if 0x1000 ≤ o ∧ slot ≤ 32 ∧ o % 0x20 = 0x18 then
    let s := if LLS_BURN_STATUS_DONE.get v = 1 then s.setf a LLS_BURN_STATUS_DONE 0 else s
    if LLS_BURN_STATUS_CANCEL.get v = 1 then s.burnCancel d slot else s
  else s.put a v

/-- A write of the command register of a slot with the operation op in its OP field. -/
def State.burnWrite (s : State) (m : Master) (d : BitVec 3) (slot : BitVec 6) (op : Nat) (v : Word) : State :=
  if 32 < slot.toNat then s
  else s.llsWrite m d.toNat (0x1010 + 0x20 * slot.toNat) (LLS_BURN_CMD_OP.put v op)

def execLlsEn (m : Master) (d : BitVec 3) (v : Word) (s : State) : Outcome := .next (s.llsWrite m d.toNat 0 v)
def execClean (m : Master) (d : BitVec 3) (slot : BitVec 6) (v : Word) (s : State) : Outcome :=
  .next (s.burnWrite m d slot 1 v)
def execFlush (m : Master) (d : BitVec 3) (slot : BitVec 6) (v : Word) (s : State) : Outcome :=
  .next (s.burnWrite m d slot 2 v)
def execInvalidate (m : Master) (d : BitVec 3) (slot : BitVec 6) (v : Word) (s : State) : Outcome :=
  .next (s.burnWrite m d slot 3 v)
def execZero (m : Master) (d : BitVec 3) (slot : BitVec 6) (v : Word) (s : State) : Outcome :=
  .next (s.burnWrite m d slot 4 v)
def execPrefetch (m : Master) (d : BitVec 3) (slot : BitVec 6) (v : Word) (s : State) : Outcome :=
  .next (s.burnWrite m d slot 5 v)
def execInvalidateAll (m : Master) (d : BitVec 3) (slot : BitVec 6) (v : Word) (s : State) : Outcome :=
  .next (s.burnWrite m d slot 8 v)
def execWayToScratch (m : Master) (d : BitVec 3) (slot : BitVec 6) (v : Word) (s : State) : Outcome :=
  .next (s.burnWrite m d slot 9 v)
def execWayToCache (m : Master) (d : BitVec 3) (slot : BitVec 6) (v : Word) (s : State) : Outcome :=
  .next (s.burnWrite m d slot 10 v)
def execFlushAll (m : Master) (d : BitVec 3) (slot : BitVec 6) (v : Word) (s : State) : Outcome :=
  .next (s.burnWrite m d slot 11 v)
def execWayDisable (m : Master) (d : BitVec 3) (slot : BitVec 6) (v : Word) (s : State) : Outcome :=
  .next (s.burnWrite m d slot 12 v)
def execWayEnable (m : Master) (d : BitVec 3) (slot : BitVec 6) (v : Word) (s : State) : Outcome :=
  .next (s.burnWrite m d slot 13 v)
/-- BURNISHER_CANCEL: a write of 1 to STATUS.CANCEL of a slot. -/
def execBurnisherCancel (m : Master) (d : BitVec 3) (slot : BitVec 6) (s : State) : Outcome :=
  .next (if 32 < slot.toNat then s
    else s.llsWrite m d.toNat (0x1018 + 0x20 * slot.toNat) (LLS_BURN_STATUS_CANCEL.put 0 1))
/-- LOST_ENTRY_REMOVE: a write of 1 to V of lost-line entry e (R216). -/
def execLostEntryRemove (m : Master) (d : BitVec 3) (e : BitVec 6) (s : State) : Outcome :=
  .next (s.llsWrite m d.toNat (0x100 + 8 * e.toNat) (LLS_LOST_V.put 0 1))

-- log 57: DEDUCED, unsafe.
/-- BURNISHER_START (R209): the idle Burnisher takes the next command. A way operation whose way has meanwhile become
unsuitable ends with ARG (R217). -/
def execBurnisherStart (d : BitVec 3) (s : State) : Outcome :=
  let n := d.toNat
  let b := s.burn n
  .next (match b.running, b.queue with
    | none, c :: cs =>
      let s := s.setBurn n { running := none, queue := cs, lines := 0, lost := false }
      if 8 ≤ c.op && s.wayUnfit n c.op c.way then s.burnFinish n c.slot 0x10 0 c.cb
      else
        let s := s.setBurn n { running := some c, queue := cs, lines := 0, lost := false }
        let s := s.setf (LLS_BURN_STATUS n c.slot) LLS_BURN_STATUS_RUN 1
        if c.op = 9 ∨ c.op = 10 ∨ c.op = 12 then s.setWay n 0 c.way true else s
    | _, _ => s)

/-- A lost-page entry of die d, or a lost-line entry, whose range lies in n bytes from a is removed (R216, R374); a freed
page entry ends the fence of the die. -/
def State.unlistRange (s : State) (d a n : Nat) : State :=
  let s := (List.range 64).foldl (fun s e =>
    let l := s.fld (LLS_LOST d e) LLS_LOST_LINE * 128
    if s.bit (LLS_LOST d e) LLS_LOST_V && a ≤ l && l < a + n then s.setf (LLS_LOST d e) LLS_LOST_V 0 else s) s
  (List.range 16).foldl (fun s e =>
    let p := s.fld (RAS_LOSTPG d e) RAS_LOSTPG_PAGE * 65536
    if s.bit (RAS_LOSTPG d e) RAS_LOSTPG_V && a ≤ p && p + 65536 ≤ a + n then
      (s.setf (RAS_LOSTPG d e) RAS_LOSTPG_V 0).unfence d
    else s) s

/-- ZERO of one line; true when the write waits for a shadow slot (R355). -/
def State.zeroLine (s : State) (d a : Nat) : State × Bool :=
  if s.memDown (memOf a) then (s.loseLine d a, false)
  else if s.noSlot a then (s, true)
  else
    let s := (s.mirrorMark a).storeLine a 0
    (match s.hit d a with
      | some w => s.setLine (lineKey d a w) { valid := true, dirty := true, addr := a, data := 0, bad := 0 }
      | none => s, false)

def State.zeroLines (s : State) (d a : Nat) : Nat → State × Bool
  | 0 => (s, false)
  | n + 1 =>
    let r := s.zeroLine d a
    let q := State.zeroLines r.1 d (a + 128) n
    (q.1, r.2 || q.2)

/-- PREFETCH of one line: filled into an eligible way and touched (Table 8.2); errors reach no requester (R211). -/
def State.prefetchLine (s : State) (d a : Nat) : State :=
  let m := memOf a
  if (s.hit d a).isSome || s.homeDown d m || s.lineListed d a || s.pageListed d a then s
  else
    let ok := s.fillable m a
    let s := (s.readCodewords m 2 [a, a + 64]).1
    match s.fillWay d a with
    | some w => if ok then s.fill d w a (s.lineBytes a) false else s
    | none => s

/-- A write that the slice accepted for n lines from a still waits (R355, R373). -/
def State.waitsIn (s : State) (a n : Nat) : Bool := s.store.held.any fun h => a < h.addr + h.len && h.addr < a + 128 * n

-- log 57: DEDUCED, unsafe.
/-- The effect of operation op on n lines from a (Table 8.2); true when a line of a ZERO waits for a shadow slot, or a CLEAN or
FLUSH for a write accepted earlier (R211). -/
def State.burnRange (s : State) (d op a n : Nat) : State × Bool :=
  let keys := s.keysOf d fun _ l => l.valid && a ≤ l.addr && l.addr < a + 128 * n
  match op with
  | 1 => (keys.foldl (fun s k => s.writeBack d k) s, s.waitsIn a n)
  | 2 => (keys.foldl (fun s k => s.flushLine d k) s, s.waitsIn a n)
  | 3 => ((keys.foldl (fun s k => s.setLine k Line.invalid) s).unlistRange d a (128 * n), false)
  | 4 => (s.unlistRange d a (128 * n)).zeroLines d a n
  | _ => if s.bit (LLS_CTRL d) LLS_CTRL_EN then
      ((List.range n).foldl (fun s i => s.prefetchLine d (a + 128 * i)) s, false) else (s, false)

-- log 57: DEDUCED, unsafe; log 58: DEDUCED, unsafe.
/-- The effect of way operation op (Table 8.2, R206, R207, R217) and the lines it processed. -/
def State.burnWays (s : State) (d op w : Nat) : State × Nat :=
  let ways := ((List.range 16).filter fun w => !s.way d 16 w && !s.way d 32 w).length
  match op with
  | 8 =>
    let s := (s.keysOf d fun _ _ => true).foldl (fun s k => s.setLine k Line.invalid) s
    let s := { s with store := { s.store with trees := s.store.trees.filter fun q => q.1 / 65536 ≠ d } }
    (s.setf (LLS_STATUS d) LLS_STATUS_TAGS_VALID 1, 65536 * ways)
  | 9 =>
    let base := 0x030000000000 + d * 0x8000000 + w * 0x800000
    let s := ((s.cleanWay d w).clearMem base (base + 0x800000)).clearBad base 0x800000
    ((s.setWay d 16 w true).setWay d 0 w false, 65536)
  | 10 =>
    let s := (s.keysOf d fun k _ => k % 16 == w).foldl (fun s k => s.setLine k Line.invalid) s
    ((s.setWay d 16 w false).setWay d 0 w false, 65536)
  | 11 => ((s.keysOf d fun _ _ => true).foldl (fun s k => s.flushLine d k) s, 65536 * ways)
  | 12 => (s.disableWay d w, 65536)
  | _ =>
    let s := (s.keysOf d fun k _ => k % 16 == w).foldl (fun s k => s.setLine k Line.invalid) s
    (s.setWay d 32 w false, 65536)

-- log 57: DEDUCED, unsafe.
/-- BURNISHER_COMPLETE (R211, R213, R214): the running command takes its effect and ends; a range command that was
cancelled has processed `lines` lines. A command one of whose lines waits stays (R211, R355). -/
def execBurnisherComplete (d : BitVec 3) (lines : BitVec 32) (s : State) : Outcome :=
  let n := d.toNat
  .next (match (s.burn n).running with
    | none => s
    | some c =>
      let cancelled := c.op < 8 && s.bit (LLS_BURN_STATUS n c.slot) LLS_BURN_STATUS_CANCEL
      let k := if cancelled then min lines.toNat c.len else c.len
      let r := if c.op < 8 then s.burnRange n c.op c.addr k else let q := s.burnWays n c.op c.way; (q.1, false)
      if r.2 then s else
      let done := if c.op < 8 then k else (s.burnWays n c.op c.way).2
      let b := r.1.burn n
      let result := if cancelled then 1 else if b.lost then 2 else 0
      (r.1.setBurn n { b with running := none }).burnFinish n c.slot result done c.cb)

end Sys2Proof.Machine
end

