-- ==== Sys2Proof/Machine/Mirror.lean ====
section
/-!
DEFINITION. The mirror engine: pair frames (R345 to R349), checkpoints (R353 to R357), heartbeats and takeover (R358 to
R361), restores (R373) and journal mode (R364 to R366).
-/
namespace Sys2Proof.Machine

def State.mir (s : State) (f : Mirror → Mirror) : State := { s with mirror := f s.mirror }

-- log 88: DEDUCED, unsafe.
/-- A PAIR event (R358 to R361): STATUS holds TAKEOVER in bit 0 and CONSISTENT in bit 1, OBJECT the committed sequence of
a takeover, else the pair state. -/
def State.pairEvent (s : State) (status object : Nat) : State :=
  s.notify MIR_STATUS 0 (some ⟨8, status, 0, object⟩)

def State.setPstate (s : State) (n : Nat) : State := s.setf MIR_STATUS MIR_STATUS_PSTATE n

/-! ### The end of a checkpoint -/

/-- The drain of the engine ends when no checkpoint or interval is being sent (R367). -/
def State.mirSettle (s : State) : State :=
  if s.mirror.ckpt.isNone then s.endDrain .mirror MIR_CTRL MIR_CTRL_EN MIR_STATUS MIR_STATUS_ACTIVE else s

/-- FROZEN returns to CUR, and the checkpoint ends uncommitted (R347, R356, R367). -/
def State.dropCkpt (s : State) : State :=
  let m := s.mirror
  let cur := m.frozen.foldl (fun t q => SMap.set noFlag t q.1 true) m.cur
  (s.mir fun m => { m with cur := cur, frozen := [], shadow := [], ckpt := none, freezing := [] }).mirSettle

/-- A checkpoint that is too large, or that has a granule that cannot be read (R356, R372). -/
def State.withdrawCkpt (s : State) (limit : Bool) : State :=
  let s := s.dropCkpt
  let s := if limit then s.setf MIR_STATUS MIR_STATUS_OVERSIZE 1 else s
  if s.pstate = 0 then s
  else ((s.mir fun m => { m with oversized := true }).setPstate 4).pairEvent 0 4

/-! ### Restores (R373) -/

/-- The codewords of granule g that cannot be corrected. -/
def State.badWords (s : State) (g : Nat) : List Nat :=
  ((List.range 64).map fun i => 4096 * g + 64 * i).filter fun a => s.codeword a = 2

/-- The restore of granule g fails: its bad lines are listed, and the accesses that waited may be served. -/
def State.restoreFail (s : State) (g : Nat) : State :=
  let s := { s with store := { s.store with restores := s.store.restores.filter fun q => q.granule ≠ g } }
  let s := s.rasEvent (homeDie (4096 * g)) 0x17 2 0 0 (4096 * g)
  ((s.badWords g).map (· / 128 * 128)).eraseDups.foldl (fun s a => s.loseLine (homeDie a) a) s

/-- The restore requests that waited for a COMMIT are sent. -/
def State.sendRestores (s : State) : State :=
  (s.store.restores.filter fun q => !q.asked).foldl (fun s q =>
    let rs := s.store.restores.map fun r => if r.granule = q.granule then { r with asked := true, stroke := s.now } else r
    ({ s with store := { s.store with restores := rs } }).pairSend 7 [0, 4096 * q.granule]) s

def State.failRestores (s : State) : State := (s.store.restores.map (·.granule)).foldl (fun s g => s.restoreFail g) s

/-! ### Sending (R355, R356, R359) -/

/-- What a read of the engine ends with. -/
inductive MirRead where
  | data (v : BitVec 32768)
  /-- a line cannot be read (R372) -/
  | bad
  /-- held at its home (R373) -/
  | wait
  deriving DecidableEq, Repr

/-- The engine reads granule g at its home (R197, R199). -/
def State.mirRead (s : State) (g : Nat) : State × MirRead :=
  match s.memRead .mirror (4096 * g) 4096 with
  | (s, .ok v) => (s, .data (BitVec.ofNat 32768 v))
  | (s, .error (.held, _)) => (s, .wait)
  | (s, .error _) => (s, .bad)

/-- Granule g as it was frozen: its shadow copy where it has one (R355). -/
def State.frozenRead (s : State) (g : Nat) : State × MirRead :=
  match s.mirror.shadow.find? (·.1 == g) with
  | some (_, some v) => (s, .data v)
  | some (_, none) => (s, .bad)
  | none => s.mirRead g

-- log 86: DESIGN CHOICE, safe.
/-- The granule that is sent next: one with a waiting write, then one with a shadow copy, then the lowest. -/
def State.nextGranule (s : State) (c : Ckpt) : Option Nat :=
  match c.toSend.find? fun g => s.store.held.any fun h => h.addr / 4096 == g with
  | some g => some g
  | none =>
    match c.toSend.find? fun g => s.mirror.shadow.any (·.1 == g) with
    | some g => some g
    | none => c.toSend.head?

-- log 86: DESIGN CHOICE, safe.
/-- GRAN frames, and END after the last, while the pair link takes them. -/
def State.sendGranules (s : State) : Nat → State
  | 0 => s
  | n + 1 =>
    match s.mirror.ckpt with
    | none => s
    | some c =>
      if c.ended || !s.mirror.freezing.isEmpty || 512 ≤ s.mirror.link.unacked.length then s else
      match s.nextGranule c with
      | none => (s.mir fun m => { m with ckpt := some { c with ended := true } }).pairSend 4 [c.seq, c.count]
      | some g =>
        match s.frozenRead g with
        | (s, .bad) => s.withdrawCkpt false
        | (s, .wait) => s
        | (s, .data data) =>
          let c := { c with toSend := c.toSend.erase g, inFlight := c.inFlight ++ [g] }
          let s := s.mir fun m => { m with ckpt := some c, shadow := m.shadow.filter fun q => q.1 ≠ g }
          let s := s.pairSend 3 [c.seq * 2 ^ 32, 4096 * g, data.toNat]
          let s := s.wrap MIR_CNT_GRAN MIR_CNT_GRAN_VALUE 1 MIR_STATUS MIR_STATUS_GRAN_OVF
          s.sendGranules n

-- log 162: DESIGN CHOICE, safe.
/-- SYNC frames of the copy while the pair link takes them (R359). A granule that cannot be read is not sent and stays dirty
(R372). -/
def State.sendCopies (s : State) : Nat → State
  | 0 => s
  | n + 1 =>
    match s.mirror.copying with
    | [] => s
    | g :: r =>
      if 512 ≤ s.mirror.link.unacked.length then s
      else
        let next (s : State) : State := s.mir fun m => { m with copying := r }
        match s.mirRead g with
        | (s, .data v) => ((next s).pairSend 7 [0, 4096 * g, v.toNat]).sendCopies n
        | (s, .bad) => (next s).sendCopies n
        | (s, .wait) => s

-- log 86: DESIGN CHOICE, safe.
def State.mirSend (s : State) : State := (s.sendCopies 512).sendGranules 513

/-- The copy of SYNCING has been sent and acknowledged. -/
def State.copied (s : State) : Bool := s.mirror.copying.isEmpty && !s.mirror.link.unacked.any (·.typ == 7)

/-- R359: PAIRED once a checkpoint after the copy has committed in both directions. PAIR_JOIN completes. -/
def State.pairReady (s : State) : State :=
  if s.pstate = 2 ∧ s.mirror.okOut ∧ s.mirror.okIn then
    (s.setPstate 3).lopDone s.mirror.handle [3]
  else s

/-! ### Checkpoints and intervals -/

/-- The granules of region r. -/
def State.granulesOf (s : State) (r : Nat) : List Nat := (List.range (s.regLen r / 4096)).map fun i => s.regBase r / 4096 + i

-- log 85: DEDUCED, unsafe; log 89: DEDUCED, unsafe.
/-- A firing of KIND 0x2 (R354, R356): checkpoint or interval k starts, or is skipped. The engine counts k up from the ARG
of the first firing. -/
def State.mirrorEvent (s : State) (arg : Nat) : State :=
  let k := if s.mirror.jseq = 0 then arg else s.mirror.jseq + 1
  let s := s.mir fun m => { m with jseq := k }
  let deaf := s.pstate = 4 ∧ (!s.mirror.oversized ∨ s.pairUp.isEmpty)
  if s.pstate = 1 ∨ 5 ≤ s.pstate ∨ !s.bit MIR_CTRL MIR_CTRL_EN ∨ (s.pstate = 0 ∧ s.mirror.ring = []) then s
  else if deaf ∨ s.mirror.ckpt.isSome then s.stick MIR_CNT_SKIP MIR_CNT_SKIP_COUNT 1
  else
    let c : Ckpt := { seq := k, close := s.now, toSend := [], inFlight := [], count := 0, ended := false, synced := s.copied }
    s.mir fun m => { m with ckpt := some c, freezing := List.range 8 }

/-- All slices are frozen: the checkpoint is sent, or is oversized (R356). -/
def State.frozenAll (s : State) : State :=
  match s.mirror.ckpt with
  | none => s
  | some c =>
    let gs := s.mirror.frozen.map (·.1)
    if s.pstate = 0 then s.mir fun m => { m with ckpt := some { c with toSend := gs, count := gs.length } }
    else if (s.mirror.partnerP.getD 4 0).toNat / 4096 < gs.length then s.withdrawCkpt true
    else (s.mir fun m => { m with ckpt := some { c with toSend := gs, count := gs.length } }).mirSend

/-- LLS_FREEZE (R354): slice d moves CUR into FROZEN for its regions; a DIGEST region freezes whole (R366). -/
def execLlsFreeze (d : BitVec 3) (s : State) : Outcome :=
  let n := d.toNat
  .next (if !s.mirror.freezing.contains n then s else
    let here := (s.mirror.cur.filter fun q => homeDie (4096 * q.1) = n).map (·.1)
    let digest := ((List.range 256).filter fun r => s.regMode r = 4 ∧ homeDie (s.regBase r) = n).foldl (fun l r => l ++ s.granulesOf r) []
    let fz := (here ++ digest).foldl (fun t g => SMap.set noFlag t g true) s.mirror.frozen
    let cur := here.foldl (fun t g => SMap.set noFlag t g false) s.mirror.cur
    let s := s.mir fun m => { m with cur := cur, frozen := fz, freezing := m.freezing.erase n }
    if s.mirror.freezing.isEmpty then s.frozenAll else s)

/-! ### Receiving pair frames -/

def phPort : Fld := ⟨55, 1⟩
def phCoxUp : Fld := ⟨54, 1⟩
def phActv : Fld := ⟨53, 1⟩
def phState : Fld := ⟨49, 4⟩

/-- Growth fields of a pair header (Table 14.1). -/
def pairGrowth (h : Hdr) : Bool := (h.w0 &&& 0xF001E00000000000) != 0

def State.mirDrop (s : State) : State := s.stick MIR_CNT_DROP MIR_CNT_DROP_COUNT 1

/-- R356, R359: an acknowledged GRAN frame clears its FROZEN bit, an acknowledged SYNC frame of the copy both bits. -/
def State.pairAcked (s : State) (p : Pkt) : State :=
  let g := p.body.getD 1 0 / 4096
  if p.typ = 3 then
    s.mir fun m => { m with frozen := SMap.set noFlag m.frozen g false, ckpt := m.ckpt.map fun c => { c with inFlight := c.inFlight.erase g } }
  else if p.typ = 7 ∧ p.body.length = 3 ∧ s.pstate = 2 then
    s.mir fun m => { m with frozen := SMap.set noFlag m.frozen g false, cur := SMap.set noFlag m.cur g false }
  else s

/-- The pair port, 0 or 1, on which a packet was last sent (R324). -/
def State.lastPort (s : State) (p : Pkt) : Nat := (s.pairUp)[(p.psn + p.tries) % max 1 s.pairUp.length]?.getD 0

/-- A kept pair frame is sent again on the next up port (R322, R347). -/
def State.pairResend (s : State) (p : Pkt) : State :=
  let q : Pkt := { p with tries := p.tries + 1 }
  let s := s.mir fun m => { m with link := m.link.resent p s.now }
  if s.pairUp.isEmpty || s.pairMute then s else s.pairFrame (s.lastPort q) p.typ p.psn p.body

/-- Pair frames that waited for acknowledgements leave. -/
def State.pairRelease (s : State) : Nat → State
  | 0 => s
  | n + 1 =>
    match s.mirror.link.wait with
    | [] => s
    | (typ, body) :: r =>
      if 512 ≤ s.mirror.link.unacked.length then s
      else ((s.mir fun m => { m with link := { m.link with wait := r } }).pairSend typ body).pairRelease n

-- log 88: DEDUCED, unsafe.
/-- R361: what the partner's pair state does to this module's. -/
def State.hearState (s : State) (q : Nat) : State :=
  if s.pstate = 5 ∧ (q = 5 ∨ q = 7) then (s.setPstate 7).pairEvent 0 7
  else if q = 5 ∧ 2 ≤ s.pstate ∧ s.pstate ≤ 4 then
    let s := ((s.dropCkpt.setPstate 6).mir fun m => { m with cur := [], copying := [] }).pairEvent 0 6
    s.failRestores
  else s

/-- R346 to R348: a frame of TYPE typ arrives on pair port p; `grow`: its payload has a nonzero growth field. Answers whether
the row's own effect follows: the frame is not discarded and, where it consumes a PSN, it is accepted. -/
def State.pairRx (s : State) (p : Nat) (h : Hdr) (typ : Nat) (grow : Bool := false) : State × Bool :=
  if !s.pairPort p || (s.bit (MIR_PSTATUS p) MIR_PSTATUS_MISCABLED && typ != 2) then (s, false)
  else if grow || pairGrowth h || hTyp.get h.w0 != typ then (s.mirDrop, false)
  else
    let s := s.setf MIR_HEARD MIR_HEARD_PAIR (s.now.toNat % 2 ^ 32)
    let s := s.mir fun m => { m with partnerUp := phCoxUp.get h.w0 = 1, partnerActv := phActv.get h.w0 = 1
                                     serial := h.w3.toNat }
    let s := s.hearState (phState.get h.w0)
    let ack := h.w1.toNat / 2 ^ 32
    let r := s.mirror.link.ack ack h.w2
    let cleared := (r.2.map s.lastPort).foldl (fun l q => l.set q 0) s.mirror.portFail
    let s := s.mir fun m => { m with link := r.1, portFail := cleared }
    let s := r.2.foldl (fun s q => s.pairAcked q) s
    let s := (r.1.missing ack h.w2).foldl (fun s q => s.pairResend q) s
    let s := (s.pairRelease 512).mirSend
    if typ = 1 ∨ typ = 9 then (s, true)
    else
      match s.mirror.link.accept (h.w0.toNat % 2 ^ 32) with
      | none => (s, false)
      | some l =>
        let s := s.mir fun m => { m with link := l }
        let quiet := s.pstate = 6 ∨ s.pstate = 7
        let s := if l.owed < 8 ∨ quiet then s else match s.pairUp.head? with | some q => s.pairFrame q 9 0 [] | none => s
        (s, true)

/-- At a catch: an HB leaves on each up pair port but in UNPAIRED (R348), where a standalone ACK leaves instead when one
is owed (R321). -/
def State.pairCatch (s : State) : State :=
  if s.pstate ≠ 0 then s.pairUp.foldl (fun s p => s.pairFrame p 1 0 []) s
  else if 0 < s.mirror.link.owed then (match s.pairUp.head? with | some p => s.pairFrame p 9 0 [] | none => s)
  else s

/-- HB, PAIR_ACK: frames without a PSN (R348, R347). -/
def execHb (p : BitVec 1) (h : Hdr) (s : State) : Outcome := .next (s.pairRx p.toNat h 1).1
def execPairAck (p : BitVec 1) (h : Hdr) (s : State) : Outcome := .next (s.pairRx p.toNat h 9).1

/-- The fabric heartbeat context of the pair closes, unless a crew or a session across the fabric uses it. -/
def State.hbClose (s : State) : State :=
  let used (c : Nat) : Bool := (s.ctx c).hello || (s.ctx c).forCrew.isSome ||
    s.fabric.crews.any fun q => q.2.members.any fun m => m.ctx == some c
  let s := match s.mirror.hbCtx with | some c => if used c then s else s.setCtx c PeerCtx.closed | none => s
  s.mir fun m => { m with hbCtx := none }

/-- R349: both HELLO frames have been exchanged: the pair leaves JOINING, or PAIR_JOIN fails. -/
def State.joinCheck (s : State) : State :=
  let m := s.mirror
  let period := m.partnerPeriod
  if !(s.pstate = 1 ∧ m.helloSent ∧ m.helloHeard) then s else
  let own := (m.p.getD 0 0).toNat
  let his := (m.partnerP.getD 0 0).toNat
  if (own = 0 ∨ own = m.serial) ∧ (his = 0 ∨ his = s.fuses.serial) ∧ period = s.fld STK_PERIOD STK_PERIOD_PERIOD_NS then
    let gs := ((List.range 256).filter fun r => s.regMode r = 1).foldl (fun l r => l ++ s.granulesOf r) []
    let s := (s.setPstate 2).mir fun m => { m with copying := gs, okOut := false, okIn := false, oversized := false
                                                   cur := gs.foldl (fun t g => SMap.set noFlag t g true) m.cur }
    s.mirSend
  else
    let s := match m.entry with | some i => s.setf (STK_EVT_W3 i) STK_EVT_W3_STATE 0 | none => s
    let s := s.lopFail m.handle 1
    (s.setPstate 0).hbClose.mir fun m => { m with helloSent := false, helloHeard := false, images := [], entry := none, p := [] }

/-- A growth field of Table 14.4 is not zero (R3). -/
def joinRsv (ws : List Word) : Bool :=
  let w (k : Nat) : Word := ws.getD k 0
  field (w 1) 31 10 != 0 || field (w 3) 63 48 != 0 || field (w 5) 63 48 != 0 || field (w 7) 63 48 != 0 || field (w 9) 55 16 != 0

/-- PAIR_HELLO (R345, R349): the partner's parameters (Table 14.4) and stroke period. -/
def execPairHello (p : BitVec 1) (h : Hdr) (ws : List Word) (period : BitVec 17) (s : State) : Outcome :=
  let n := p.toNat
  .next (if s.pairPort n && !joinRsv ws && !pairGrowth h && hTyp.get h.w0 == 2 && phPort.get h.w0 != n then s.setf (MIR_PSTATUS n) MIR_PSTATUS_MISCABLED 1
    else
      let r := s.pairRx n h 2 (joinRsv ws)
      if !r.2 then r.1
      else (r.1.mir fun m =>
        { m with helloHeard := true, partnerP := ws, partnerPeriod := period.toNat }).joinCheck)

/-- The staged checkpoint is complete. -/
def Mirror.staged (m : Mirror) : Bool := m.stageEnd == some m.stage.length

/-- R357: the staged granules are applied and recorded in RCVD. -/
def State.applyStage (s : State) : State :=
  let s := s.mirror.stage.foldl (fun s q => (s.memWrite .mirror 0 (4096 * q.1) 4096 q.2.toNat).1) s
  let s := s.setf MIR_CKPT MIR_CKPT_RCVD s.mirror.stageSeq
  s.mir fun m => { m with stage := [], stageEnd := none, stageSeq := 0 }

/-- R357: the staged checkpoint is applied and COMMIT is sent. -/
def State.commitStage (s : State) : State :=
  let k := s.mirror.stageSeq
  ((s.applyStage.pairSend 5 [k]).mir fun m => { m with okIn := true }).pairReady

-- log 169: DESIGN CHOICE, unsafe.
/-- The staging area is for checkpoint seq: a checkpoint before it ends, applied where it is whole, else discarded (R357). -/
def State.stageFor (s : State) (seq : Nat) : State :=
  if s.mirror.stageSeq = seq then s
  else (if s.mirror.staged then s.commitStage else s).mir fun m => { m with stageSeq := seq, stage := [], stageEnd := none }

/-- GRAN (R357): the granule enters the staging area. -/
def execGran (p : BitVec 1) (h : Hdr) (seq : GranHead) (a : BitVec 48) (data : BitVec 32768) (s : State) : Outcome :=
  let r := s.pairRx p.toNat h 3 (seq.rsv != 0)
  .next (if !r.2 || r.1.pstate < 2 || 4 < r.1.pstate then r.1 else
    (r.1.stageFor seq.seq.toNat).mir fun m =>
      { m with stage := (m.stage.filter fun q => q.1 ≠ a.toNat / 4096) ++ [(a.toNat / 4096, data)] })

/-- END (R357): the checkpoint is whole once as many granules are staged. -/
def execEnd (p : BitVec 1) (h : Hdr) (seq count : BitVec 32) (s : State) : Outcome :=
  let r := s.pairRx p.toNat h 4
  .next (if !r.2 || r.1.pstate < 2 || 4 < r.1.pstate then r.1 else
    (r.1.stageFor seq.toNat).mir fun m => { m with stageEnd := some count.toNat })

/-- CHECKPOINT_APPLY_END (R357): the apply ends and COMMIT is sent. -/
def execCheckpointApplyEnd (s : State) : Outcome :=
  .next (if !s.mirror.staged || s.pstate < 2 || 4 < s.pstate then s else s.commitStage)

/-- COMMIT (R357): checkpoint k is committed at both modules. -/
def execCommit (p : BitVec 1) (h : Hdr) (seq : BitVec 32) (s : State) : Outcome :=
  let r := s.pairRx p.toNat h 5
  .next (if !r.2 then r.1 else
    let s := r.1
    match s.mirror.ckpt with
    | none => s
    | some c =>
      if c.seq ≠ seq.toNat ∨ !c.ended then s
      else
        let s := (s.setf MIR_CKPT MIR_CKPT_SENT c.seq).toCox MIR_CKPT c.seq
        let s := s.mir fun m => { m with ckpt := none, frozen := [], shadow := [], okOut := m.okOut || c.synced }
        let s := if s.pstate = 4 ∧ s.mirror.oversized then (s.setPstate 3).mir fun m => { m with oversized := false } else s
        s.sendRestores.pairReady.mirSettle)

/-- Two address ranges meet. -/
def meets (a n b k : Nat) : Bool := a < b + k && b < a + n

/-- R350: the range overlaps a region of this module or its staging, shadow or map area. -/
def State.regionMeets (s : State) (a n : Nat) : Bool :=
  (List.range 256).any (fun r => s.regMode r != 0 && meets a n (s.regBase r) (s.regLen r)) ||
  [3, 5, 7].any fun i => meets a n (s.mirror.p.getD i 0).toNat (s.mirror.p.getD (i + 1) 0).toNat

/-- REGION (R350): the partner declares or removes its region r, an entry of Table 14.5; an overlapping declaration is
refused. -/
def execRegion (p : BitVec 1) (h : Hdr) (r : BitVec 8) (lo hi : Word × Word) (s : State) : Outcome :=
  let q := s.pairRx p.toNat h 6
    (rsvBad (MIR_REG_W0 0) lo.1 || rsvBad (MIR_REG_W1 0) lo.2 || rsvBad (MIR_REG_W2 0) hi.1 || rsvBad (MIR_REG_W3 0) hi.2)
  let base := MIR_REG_W0_BASE.get lo.1
  let len := MIR_REG_W1_LEN.get lo.2
  .next (if !q.2 || q.1.pstate = 0 || 4 < q.1.pstate then q.1
    else if MIR_REG_W0_MODE.get lo.1 = 0 then q.1.mir fun m => { m with images := m.images.filter fun i => i.1 ≠ r.toNat }
    else if q.1.regionMeets base len then q.1
    else q.1.mir fun m => { m with images := (m.images.filter fun i => i.1 ≠ r.toNat) ++ [(r.toNat, base, len)] })

/-- SYNC (R359, R373): a granule for its address, or, without data, a restore request or the answer that has none. -/
def execSync (p : BitVec 1) (h : Hdr) (a : SyncHead) (data : Option (BitVec 32768)) (s : State) : Outcome :=
  let q := s.pairRx p.toNat h 7 (a.rsv != 0)
  let g := a.addr.toNat / 4096
  .next (if !q.2 || q.1.pstate < 2 || 4 < q.1.pstate then q.1 else
    let s := q.1
    let asked := s.store.restores.any fun r => r.granule == g && r.asked
    match data with
    | some v =>
      let s := (s.memWrite .mirror 0 (4096 * g) 4096 v.toNat).1
      if asked then
        let s := { s with store := { s.store with restores := s.store.restores.filter fun r => r.granule ≠ g } }
        s.rasEvent (homeDie (4096 * g)) 0x17 1 0 0 (4096 * g)
      else if s.pstate = 2 then s.mir fun m => { m with okIn := false } else s
    | none =>
      if asked then s.restoreFail g
      else
        let own := s.regionMode (4096 * g) == some 1
        let may := s.imageCovers (4096 * g) 1 ||
          (own && !SMap.get noFlag s.mirror.cur g && !SMap.get noFlag s.mirror.frozen g && s.mirror.ckpt.isNone)
        match if may then s.mirRead g else (s, .bad) with
        | (s, .data v) => s.pairSend 7 [0, 4096 * g, v.toNat]
        | (s, _) =>
          let s := if own then s.mir fun m => { m with cur := SMap.set noFlag m.cur g true } else s
          s.pairSend 7 [0, 4096 * g])

/-- RESTORE_TIMEOUT (R373): no answer within 8 strokes of the request. -/
def execRestoreTimeout (a : BitVec 48) (s : State) : Outcome :=
  let g := a.toNat / 4096
  .next (if s.store.restores.any fun r => r.granule == g && r.asked && 8 ≤ (s.now - r.stroke).toNat then s.restoreFail g else s)

/-! ### Ports, loss of the partner, takeover -/

-- log 87: DEDUCED, unsafe.
/-- R345, R315: pair port n goes DOWN (0), begins training (1) or has trained `lanes` lanes. A lost sequence restarts
(R347), and a module that joins sends its HELLO on it again. -/
def State.pairLink (s : State) (n what lanes : Nat) : State :=
  let tr := if 2 ≤ what then trainPortMode (s.fld (MIR_PCTRL n) MIR_PCTRL_MODE_MAX) lanes else (what, 0, 0)
  let st := tr.1
  let up := st = 2 ∨ st = 3
  if up ∧ !s.bit (MIR_PCTRL n) MIR_PCTRL_EN then s else
    let was := s.pairPort n
    let any := !s.pairUp.isEmpty
    let a := MIR_PSTATUS n
    let changed := s.fld a MIR_PSTATUS_STATE ≠ st
    let s := ((s.setf a MIR_PSTATUS_STATE st).setf a MIR_PSTATUS_MODE tr.2.1).setf a MIR_PSTATUS_LANES tr.2.2
    let s := if changed then s.setf a MIR_PSTATUS_LINK_CHG 1 else s
    if up then
      let s := if s.mirror.lost then
          let s := s.mir fun m => { m with lost := false, link := Link.init }
          if s.pstate = 1 ∧ s.mirror.helloSent then
            s.pairSend 2 (s.mirror.p.map BitVec.toNat ++ [s.fld STK_PERIOD STK_PERIOD_PERIOD_NS])
          else s
        else s
      if !was ∧ s.pstate = 4 then
        let gs := ((s.mirror.frozen.foldl (fun t q => SMap.set noFlag t q.1 true) s.mirror.cur)).map (·.1)
        ((s.setPstate 2).mir fun m => { m with copying := gs, okOut := false, okIn := false, oversized := false }).mirSend
      else s.mirSend
    else
      let s := s.setf a MIR_PSTATUS_MISCABLED 0
      if any ∧ s.pairUp.isEmpty ∧ s.pstate = 3 then ((s.setPstate 4).pairEvent 0 4).failRestores else s

-- log 146: DESIGN CHOICE, safe.
/-- PAIR_LINK_CHANGE: pair port p goes DOWN (0), begins training (1) or has trained `lanes` lanes (2); 3: it has met an
uncorrectable FEC codeword (PAIR_FEC, Table 15.4), whose frame R347 sends again. -/
def execPairLinkChange (p : BitVec 1) (what : BitVec 2) (lanes : BitVec 3) (s : State) : Outcome :=
  .next (if what.toNat = 3 then (if s.pairPort p.toNat then s.rasEvent 8 0x23 1 p.toNat 0 0 else s)
    else s.pairLink p.toNat what.toNat lanes.toNat)

/-- The drain of a pair port's enable is over: the port is down. -/
def State.pairSettle (s : State) (p : Nat) : State :=
  match s.drain? (.pairPort p) with
  | none => s
  | some _ => (s.pairLink p 0 0).endDrain (.pairPort p) (MIR_PCTRL p) MIR_PCTRL_EN (MIR_PSTATUS p) MIR_PSTATUS_ACTIVE

-- log 87: DEDUCED, unsafe.
/-- The sequence of the pair link enters LOST (R347): both ports go down and the checkpoint is not committed. -/
def State.pairLost (s : State) : State :=
  let s := [0, 1].foldl (fun s p =>
    if s.pairPort p then (s.setf (MIR_PSTATUS p) MIR_PSTATUS_STATE 0).setf (MIR_PSTATUS p) MIR_PSTATUS_LINK_CHG 1 else s) s
  let s := (s.mir fun m => { m with lost := true, link := Link.init }).dropCkpt
  if s.pstate = 3 then ((s.setPstate 4).pairEvent 0 4).failRestores else s

-- log 87: DEDUCED, unsafe.
/-- R347: the pair frame with this PSN has been unacknowledged for RTO, 2 strokes: it is sent again, or the link is lost
after 8 retransmissions; a port whose frames alone failed 8 times in a row goes DOWN. -/
def State.pairTimeout (s : State) (psn : Nat) : State :=
  match s.mirror.link.unacked.find? (·.psn == psn) with
  | none => s
  | some p =>
    if (s.now - p.sent).toNat < 2 then s
    else if s.pairUp.isEmpty ∨ 8 ≤ p.tries then s.pairLost
    else
      let q := s.lastPort p
      let k := s.mirror.portFail.getD q 0 + 1
      let s := s.mir fun m => { m with portFail := m.portFail.set q k }
      let s := if 8 ≤ k ∧ s.mirror.portFail.getD (1 - q) 0 = 0 ∧ s.pairUp.length = 2 then
          (((s.setf (MIR_PSTATUS q) MIR_PSTATUS_STATE 0).setf (MIR_PSTATUS q) MIR_PSTATUS_LINK_CHG 1)).mir fun m =>
            { m with portFail := m.portFail.set q 0 }
        else s
      s.pairResend p

-- log 88: DEDUCED, unsafe.
/-- R360: this module takes over its partner. -/
def State.takeover (s : State) : State :=
  let sync := s.pstate = 2
  let s := s.dropCkpt.setPstate 5
  let s := if s.mirror.staged then s.applyStage else s.mir fun m => { m with stage := [], stageEnd := none, stageSeq := 0 }
  let s := s.mir fun m => { m with taken := m.images, images := [], copying := [] }
  let s := (s.setf MIR_STATUS MIR_STATUS_TAKEOVER 1).setf MIR_STATUS MIR_STATUS_INCONSIST (if sync then 1 else s.fld MIR_STATUS MIR_STATUS_INCONSIST)
  let s := s.failRestores
  s.pairEvent (1 + (if sync then 0 else 2)) (s.fld MIR_CKPT MIR_CKPT_RCVD)

/-- A stroke number of 32 bits is 64 or more strokes old. -/
def State.old64 (s : State) (n : Nat) : Bool := 64 ≤ (s.now.toNat + 2 ^ 32 - n % 2 ^ 32) % 2 ^ 32

/-- PARTNER_LOST (R358): the pair ports have been silent for 64 strokes; the fabric heartbeat decides. -/
def execPartnerLost (s : State) : Outcome :=
  .next (if s.pstate < 2 ∨ 4 < s.pstate ∨ !s.old64 (s.fld MIR_HEARD MIR_HEARD_PAIR) then s
    else
      let silent := match s.mirror.hbCtx with | some c => (s.ctx c).state ≠ 1 || s.old64 (s.ctx c).heard | none => true
      if silent then s.takeover
      else if s.pstate = 4 then s
      else ((s.setPstate 4).pairEvent 0 4).failRestores)

/-! ### The enable -/

def mirMay (m : Master) (o : Nat) : Bool :=
  isCox m || (o == 0x20 && match m with | .tile _ => true | _ => false)

/-- A write of v at offset o of the MIR_ block (R367). -/
def State.mirWrite (s : State) (m : Master) (o : Nat) (v : Word) : State :=
  let a := MIR_CTRL + o
  if !mirMay m o then s.setf MIR_STATUS MIR_STATUS_PERM_ERR 1
  else if rsvBad a v then s.setf MIR_STATUS MIR_STATUS_VER_ERR 1
  else if o = 0 then
    (s.writeEnable .mirror MIR_CTRL MIR_CTRL_EN MIR_STATUS MIR_STATUS_ACTIVE (v.getLsbD 0)).mirSettle
  else if (o = 0x1000 ∨ o = 0x1100) then
    let p := (o - 0x1000) / 0x100
    if MIR_PCTRL_MODE_MAX.get v = 3 then s.setf MIR_STATUS MIR_STATUS_VER_ERR 1
    else
      let s := s.setf a MIR_PCTRL_MODE_MAX (MIR_PCTRL_MODE_MAX.get v)
      s.writeEnable (.pairPort p) a MIR_PCTRL_EN (MIR_PSTATUS p) MIR_PSTATUS_ACTIVE (v.getLsbD 0)
  else s.put a v

def execMirEn (m : Master) (v : Word) (s : State) : Outcome := .next (s.mirWrite m 0 v)

/-! ### Journal mode (R364 to R366) -/

/-- Runs of consecutive granules inside one region, at most 2^24 long: (region, first index, length). -/
def runsOf (s : State) : List Nat → List (Nat × Nat × Nat)
  | [] => []
  | g :: gs =>
    match s.regionAt (4096 * g), runsOf s gs with
    | none, rs => rs
    | some r, [] => [(r, g - s.regBase r / 4096, 1)]
    | some r, (q, i, n) :: rs =>
      let j := g - s.regBase r / 4096
      if q = r ∧ i = j + 1 ∧ n < 2 ^ 24 then (r, j, n + 1) :: rs else (r, j, 1) :: (q, i, n) :: rs

/-- Granules of an interval that have been read. -/
abbrev Granules := List (Nat × BitVec 32768)
def Granules.at (gs : Granules) (g : Nat) : Nat := match gs.find? (·.1 == g) with | some q => q.2.toNat | none => 0

/-- Granules read as they were frozen, in order: all of them, or how the first that is not read ends. -/
def State.frozenReads (s : State) : List Nat → State × Except MirRead Granules
  | [] => (s, .ok [])
  | g :: gs =>
    match s.frozenRead g with
    | (s, .data v) =>
      let r := State.frozenReads s gs
      (r.1, r.2.map fun l => (g, v) :: l)
    | (s, e) => (s, .error e)

/-- The bytes of region r in ascending address order. -/
def State.regionBytes (s : State) (data : Granules) (r : Nat) : List Byte :=
  (s.granulesOf r).foldl (fun l g => l ++ (List.range 4096).map fun i => BitVec.ofNat 8 (data.at g / 256 ^ i)) []

/-- The entries of a record as doublewords, with the granules each covers. -/
def State.journalEntries (s : State) (data : Granules) (gs : List Nat) : List (List Word × List Nat) :=
  let plain := gs.filter fun g => (s.regionAt (4096 * g)).any fun r => s.regMode r = 2 ∨ s.regMode r = 3
  let runs := (runsOf s plain).map fun q =>
    ([BitVec.ofNat 64 (q.1 * 2 ^ 56 + (q.2.2 - 1) * 2 ^ 32 + q.2.1)], (List.range q.2.2).map fun i => s.regBase q.1 / 4096 + q.2.1 + i)
  let digests := ((List.range 256).filter fun r => s.regMode r = 4).map fun r =>
    (BitVec.ofNat 64 (r * 2 ^ 56 + 0xFFFFFF * 2 ^ 32) :: Keccak.digestWords (s.regionBytes data r), s.granulesOf r)
  runs ++ digests

/-- The entries that fit in n bytes, in order. -/
def fitting (n : Nat) : List (List Word × List Nat) → List (List Word × List Nat)
  | [] => []
  | e :: es => if 8 * e.1.length ≤ n then e :: fitting (n - 8 * e.1.length) es else []

/-- Doublewords written into the ring from unit `head` on, wrapping at its end. -/
def State.ringWrite (s : State) (base len off : Nat) : List Word → State
  | [] => s
  | w :: ws => ((s.memWrite .mirror 0 (base + off % len) 8 w.toNat).1).ringWrite base len (off + 8) ws

-- log 89: DEDUCED, unsafe.
/-- A record of the interval closes in the journal ring with STATUS st; granules `back` stay dirty. -/
def State.journalClose (s : State) (c : Ckpt) (st : Nat) (data : Granules) (gs back : List Nat) : State :=
  let base := (s.mirror.ring.getD 0 0).toNat % 2 ^ 48
  let len := (s.mirror.ring.getD 1 0).toNat
  let units := len / 32
  let head := s.fld MIR_JRNL MIR_JRNL_HEAD
  let room := if units = 0 then 0 else (s.fld MIR_JRNL MIR_JRNL_TAIL + units - head % units + units - 1) % units * 32
  let all := s.journalEntries data gs
  let es := fitting (room - 32) all
  let st := if es.length < all.length then 1 else st
  let beyond := (all.drop es.length).foldl (fun l e => l ++ e.2) []
  let ws := es.foldl (fun l e => l ++ e.1) []
  let bytes := (32 + 8 * ws.length + 31) / 32 * 32
  let next := if units = 0 then 0 else (head + bytes / 32) % units
  let hd : List Word := [BitVec.ofNat 64 (c.seq % 2 ^ 32 * 2 ^ 32 + es.length), c.close, BitVec.ofNat 64 (st * 2 ^ 56),
    BitVec.ofNat 64 (32 * next)]
  let s := if room < 32 then s else (s.ringWrite base len (32 * head) (hd ++ ws)).setf MIR_JRNL MIR_JRNL_HEAD next
  let cur := (back ++ beyond).foldl (fun t g => SMap.set noFlag t g true) s.mirror.cur
  let s := s.mir fun m => { m with cur := cur, frozen := [], shadow := [], ckpt := none, freezing := [] }
  (s.toCox MIR_JRNL c.seq).mirSettle

/-- The crew member that STREAM region r names, where there is one that this module reaches (R365). -/
def State.streamPeer (s : State) (r : Nat) : Option Member :=
  let w3 := s.rd (MIR_REG_W3 r)
  let c := SMap.get (fun _ => Crew.none) s.fabric.crews (MIR_REG_W3_CREW.get w3)
  c.members.find? fun m => m.num == MIR_REG_W3_PEER.get w3 && (match m.ctx with | some x => (s.ctx x).state == 1 | none => false)

/-- R365: granule g of STREAM region r, with content v, is copied to its target: to the host, or to a crew member as PUT. -/
def State.streamGranule (s : State) (r g v : Nat) : State :=
  let off := 4096 * g - s.regBase r
  let w3 := s.rd (MIR_REG_W3 r)
  let s := s.wrap MIR_CNT_GRAN MIR_CNT_GRAN_VALUE 1 MIR_STATUS MIR_STATUS_GRAN_OVF
  if MIR_REG_W3_CT.get w3 = 1 then
    match s.streamPeer r with
    | some m =>
      let c := SMap.get (fun _ => Crew.none) s.fabric.crews (MIR_REG_W3_CREW.get w3)
      let q : CollPkt := { crew := m.crew, mem := field (c.p.getD 1 0) 43 30, kind := 3, phase := 0, opid := 0, off := off, op := 7, red := 0, fmt := 0, oplen := 4096
                           flags := 0, n := 4096, data := v }
      match m.ctx with | some c => s.ectSend c 4 q.body | none => s
    | none => s
  else s.hostPost (s.fld (MIR_REG_W2 r) MIR_REG_W2_TARGET + off) 4096 v

-- log 161: DESIGN CHOICE, unsafe.
/-- R310: after the last posted write of an interval a zero-length read of its last address leaves. -/
def State.lastRead (s : State) (targets : List Nat) : State :=
  match targets.getLast? with | some a => s.emit (.hostRead (s.busAddr (a + 4095)) 0) | none => s

-- log 89: DEDUCED, unsafe.
/-- JOURNAL_RECORD (R364, R365): every slice is frozen, the copies of the interval end (those of the granules `failed` did
not reach their target), and its record is written. An interval with a granule that cannot be read is withdrawn (R372). -/
def execJournalRecord (failed : List (BitVec 36)) (s : State) : Outcome :=
  .next (match s.mirror.ckpt with
    | none => s
    | some c =>
      if s.pstate ≠ 0 ∨ !s.mirror.freezing.isEmpty then s
      else
        let stream := c.toSend.filter fun g => (s.regionAt (4096 * g)).any fun r => s.regMode r = 3
        let digest := c.toSend.filter fun g => (s.regionAt (4096 * g)).any fun r => s.regMode r = 4
        match s.frozenReads (stream ++ digest) with
        | (_, .error .wait) => s
        | (s, .error _) => s.withdrawCkpt false
        | (s, .ok data) =>
          let toHost (g : Nat) : Bool := (s.regionAt (4096 * g)).any fun r => MIR_REG_W3_CT.get (s.rd (MIR_REG_W3 r)) = 0
          let lost (g : Nat) : Bool :=
            if toHost g then s.hostDown else (s.regionAt (4096 * g)).any fun r => (s.streamPeer r).isNone
          let bad := stream.filter fun g => failed.any (·.toNat == g) || lost g
          let sent := stream.filter fun g => !bad.contains g
          let s := sent.foldl (fun s g =>
            match s.regionAt (4096 * g) with | some r => s.streamGranule r g (data.at g) | none => s) s
          let s := s.lastRead ((sent.filter toHost).filterMap fun g =>
            (s.regionAt (4096 * g)).map fun r => s.fld (MIR_REG_W2 r) MIR_REG_W2_TARGET + (4096 * g - s.regBase r))
          s.journalClose c (if bad = [] then 0 else 3) data c.toSend bad)

/-- MIR_DRAIN_LIMIT (R367): work left at 64 strokes: the checkpoint is not committed, or the record is ABORTED_DISABLE. -/
def execMirDrainLimit (s : State) : Outcome :=
  .next (if !s.drainExpired .mirror 64 then s else
    match s.mirror.ckpt with
    | none => s.mirSettle
    | some c => if s.pstate = 0 then s.journalClose c 2 [] [] (s.mirror.frozen.map (·.1)) else s.dropCkpt)

end Sys2Proof.Machine
end

