-- ==== Sys2Proof/Machine/Mover.lean ====
section
/-!
DEFINITION. The data mover of a tile (R172 to R183).
-/
namespace Sys2Proof.Machine

/-! ### Descriptor fields (Tables 7.2 and 7.4) -/

abbrev Words := List Word
def Words.w (ws : Words) (i : Nat) : Word := ws.getD i 0
def dmOp (ws : Words) : Nat := field (ws.w 0) 55 52
def dmFmt (ws : Words) : Nat := field (ws.w 0) 51 47
def dmRed (ws : Words) : Nat := field (ws.w 0) 46 44
def dmIrq (ws : Words) : Bool := (ws.w 0).getLsbD 43
def dmFence (ws : Words) : Bool := (ws.w 0).getLsbD 42
def dmEsz (ws : Words) : Nat := field (ws.w 0) 35 32
def dmStart (ws : Words) : Nat := field (ws.w 0) 31 0
def dmSrc (ws : Words) : Nat := (ws.w 1).toNat
def dmDst (ws : Words) : Nat := (ws.w 2).toNat
def dmCount (ws : Words) : Nat := field (ws.w 3) 63 32
def dmSize (ws : Words) : Nat := field (ws.w 3) 31 0
def dmSstride (ws : Words) : Int := ((ws.w 4).extractLsb' 32 32).toInt
def dmDstride (ws : Words) : Int := ((ws.w 4).extractLsb' 0 32).toInt
def dmAux (ws : Words) : Nat := (ws.w 5).toNat
def dmCrec (ws : Words) : Nat := field (ws.w 6) 47 0
def dmCbv (ws : Words) : Bool := (ws.w 7).getLsbD 63
def dmCb (ws : Words) : Nat := field (ws.w 7) 62 49
def dmRbv (ws : Words) : Bool := (ws.w 7).getLsbD 48
def dmRb (ws : Words) : Nat := field (ws.w 7) 47 34
def dmGbv (ws : Words) : Bool := (ws.w 7).getLsbD 33
def dmGb (ws : Words) : Nat := field (ws.w 7) 32 19
def rdFirst (ws : Words) : Nat := field (ws.w 5) 63 56
def rdStep (ws : Words) : Nat := field (ws.w 5) 55 48
def rdN (ws : Words) : Nat := field (ws.w 5) 47 40
def rdStage (ws : Words) : Nat := field (ws.w 5) 22 0

/-- L of R180: levels of a tree over n + 1 members. -/
def rdLevels (ws : Words) : Nat := treeDepth (rdN ws + 1)

/-- The posting tile's position, if it is a member. -/
def rdPos (ws : Words) (t : Nat) : Option Nat :=
  if t < rdFirst ws then none
  else if rdStep ws = 0 then (if t = rdFirst ws then some 0 else none)
  else if (t - rdFirst ws) % rdStep ws = 0 ∧ (t - rdFirst ws) / rdStep ws ≤ rdN ws then some ((t - rdFirst ws) / rdStep ws)
  else none

/-- The conditions of R180 at the post. -/
def reduceOk (ws : Words) (t : Nat) : Bool :=
  let f := dmFmt ws
  let e := fmtW f / 8
  f < 6 && dmSize ws % e == 0 && 1 ≤ dmSize ws && dmSize ws ≤ 65536 && dmDst ws % e == 0 &&
  (rdStep ws != 0 || rdN ws == 0) && rdFirst ws + rdN ws * rdStep ws ≤ 255 && (rdPos ws t).isSome &&
  rdStage ws + rdLevels ws * dmSize ws ≤ 0x600000 && rdStage ws % 128 == 0 && dmCount ws == 1 && dmRed ws < 3

/-- R175 step 2: the version error of the data mover. -/
def dmVersion (ws : Words) : Bool :=
  field (ws.w 0) 63 60 != 0 || field (ws.w 0) 59 56 != 0 || field (ws.w 0) 41 36 != 0 || field (ws.w 6) 63 48 != 0 ||
  field (ws.w 7) 18 0 != 0 || 24 ≤ dmFmt ws || (dmOp ws == 5 && field (ws.w 5) 39 23 != 0)

/-- R175 step 3. -/
def dmMalformed (ws : Words) (t : Nat) : Bool :=
  let op := dmOp ws
  let idx := op == 1 || op == 2
  5 < op || (op != 5 && (dmFmt ws != 0 || dmRed ws != 0)) || dmCount ws == 0 || dmCount ws < dmStart ws ||
  (if idx then 12 < dmEsz ws || dmSize ws != 0 || dmAux ws % 4 != 0 || 2 ^ 48 ≤ dmAux ws
   else dmEsz ws != 0 || dmSize ws == 0 || 16777216 < dmSize ws || (op != 5 && dmAux ws != 0)) ||
  (op == 5 && !reduceOk ws t)

/-! ### The post (R174, R175) -/

inductive PostRes where
  | exc (code sub : Nat) (tval : Nat)
  | ok (ws : Words) (crec : Nat)
  deriving DecidableEq, Repr

/-- An access of n bytes checked as a scalar one that must lie in the own populated store: its device address. -/
def State.ownAccess (s : State) (t : Nat) (k : Acc) (va n : Nat) : Except AccFail Nat :=
  match s.access t k va n with
  | .error e => .error e
  | .ok ps =>
    match ps.find? fun p => !inStore t p.1 p.2 with
    | some _ => .error ⟨accCode k, 0, va⟩
    | none => .ok (match ps with | p :: _ => p.1 | [] => 0)

def State.postCheck (s : State) (t va : Nat) : State × PostRes :=
  match s.ownAccess t .load va 64 with
  | .error e => (s, .exc e.code e.sub e.addr)
  | .ok a =>
    if va % 64 ≠ 0 then (s, .exc exDescriptor 2 va)
    else match s.storeRead t a 64 with
      | (s, .error _) => (s, .exc exMemUncorr 0 va)
      | (s, .ok v) =>
        let ws : Words := (List.range 8).map fun i => BitVec.ofNat 64 (v / 2 ^ (64 * i))
        if dmVersion ws then (s, .exc exDescriptor 1 va)
        else if dmMalformed ws t then (s, .exc exDescriptor 0 va)
        else
          let c := dmCrec ws
          let rec_ := if c = 0 then Except.ok 0 else s.ownAccess t .store c 16
          match rec_ with
          | .error e => (s, .exc e.code e.sub e.addr)
          | .ok cd =>
            if c % 16 ≠ 0 then (s, .exc exDescriptor 2 va)
            else
              let u := (s.tile t).user
              let chk := [(dmCbv ws, dmCb ws), (dmRbv ws, dmRb ws), (dmGbv ws, dmGb ws)].find? fun p =>
                p.1 && (s.bkRange t u p.2).isSome
              match chk with
              | some p => (s, .exc exBuckleRange ((s.bkRange t u p.2).getD 0) p.2)
              | none => (s, .ok ws cd)

def allOnes : Word := 0xFFFFFFFFFFFFFFFF

-- log 21: DEDUCED, safe.
/-- dmpost of a descriptor whose OP is `op`; a good descriptor of another OP is another command of the table (log 21). -/
def dmpost (op : Nat) (t : BitVec 8) (rd rs1 : BitVec 5) (nb : Bool) (s : State) : Outcome :=
  onTile t [.s rs1.toNat] s fun n x =>
    match s.postCheck n (x.rs rs1.toNat).toNat with
    | (s', .exc c k v) => s'.exc n c k (BitVec.ofNat 64 v)
    | (s', .ok ws cd) =>
      if dmOp ws ≠ op then s
      else if !s'.bit (TIL_DM_CTRL n) TIL_DM_CTRL_EN then s'.finS n rd.toNat allOnes
      else if 64 ≤ x.dmQueue.length + x.dmSlots.length then (if nb then s'.finS n rd.toNat allOnes else s')
      else
        let k := s'.fld (TIL_DM_STATUS n) TIL_DM_STATUS_TICKET
        let s' := s'.setf (TIL_DM_STATUS n) TIL_DM_STATUS_TICKET (k + 1)
        let y := s'.tile n
        let e : DmEntry := { words := ws, ticket := k, user := x.user, crec := cd }
        (s'.setTile n { y with dmQueue := y.dmQueue ++ [e] }).finS n rd.toNat (BitVec.ofNat 64 k)

def execCopy (t : BitVec 8) (rd rs1 : BitVec 5) (nb : Bool) (s : State) : Outcome := dmpost 0 t rd rs1 nb s
def execGather (t : BitVec 8) (rd rs1 : BitVec 5) (nb : Bool) (s : State) : Outcome := dmpost 1 t rd rs1 nb s
def execScatter (t : BitVec 8) (rd rs1 : BitVec 5) (nb : Bool) (s : State) : Outcome := dmpost 2 t rd rs1 nb s
def execPut (t : BitVec 8) (rd rs1 : BitVec 5) (nb : Bool) (s : State) : Outcome := dmpost 3 t rd rs1 nb s
def execGet (t : BitVec 8) (rd rs1 : BitVec 5) (nb : Bool) (s : State) : Outcome := dmpost 4 t rd rs1 nb s
def execReducePut (t : BitVec 8) (rd rs1 : BitVec 5) (nb : Bool) (s : State) : Outcome := dmpost 5 t rd rs1 nb s

def execDmstat (t : BitVec 8) (rd : BitVec 5) (s : State) : Outcome :=
  onTile t [] s fun n x => s.finS n rd.toNat (BitVec.ofNat 64 (x.dmQueue.length + x.dmSlots.length))

/-! ### Units (R177, R178) -/

/-- Pieces of n bytes at va that end at 64 KiB boundaries; fuel is at least their number. -/
def pagePieces : Nat → Nat → Nat → List (Nat × Nat)
  | 0, _, _ => []
  | f + 1, va, n => if n = 0 then [] else let k := min n (65536 - va % 65536); (va, k) :: pagePieces f (va + k) (n - k)

/-- Which classes a side may reach (Table 7.3): everything COPY names, the own store, any populated store. -/
inductive Side where
  | any | own | window
  deriving DecidableEq, Repr

/-- A failing unit: status of Table 7.7, cause, subcode, address. -/
abbrev UnitFail := Nat × Nat × Nat × Nat

/-- One piece of a side: its device address, or the fault. -/
def State.dmPiece (s : State) (t : Nat) (user : Bool) (side : Side) (k : Acc) (va n : Nat) : Except UnitFail Nat :=
  let sub := if k = .store then 1 else 0
  match s.translate t user k va with
  | .error e => .error (1, e, sub, va)
  | .ok a =>
    let bad : Except UnitFail Nat := .error (1, accCode k, sub, va)
    match regionOf a with
    | .store u =>
      if !inStore u a n then bad
      else if side = .window ∨ u = t then .ok a else bad
    | .ctl => if user then .error (1, permCode k, sub, va) else bad
    | .hbm _ => if side = .any then .ok a else bad
    | .bulk _ => if side = .any then .ok a else bad
    | .scratch d w => if side = .any ∧ s.scratchOk d w then .ok a else bad
    | .host => if side = .any then (if s.hostDown then .error (4, 0, 0, 0) else .ok a) else bad
    | _ => bad

/-- Every piece of a side checked, in address order: (device address, bytes, virtual address). -/
def State.dmSide (s : State) (t : Nat) (user : Bool) (side : Side) (k : Acc) :
    List (Nat × Nat) → Except UnitFail (List (Nat × Nat × Nat))
  | [] => .ok []
  | (va, n) :: ps =>
    match s.dmPiece t user side k va n with
    | .error e => .error e
    | .ok a => match State.dmSide s t user side k ps with
      | .error e => .error e
      | .ok qs => .ok ((a, n, va) :: qs)

/-- What a unit's read ends with. -/
inductive UnitRead where
  | data (v : Nat)
  | fail (f : UnitFail)
  /-- held at its home, or waiting for the host's completion -/
  | wait
  deriving DecidableEq, Repr

def isHost (a : Nat) : Bool := match regionOf a with | .host => true | _ => false

/-- The requester number of a descriptor of tile t at its home. -/
def dmWho (t ticket : Nat) : Nat := t * 2 ^ 32 + ticket

/-- The pieces are read in order; bytes of the outbound window come from `host`, the data of the host's completions. A piece
of a tile that is being moved waits (R196). -/
def State.dmRead (s : State) (die : Nat) (host : Option Nat) (off : Nat) : List (Nat × Nat × Nat) → State × UnitRead
  | [] => (s, .data 0)
  | (a, n, va) :: ps =>
    let got :=
      if !s.reach die (dieOf a) then (s, .error (.uncorr, a))
      else if s.holds die (dieOf a) then (s, .error (.held, a))
      else match regionOf a with
      | .store u => if s.stilled u then (s, .error (.held, a)) else s.storeRead u a n
      | .host => (s, match host with | some v => .ok (v / 256 ^ off % 256 ^ n) | none => .error (.held, a))
      | _ => s.memRead .dm a n
    match got with
    | (s, .error (.held, _)) => (s, .wait)
    | (s, .error (.uncorr, b)) => (s, .fail (2, exMemUncorr, 0, va + (b - a)))
    | (s, .error (.access, b)) => (s, .fail (1, exLoadAccess, 0, va + (b - a)))
    | (s, .ok v) =>
      match State.dmRead s die host (off + if isHost a then n else 0) ps with
      | (s, .data w) => (s, .data (v + w * 256 ^ n))
      | r => r

/-- What a unit's writes end with. -/
inductive UnitWrite where
  | done
  | fail (f : UnitFail)
  /-- a piece is held at its home; none is written -/
  | wait
  deriving DecidableEq, Repr

/-- One piece is written for requester `who`. -/
def State.dmPut (s : State) (die who a n va v : Nat) : State × UnitWrite :=
  if !s.reach die (dieOf a) then (s.rasEvent die 0x14 2 0 0 a, .fail (2, exMemUncorr, 1, va))
  else if s.holds die (dieOf a) then (s, .wait)
  else
    let r : State × Option (MemFail × Nat) := match regionOf a with
      | .store u => if s.stilled u then (s, some (.held, a)) else s.storeWriteTold a n v
      | .host => (s.hostPost a n v, none)
      | _ => s.memWrite .dm who a n v
    (r.1, match r.2 with
      | none => .done
      | some (.held, _) => .wait
      | some (.uncorr, b) => .fail (2, exMemUncorr, 1, va + (b - a))
      | some (.access, b) => .fail (1, exStoreAccess, 1, va + (b - a)))

/-- The pieces are written in order up to one that is not performed: that piece, and its value. -/
def State.dmWriteEach (s : State) (die who v : Nat) : List (Nat × Nat × Nat) → State × Option (Nat × Nat × Nat × Nat)
  | [] => (s, none)
  | (a, n, va) :: ps =>
    match s.dmPut die who a n va (v % 256 ^ n) with
    | (s, .done) => State.dmWriteEach s die who (v / 256 ^ n) ps
    | _ => (s, some (a, n, va, v % 256 ^ n))

/-- R177: the pieces of a unit are all written, or none, the refused piece alone having been tried. -/
def State.dmWrite (s : State) (die who v : Nat) (ps : List (Nat × Nat × Nat)) : State × UnitWrite :=
  match s.dmWriteEach die who v ps with
  | (s, none) => (s, .done)
  | (_, some (a, n, va, w)) => s.dmPut die who a n va w

/-- Source and destination of unit i: virtual addresses and bytes. Index entries are given. -/
def unitAddrs (ws : Words) (i idx : Nat) : Nat × Nat × Nat :=
  let e : Nat := 2 ^ dmEsz ws
  let at_ (b : Nat) (k : Int) : Nat := (((b : Int) + k) % 2 ^ 64).toNat
  match dmOp ws with
  | 1 => (at_ (dmSrc ws) ((idx * e : Nat) : Int), at_ (dmDst ws) ((i * e : Nat) : Int), e)
  | 2 => (at_ (dmSrc ws) ((i * e : Nat) : Int), at_ (dmDst ws) ((idx * e : Nat) : Int), e)
  | _ => (at_ (dmSrc ws) (i * dmSstride ws), at_ (dmDst ws) (i * dmDstride ws), dmSize ws)

def srcSide (op : Nat) : Side := match op with | 0 => .any | 1 => .any | 4 => .window | _ => .own
def dstSide (op : Nat) : Side := match op with | 0 => .any | 2 => .any | 3 => .window | _ => .own

/-- A unit ends performed (bytes written, and the last address it wrote in the outbound window), failed, or waiting. -/
inductive UnitRes where
  | done (bytes : Nat) (host : Option Nat)
  | fail (f : UnitFail)
  | wait
  deriving DecidableEq, Repr

/-- The index entry of unit i (R177): 0 for operations without an index array. -/
def State.unitIndex (s : State) (t : Nat) (e : DmEntry) (i : Nat) : State × Except UnitFail Nat :=
  if dmOp e.words = 1 ∨ dmOp e.words = 2 then
    let va := dmAux e.words + 4 * i
    match s.dmPiece t e.user .own .load va 4 with
    | .error (st, c, _, a) => (s, .error (st, c, 4, a))
    | .ok a => match s.storeRead t a 4 with
      | (s, .ok v) => (s, .ok v)
      | (s, .error _) => (s, .error (2, exMemUncorr, 4, va))
  else (s, .ok 0)

-- log 53: DEDUCED, unsafe.
/-- Unit i of a descriptor, translated and checked in full before any byte of it is written. -/
def State.dmUnit (s : State) (t : Nat) (e : DmEntry) (i : Nat) (host : Option Nat) : State × UnitRes :=
  match s.unitIndex t e i with
  | (s, .error f) => (s, .fail f)
  | (s, .ok idx) =>
    let u := unitAddrs e.words i idx
    let op := dmOp e.words
    match s.dmSide t e.user (srcSide op) .load (pagePieces (u.2.2 / 65536 + 2) u.1 u.2.2),
        s.dmSide t e.user (dstSide op) .store (pagePieces (u.2.2 / 65536 + 2) u.2.1 u.2.2) with
    | .error f, _ => (s, .fail f)
    | _, .error f => (s, .fail f)
    | .ok src, .ok dst =>
      match s.dmRead (t / 32) host 0 src with
      | (s, .wait) => (s, .wait)
      | (s, .fail f) => (s, .fail f)
      | (s, .data v) =>
        match s.dmWrite (t / 32) (dmWho t e.ticket) v dst with
        | (s, .fail f) => (s, .fail f)
        | (s, .wait) => (s, .wait)
        | (s, .done) => (s, .done u.2.2 ((dst.filter fun q => isHost q.1).getLast?.map fun q => q.1 + q.2.1 - 1))

/-! ### Slots and completion -/

def State.slot (s : State) (t k : Nat) : Option DmSlot := (s.tile t).dmSlots.find? fun q => q.entry.ticket == k
def State.putSlot (s : State) (t : Nat) (q : DmSlot) : State :=
  let x := s.tile t
  s.setTile t { x with dmSlots := x.dmSlots.map fun r => if r.entry.ticket = q.entry.ticket then q else r }

/-- R179: descriptor e of tile t completes with a status; `index` is the first unit not performed. -/
def State.dmFinish (s : State) (t : Nat) (e : DmEntry) (status cause sub flags index addr : Nat) : State :=
  let ws := e.words
  let s := if dmRbv ws ∧ status = 0 then s.bkAddFor t (dmRb ws) 1 else s
  let s := if e.crec = 0 then s
    else
      let lo := status * 2 ^ 56 + cause * 2 ^ 48 + sub * 2 ^ 40 + flags * 2 ^ 35 + index
      let hi := e.ticket % 2 ^ 16 * 2 ^ 48 + addr % 2 ^ 48
      s.storeWrite e.crec 16 (lo + hi * 2 ^ 64)
  let s := if dmCbv ws then s.bkAddFor t (dmCb ws) 1 else s
  let s := if dmIrq ws then s.setf (TIL_DM_STATUS t) TIL_DM_STATUS_IRQ 1 else s
  let s := s.wrap (TIL_DM_CNT_DESC t) TIL_DM_CNT_DESC_COUNT 1 (TIL_DM_STATUS t) TIL_DM_STATUS_DESC_OVF
  let s := (s.bkWithdraw fun w => w == .gate t e.ticket).unholdAll .dm (dmWho t e.ticket)
  let s := { s with links := { s.links with done := s.links.done.filter fun w => w ≠ WaitWho.gate t e.ticket } }
  let x := s.tile t
  (s.setTile t { x with dmSlots := x.dmSlots.filter (fun q => q.entry.ticket ≠ e.ticket)
                        dmQueue := x.dmQueue.filter fun q => q.ticket ≠ e.ticket }).moverSettle t

def State.countBytes (s : State) (t n : Nat) : State :=
  s.wrap (TIL_DM_CNT_BYTES t) TIL_DM_CNT_BYTES_COUNT n (TIL_DM_STATUS t) TIL_DM_STATUS_BYTES_OVF

/-- A descriptor that must end with a status does so; one that wrote through the outbound window first waits for the
zero-length read of R310. -/
def State.dmEnd (s : State) (t : Nat) (q : DmSlot) (st c sub index a : Nat) : State :=
  if q.host = none then s.dmFinish t q.entry st c sub 0 index a
  else s.putSlot t { q with ending := some (st, c, sub, index, a), asked := 0, answered := 0, brought := 0 }

-- log 53: DEDUCED, unsafe.
/-- Units of an active descriptor from `next` on, at most `fuel` of them; ends it at a fault. The units stop at one that must
wait. -/
def State.dmRun (s : State) (t k : Nat) (host : Option Nat) : Nat → State
  | 0 => s
  | fuel + 1 =>
    match s.slot t k with
    | none => s
    | some q =>
      if q.gated ∨ q.ending.isSome ∨ dmCount q.entry.words ≤ q.next then s
      else match s.dmUnit t q.entry q.next host with
        | (s, .wait) => s
        | (s, .fail (st, c, sub, a)) => s.dmEnd t q st c sub q.next a
        | (s, .done n h) =>
          let mark := match h with | some a => some ((q.host.map (·.1)).getD q.next, a) | none => q.host
          State.dmRun ((s.countBytes t n).putSlot t { q with next := q.next + 1, host := mark, asked := 0, answered := 0, brought := 0 })
            t k none fuel

/-- The buckles of a completion can take their adds: no earlier operation of the tile precedes them on its way (R193), and no
home of theirs is being moved (R196). -/
def State.bkReady (s : State) (t : Nat) (ws : Words) : Bool :=
  [(dmRbv ws, dmRb ws), (dmCbv ws, dmCb ws)].all fun p => !p.1 || (!s.bkBehind t p.2 && !s.moving (p.2 / 64))

/-- A descriptor whose units are all performed completes; one that wrote through the outbound window waits for the
zero-length read of R310. -/
def State.dmDone (s : State) (t k : Nat) : State :=
  match s.slot t k with
  | none => s
  | some q =>
    if dmCount q.entry.words ≤ q.next ∧ q.host = none ∧ s.bkReady t q.entry.words then s.dmFinish t q.entry 0 0 0 0 (dmCount q.entry.words) 0 else s

/-- A descriptor only waits for its last read (R310). -/
def DmSlot.closing (q : DmSlot) : Bool := q.host.isSome && (q.ending.isSome || dmCount q.entry.words ≤ q.next)

/-- The device addresses that the present unit of a slot reads in the outbound window, or those of its last read. -/
def State.hostReads (s : State) (t : Nat) (q : DmSlot) : List (Nat × Nat) :=
  if q.closing then (match q.host with | some (_, a) => [(a, 0)] | none => [])
  else
    let u := unitAddrs q.entry.words q.next ((s.unitIndex t q.entry q.next).2.toOption.getD 0)
    match s.dmSide t q.entry.user (srcSide (dmOp q.entry.words)) .load (pagePieces (u.2.2 / 65536 + 2) u.1 u.2.2) with
    | .ok ps => (ps.filter fun p => isHost p.1).flatMap fun p => hostPieces 4096 (p.2.1 / 4096 + 2) p.1 p.2.1
    | .error _ => []

/-- The data of the host's completions, once all that the present unit asked for have come. -/
def State.hostData (s : State) (t : Nat) (q : DmSlot) : Option Nat :=
  if !q.closing && 0 < q.answered && q.answered == (s.hostReads t q).length then some q.brought else none

/-- At most `fuel` units of an active descriptor are performed, and it completes where none is left. -/
def State.dmGo (s : State) (t k fuel : Nat) : State :=
  match s.slot t k with
  | none => s
  | some q => (s.dmRun t k (s.hostData t q) fuel).dmDone t k

/-- Read requests to the host that are outstanding (R310). -/
def State.hostWaits (s : State) : Nat :=
  s.tiles.foldl (fun n x => x.2.dmSlots.foldl (fun n q => n + (q.asked - q.answered)) n) 0

-- log 161: DESIGN CHOICE, unsafe.
/-- R310: slot k of tile t sends the read requests it needs, up to 4,096 outstanding in all. -/
def State.askHost (s : State) (t k : Nat) : State :=
  match s.slot t k with
  | none => s
  | some q =>
    if s.hostDown ∨ !s.reach (t / 32) 8 then
      match q.host with
      | some (first, last) =>
        if !q.closing then s
        else if s.hostDown then s.dmFinish t q.entry 4 0 0 0 first 0
        else s.dmFinish t q.entry 2 exMemUncorr 0 0 first last
      | none => s
    else if q.gated ∨ (dmOp q.entry.words = 5 ∧ dmStart q.entry.words = 0) ∨
        !(q.closing || (match s.dmUnit t q.entry q.next none with | (_, .wait) => true | _ => false)) then s
    else
      let go := ((s.hostReads t q).drop q.asked).take (4096 - s.hostWaits)
      (go.foldl (fun s p => s.emit (.hostRead (s.busAddr p.1) p.2)) s).putSlot t { q with asked := q.asked + go.length }

/-! ### REDUCE_PUT (R180, R181) -/

/-- Trailing zero bits of a position, with L for 0. -/
def rdZ (ws : Words) (q : Nat) : Nat :=
  if q = 0 then rdLevels ws else ((List.range 8).find? fun i => Nat.testBit q i).getD 0

def rdKey (ws : Words) : List Nat := [dmFmt ws, dmRed ws, dmSize ws, dmDst ws, dmAux ws]

/-- One element of a combination: left operand first. -/
def rdElem (f red a b : Nat) : Nat × Nat :=
  if isF f then
    let g := fpOf f
    (match red with | 0 => g.addV 0 (g.decode a) (g.decode b) | 1 => g.minMax true a b | _ => g.minMax false a b)
  else
    let x := intOf f a
    let y := intOf f b
    (bitsOf (fmtW f) (match red with | 0 => x + y | 1 => max x y | _ => min x y), 0)

/-- Element by element over n elements of two byte strings held as numbers. -/
def rdCombine (f red a b : Nat) : Nat → Nat × Nat
  | 0 => (0, 0)
  | n + 1 =>
    let w := fmtW f
    let r := rdCombine f red a b n
    let e := rdElem f red (a / 2 ^ (w * n) % 2 ^ w) (b / 2 ^ (w * n) % 2 ^ w)
    (r.1 + e.1 * 2 ^ (w * n), r.2 ||| e.2)

/-- The member reads its source (R180); a failed read is its own status. -/
def State.rdStart (s : State) (t : Nat) (q : DmSlot) : State × DmSlot :=
  if q.started ∨ q.gated then (s, q)
  else
    let ws := q.entry.words
    let ps := pagePieces (dmSize ws / 65536 + 2) (dmSrc ws) (dmSize ws)
    match s.dmSide t q.entry.user .own .load ps with
    | .error f => (s, { q with started := true, fail := some f })
    | .ok src => match s.dmRead (t / 32) none 0 src with
      | (s, .data v) => (s, { q with started := true, part := v })
      | (s, .fail f) => (s, { q with started := true, fail := some f })
      | (s, .wait) => (s, q)

-- log 54: DEDUCED, safe.
/-- The member combines the child partials that have reached it, level by level. -/
def State.rdAdvance (s : State) (t : Nat) (q : DmSlot) (pos : Nat) : Nat → State × DmSlot
  | 0 => (s, q)
  | fuel + 1 =>
    let ws := q.entry.words
    let l := q.level
    if !q.started ∨ q.fail.isSome ∨ rdZ ws pos ≤ l then (s, q)
    else if rdN ws < pos + 2 ^ l then State.rdAdvance s t { q with level := l + 1 } pos fuel
    else
      let off := rdStage ws + l * dmSize ws
      match s.links.partials.find? fun p => p.tile == t && p.stage == rdStage ws && p.level == l with
      | none => (s, q)
      | some p =>
        let s := { s with links := { s.links with partials := s.links.partials.erase p } }
        if p.failed ∨ p.key ≠ rdKey ws then (s, { q with fail := some (5, 0, 0, 0) })
        else match s.storeRead t (storeBase t + off) (dmSize ws) with
          | (s, .error (_, b)) => (s, { q with fail := some (2, exMemUncorr, 0, b) })
          | (s, .ok v) =>
            let f := dmFmt ws
            let r := rdCombine f (dmRed ws) q.part v (dmSize ws * 8 / fmtW f)
            State.rdAdvance s t { q with level := l + 1, part := r.1, flags := q.flags ||| p.flags ||| r.2 } pos fuel

/-- The member works as far as it can; a descriptor with START 1 has nothing left to do. -/
def State.rdWork (s : State) (t k : Nat) : State :=
  match s.slot t k with
  | none => s
  | some q =>
    if dmOp q.entry.words ≠ 5 ∨ dmStart q.entry.words ≠ 0 then s else
    match rdPos q.entry.words t with
    | none => s
    | some pos =>
      let r := s.rdStart t q
      let r := r.1.rdAdvance t r.2 pos 9
      r.1.putSlot t r.2

/-- Every REDUCE_PUT member of tile t that has started works on. -/
def State.rdWorkAll (s : State) (t : Nat) : State :=
  ((s.tile t).dmSlots.filter fun q => dmOp q.entry.words == 5 && q.started).foldl (fun s q => s.rdWork t q.entry.ticket) s

-- log 54: DEDUCED, safe.
/-- REDUCE_PARTIAL: a member above position 0 whose levels are combined, or that has failed, delivers its partial or
failure mark into its parent's free staging slot, where it is combined at its level. -/
def execReducePartial (t : BitVec 8) (ticket : BitVec 32) (s : State) : Outcome :=
  let n := t.toNat
  let s := if s.stilled n then s else s.rdWork n ticket.toNat
  .next (match s.slot n ticket.toNat with
    | none => s
    | some q =>
      let ws := q.entry.words
      match rdPos ws n with
      | none => s
      | some pos =>
        let z := rdZ ws pos
        if dmOp ws ≠ 5 ∨ dmStart ws ≠ 0 ∨ s.stilled n ∨ pos = 0 ∨ q.sent ∨ !q.started ∨ (q.fail.isNone ∧ q.level < z) then s
        else
          let parent := rdFirst ws + (pos - 2 ^ z) * rdStep ws
          let off := rdStage ws + z * dmSize ws
          if s.stilled parent ∨ s.holds (n / 32) (parent / 32) then s
          else if !s.reach (n / 32) (parent / 32) then
            (s.rasEvent (n / 32) 0x14 2 (n % 32) 0 (storeBase parent + off)).putSlot n
              { q with sent := true, fail := some (q.fail.getD (2, exMemUncorr, 1, storeBase parent + off)) }
          else if s.links.partials.any fun p => p.tile == parent && p.stage == rdStage ws && p.level == z then s
          else
            let r := if q.fail.isSome then (s, none) else s.storeWriteTold (storeBase parent + off) (dmSize ws) q.part
            let told := match r.2 with | some (_, b) => some (2, exMemUncorr, 1, b) | none => q.fail
            let s := if q.fail.isSome then s else r.1.countBytes n (dmSize ws)
            let p : Partial :=
              { tile := parent, stage := rdStage ws, level := z, key := rdKey ws, failed := q.fail.isSome, flags := q.flags }
            let s := { s with links := { s.links with partials := s.links.partials ++ [p] } }
            (s.putSlot n { q with sent := true, fail := told }).rdWorkAll parent)

/-- The end of a REDUCE_PUT member: a failure is its status; a child is done when its partial is accepted, the root when
DST is written. -/
def State.rdEnd (s : State) (t k : Nat) : State :=
  let s := s.rdWork t k
  match s.slot t k with
  | none => s
  | some q =>
    let ws := q.entry.words
    match rdPos ws t with
    | none => s
    | some pos =>
      if pos ≠ 0 then
        if !q.sent then s
        else match q.fail with
          | some (st, c, sub, a) => s.dmFinish t q.entry st c sub 0 0 a
          | none => s.dmFinish t q.entry 0 0 0 0 1 0
      else match q.fail with
        | some (st, c, sub, a) => s.dmFinish t q.entry st c sub 0 0 a
        | none =>
          if !q.started ∨ q.level < rdZ ws 0 then s
          else
            match s.dmSide t q.entry.user .window .store (pagePieces (dmSize ws / 65536 + 2) (dmDst ws) (dmSize ws)) with
            | .error (st, c, sub, a) => s.dmFinish t q.entry st c sub 0 0 a
            | .ok dst => match s.dmWrite (t / 32) (dmWho t k) q.part dst with
              | (s, .fail (st, c, sub, a)) => s.dmFinish t q.entry st c sub 0 0 a
              | (s, .wait) => s
              | (s, .done) => (s.countBytes t (dmSize ws)).dmFinish t q.entry 0 0 0 q.flags 1 0

/-! ### Events -/

/-- DESCRIPTOR_ENTER_SLOT (R176). Queued descriptors of a frozen tile stay queued (R80). -/
def execDescriptorEnterSlot (t : BitVec 8) (s : State) : Outcome :=
  let n := t.toNat
  let x := s.tile n
  .next (match x.dmQueue with
    | [] => s
    | e :: rest =>
      if 4 ≤ x.dmSlots.length ∨ x.mode = .frozen ∨ s.stilled n ∨ (dmFence e.words ∧ !x.dmSlots.isEmpty) then s
      else
        let q : DmSlot := { entry := e, gated := dmGbv e.words, next := dmStart e.words, started := false, level := 0, part := 0
                            flags := 0, fail := none, sent := false, host := none, asked := 0, answered := 0, brought := 0
                            ending := none }
        let s := s.setTile n { x with dmQueue := rest, dmSlots := x.dmSlots ++ [q] }
        if dmGbv e.words then s.bkTakeFor n (dmGb e.words) 1 (.gate n e.ticket) else s)

def execGateSatisfied (t : BitVec 8) (ticket : BitVec 32) (s : State) : Outcome :=
  let n := t.toNat
  let k := ticket.toNat
  .next (match s.slot n k with
    | none => s
    | some q =>
      if q.gated ∧ s.links.done.contains (.gate n k) then
        ({ s with links := { s.links with done := s.links.done.erase (.gate n k) } }).putSlot n { q with gated := false }
      else s)

-- log 53: DEDUCED, unsafe.
/-- DESCRIPTOR_COMPLETE: the remaining units are performed and the descriptor ends (R177, R179); it stays active while
it waits for its gate, a held line or tile, the host, a partial, or an earlier operation to the home of its buckles. -/
def execDescriptorComplete (t : BitVec 8) (ticket : BitVec 32) (s : State) : Outcome :=
  let n := t.toNat
  let k := ticket.toNat
  .next (match s.slot n k with
    | none => s
    | some q =>
      if q.gated ∨ s.stilled n ∨ !s.bkReady n q.entry.words then s
      else if dmOp q.entry.words = 5 ∧ dmStart q.entry.words = 0 then s.rdEnd n k
      else
        (s.dmGo n k (dmCount q.entry.words + 1)).askHost n k)

/-- TIL_DM_EN: a write of TIL_DM_CTRL (R183). -/
def execTilDmEn (m : Master) (t : BitVec 8) (v : Word) (s : State) : Outcome :=
  .next (s.tilWrite m t.toNat 0x100 v)

-- log 55: DESIGN CHOICE, unsafe.
/-- DM_DRAIN_LIMIT: at the fifth catch every unfinished descriptor, each having performed up to `more` further units,
completes with ABORTED_DISABLE (R183); one that wrote through the outbound window does so after its last read (R310). -/
def execDmDrainLimit (t : BitVec 8) (more : BitVec 32) (s : State) : Outcome :=
  let n := t.toNat
  .next (if !s.drainExpired (.mover n) 4 then s
    else
      let s := (s.tile n).dmSlots.foldl (fun s q =>
        if dmOp q.entry.words = 5 then (if q.sent then s.rdEnd n q.entry.ticket else s)
        else s.dmGo n q.entry.ticket more.toNat) s
      let x := s.tile n
      let s := x.dmSlots.foldl (fun s q => if q.closing then s.askHost n q.entry.ticket else
        (s.dmEnd n q 3 0 0 q.next 0).askHost n q.entry.ticket) s
      x.dmQueue.foldl (fun s e => s.dmFinish n e 3 0 0 0 (dmStart e.words) 0) s)

end Sys2Proof.Machine
end

