-- ==== Sys2Proof/Machine/CrewOps.lean ====
section
/-!
DEFINITION. Crews as other units reach them: members and ranks, member messages, notices, withdrawal, pace (R330, R331,
R337, R339 to R342).
-/
namespace Sys2Proof.Machine

def noCrew : Nat → Crew := fun _ => Crew.none
def State.crew (s : State) (k : Nat) : Crew := SMap.get noCrew s.fabric.crews k
def State.setCrew (s : State) (k : Nat) (c : Crew) : State :=
  { s with fabric := { s.fabric with crews := SMap.set noCrew s.fabric.crews k c } }
/-- The local numbers of crews in use. -/
def State.crewList (s : State) : List Nat := s.fabric.crews.map (·.1)

/-! ### Parameters (Table 13.4) -/

def Crew.w (c : Crew) (i hi lo : Nat) : Nat := field (c.p.getD i 0) hi lo
def Crew.key (c : Crew) : Nat := c.w 0 63 0
def Crew.lead (c : Crew) : Bool := c.w 1 59 59 == 1
def Crew.syncReq (c : Crew) : Nat := c.w 1 58 57
def Crew.chunk (c : Crew) : Nat := c.w 1 53 49
def Crew.rot (c : Crew) : Nat := c.w 1 48 44
def Crew.own (c : Crew) : Nat := c.w 1 43 30
def Crew.nmem (c : Crew) : Nat := c.w 1 29 15
def Crew.deadline (c : Crew) : Nat := c.w 2 63 32
def Crew.epochLen (c : Crew) : Nat := c.w 2 31 0
def Crew.paceEn (c : Crew) : Bool := c.w 4 63 63 == 1

/-! ### Ranks and trees (R334, R180) -/

/-- Members in ascending member number. -/
def insMember (m : Member) : List Member → List Member
  | [] => [m]
  | x :: r => if x.num < m.num then x :: insMember m r else m :: x :: r

def Crew.n (c : Crew) : Nat := c.members.length
def Crew.rankOf (c : Crew) (num : Nat) : Option Nat := c.members.findIdx? (·.num == num)
def Crew.rank (c : Crew) : Nat := (c.rankOf c.own).getD 0
/-- Trailing zeros of a nonzero position; the depth of the tree at the root (R180). -/
def levelsOf (n q : Nat) : Nat := if q = 0 then treeDepth n else ((List.range 16).find? fun i => q.testBit i).getD 0
/-- The positions below position q in a tree of n. -/
def childrenOf (n q : Nat) : List Nat := ((List.range (levelsOf n q)).map fun l => q + 2 ^ l).filter (· < n)

/-! ### Messages -/

/-- A MGMT request on context c (R327, Table 11.3): command code and payload. -/
def State.mgmtRequest (s : State) (c sess code : Nat) (ws : List Nat) : State :=
  s.ectSend c 6 ([0, sess * 2 ^ 48 + code * 65536, 8 * ws.length, 0, 0, 0, 0, 0, 0] ++ ws)

-- log 75: DEDUCED, unsafe.
/-- A member message for the Cox behind context c (R328): sent under the session that Cox has granted, or kept while HELLO
asks for one. A session without a request for 1,000 ticks has closed (R282). SEQ holds the local crew number k. -/
def State.memberSend (s : State) (c k code : Nat) (ws : List Nat) : State :=
  let x := s.ctx c
  let code := k * 65536 + code
  if x.sess ≠ 0 ∧ s.stroke.ticks < x.sessTick + 1000 then
    (s.setCtx c { x with sessTick := s.stroke.ticks }).mgmtRequest c x.sess code ws
  else
    let s1 := s.setCtx c { x with hello := true, sess := 0, mgmt := x.mgmt ++ [(code, ws)] }
    if x.hello then s1
    else s1.mgmtRequest c 0 1 [2 * 2 ^ 56 + 1 * 2 ^ 40 + 2 * 2 ^ 32 + 3 * 2 ^ 30, s.fuses.serial, 0]

-- log 76: DEDUCED, unsafe.
/-- A CTRL packet to a member: its local crew number, kind (0 pace advisory, 1 withdrawal, 2 holdover notice), two values. -/
def State.ctrlTo (s : State) (m : Member) (kind a b : Nat) : State :=
  match m.ctx with | some c => s.ectSend c 5 [m.crew, kind, a, b] | none => s

/-- R339: from rank r a notice goes down the tree of rank positions. -/
def State.ctrlDown (s : State) (c : Crew) (kind a b : Nat) : State :=
  (childrenOf c.n c.rank).foldl (fun s q => match c.members[q]? with | some m => s.ctrlTo m kind a b | none => s) s

/-- R339, R341: a notice that starts here goes to rank 0, which forwards it. -/
def State.ctrlStart (s : State) (c : Crew) (kind a b : Nat) : State :=
  if c.rank = 0 then s.ctrlDown c kind a b
  else match c.members.head? with | some m => s.ctrlTo m kind a b | none => s

/-! ### Memory for the crew engine -/

/-- n bytes read for a crew operation; a failure is its STATUS (Table 13.8), or 0 where the read waits. -/
def State.crewRead (s : State) (a n : Nat) : State × Except Nat Nat :=
  if !s.reach 8 (dieOf a) then (s, .error 2)
  else if s.holds 8 (dieOf a) then (s, .error 0)
  else match regionOf a with
    | .store t =>
      if s.stilled t then (s, .error 0)
      else match s.storeRead t a n with | (s, .ok v) => (s, .ok v) | (s, .error _) => (s, .error 2)
    | _ => match s.memRead .crew a n with
      | (s, .ok v) => (s, .ok v)
      | (s, .error (.held, _)) => (s, .error 0)
      | (s, .error (.access, _)) => (s, .error 1)
      | (s, .error _) => (s, .error 2)

/-- n bytes v are offered to their destination: nothing, the STATUS of a failure, or 0 where the write waits. -/
def State.crewOffer (s : State) (a n v : Nat) : State × Option Nat :=
  if !s.reach 8 (dieOf a) then (s, some 2)
  else if s.holds 8 (dieOf a) then (s, some 0)
  else
    let r : State × Option (MemFail × Nat) := match regionOf a with
      | .store t => if s.stilled t then (s, some (.held, a)) else s.storeWriteTold a n v
      | _ => s.memWrite .crew 0 a n v
    (r.1, r.2.map fun e => match e.1 with | .held => 0 | .access => 1 | .uncorr => 2)

-- log 61: DEDUCED, unsafe.
/-- A write for `who`: performed, refused with its STATUS, or kept until it can be performed. -/
def State.crewWrite (s : State) (who : CrewWho) (a n v : Nat) : State × Option Nat :=
  match s.crewOffer a n v with
  | (s, some 0) => ({ s with fabric := { s.fabric with waits := s.fabric.waits ++ [⟨who, a, n, v⟩] } }, none)
  | r => r

/-! ### Operations -/

def CrewOp.f (o : CrewOp) (i hi lo : Nat) : Nat := field (o.words.getD i 0) hi lo
def CrewOp.op (o : CrewOp) : Nat := o.f 0 59 56
def CrewOp.red (o : CrewOp) : Nat := o.f 0 55 53
def CrewOp.fmt (o : CrewOp) : Nat := o.f 0 52 48
def CrewOp.phase (o : CrewOp) : Nat := o.f 0 31 0
def CrewOp.opid (o : CrewOp) : Nat := o.f 1 63 48
def CrewOp.src (o : CrewOp) : Nat := o.f 1 47 0
def CrewOp.dst (o : CrewOp) : Nat := o.f 2 47 0
def CrewOp.peer (o : CrewOp) : Nat := o.f 3 63 50
def CrewOp.conv (o : CrewOp) : Bool := o.f 3 49 49 == 1
def CrewOp.ofmt (o : CrewOp) : Nat := o.f 3 48 44
def CrewOp.recipe (o : CrewOp) : Nat := o.f 3 43 41
def CrewOp.len (o : CrewOp) : Nat := o.f 3 39 0

def State.qcount (s : State) : State := s.setf CRW_STATUS CRW_STATUS_QCOUNT s.fabric.ops.length

/-- The drain of the engine ends when no operation is queued or running (R343). -/
def State.crwSettle (s : State) : State :=
  if s.fabric.ops = [] then s.endDrain .crews CRW_CTRL CRW_CTRL_EN CRW_STATUS CRW_STATUS_ACTIVE else s

def CrewOp.same (o : CrewOp) (crew phase opid : Nat) : Bool := o.crew == crew && o.phase == phase && o.opid == opid

def State.putOp (s : State) (o : CrewOp) : State :=
  { s with fabric := { s.fabric with ops := s.fabric.ops.map fun x => if x.same o.crew o.phase o.opid then o else x } }

/-- 1 is added to a completion buckle, where there is one. -/
def State.bkDone (s : State) (cb : Option Nat) : State := match cb with | some b => s.bkAdd b 1 | none => s

/-- R337: the record of Table 13.8 is written, then CB receives 1, and the operation leaves. -/
def State.crewFinish (s : State) (o : CrewOp) (status : Nat) : State :=
  let s := { s with fabric := { s.fabric with
    ops := s.fabric.ops.filter fun x => !x.same o.crew o.phase o.opid
    early := s.fabric.early.filter fun q => !(q.crew == o.crew && q.phase == o.phase && q.opid == o.opid) } }
  let crec := o.f 4 47 0
  let w := status * 2 ^ 56 + o.flags % 32 * 2 ^ 51 + (if o.late then 2 ^ 50 else 0)
  let v := w + s.now.toNat % 2 ^ 32 * 2 ^ 96
  let cb := if o.f 4 63 63 = 1 then some (o.f 4 62 49) else none
  let s := if crec = 0 then s.bkDone cb
    else match s.crewOffer crec 16 v with
      | (s, some 0) => { s with fabric := { s.fabric with waits := s.fabric.waits ++ [⟨.record cb, crec, 16, v⟩] } }
      | (s, _) => s.bkDone cb
  s.qcount.crwSettle

/-- Every operation of crew k that satisfies p ends with STATUS st. -/
def State.crewEndAll (s : State) (k st : Nat) (p : CrewOp → Bool) : State :=
  (s.fabric.ops.filter fun o => o.crew == k && p o).foldl (fun s o => s.crewFinish o st) s

/-! ### Membership -/

/-- The first epoch boundary that lies at least 4,096 strokes ahead (R330), and not before `from_`. -/
def State.boundaryFrom (s : State) (c : Crew) (from_ : Word) : Word :=
  let e := max 1 c.epochLen
  let first : Word := c.p.getD 3 0
  let t := s.now + 4096
  let t := if after from_ t then from_ else t
  if after first t || first == t then first
  else BitVec.ofNat 64 (first.toNat + ((t - first).toNat + e - 1) / e * e)

/-- The latest roster: the last announced, or the members (R330). -/
def Crew.last (c : Crew) : List Member :=
  match c.next.getLast?, c.announced with
  | some q, _ => q.2
  | .none, some q => q.2
  | .none, .none => c.members

-- log 80: DEDUCED, unsafe.
/-- A roster for boundary b is announced: with those before it, each for a boundary of its own; a forming crew has one. -/
def Crew.plan (c : Crew) (b : Word) (ms : List Member) : Crew :=
  match c.announced with
  | .none => { c with announced := some (b, ms) }
  | some q => if c.state = 1 ∨ q.1 = b then { c with announced := some (b, ms) } else { c with next := (c.next.filter (·.1 ≠ b)) ++ [(b, ms)] }

-- log 75: DEDUCED, unsafe.
def memberWords (m : Member) : List Nat := [m.num, m.crew, m.addr % 2 ^ 64, m.addr / 2 ^ 64, m.udp, m.recvLen]

/-- The members of a roster in parts that fit one request each; fuel is at least their number. -/
def rosterParts : Nat → List Member → List (List Member)
  | 0, _ => []
  | f + 1, ms => if ms.isEmpty then [] else ms.take 83 :: rosterParts f (ms.drop 83)

-- log 75: DEDUCED, unsafe.
/-- R328, R330: CREW_ROSTER to every present and coming member: level, rule set, boundary, the sender's number with the number
of members, and six doublewords for each member. A part that names the receiver, or else the sender, goes first. -/
def State.announce (s : State) (k : Nat) (ms : List Member) (b : Word) : State :=
  let c := s.crew k
  let s := s.setCrew k { c.plan b ms with pend := none }
  let parts := rosterParts (ms.length / 83 + 1) ms
  let names (n : Nat) (p : List Member) : Bool := p.any (·.num == n)
  let gone := c.members.filter fun m => !names m.num ms
  (ms ++ gone).foldl (fun s m =>
    match m.ctx with
    | none => s
    | some x =>
      let first := names (if names m.num ms then m.num else c.own)
      (parts.filter first ++ parts.filter fun p => !first p).foldl (fun s p =>
        s.memberSend x k 0x0101 ([c.level, c.rules, b.toNat, c.own * 2 ^ 32 + ms.length] ++ p.flatMap memberWords)) s) s

/-- The member that coordinates: the leader, or the lowest remaining number once it is withdrawn (R330). -/
def Crew.coordinator (c : Crew) : Option Nat :=
  match c.leader with
  | some l => if c.members.any fun m => m.num == l && !m.withdrawn then some l else (c.members.find? fun m => !m.withdrawn).map (·.num)
  | .none => .none

def State.crewEvent (s : State) (k : Nat) : State := s.notify CRW_STATUS 0 (some ⟨7, 0, 0, k⟩)

/-- R341, R342: member num of crew k is withdrawn: a CREW event, the notice that ends operations at the next catch, and,
where this module coordinates, the removal from the roster. -/
def State.withdrawNote (s : State) (k num : Nat) : State :=
  let c := s.crew k
  let out (ms : List Member) : List Member := ms.map fun m => if m.num = num then { m with withdrawn := true } else m
  let c := { c with members := out c.members, announced := c.announced.map fun q => (q.1, out q.2), next := c.next.map fun q => (q.1, out q.2)
                    notice := true }
  let s := (s.setCrew k c).crewEvent k
  if c.state = 2 ∧ c.coordinator = some c.own then s.announce k (c.last.filter fun m => !m.withdrawn) (s.boundaryFrom c s.now) else s

-- log 80: DEDUCED, unsafe.
/-- R342: this module is the one withdrawn from crew k: its own operations end at once. -/
def State.withdrawOwn (s : State) (k : Nat) : State :=
  let s := s.withdrawNote k (s.crew k).own
  let s := s.crewEndAll k 4 fun _ => true
  s.setCrew k { s.crew k with state := 3, ended := true }

-- log 80: DEDUCED, unsafe.
/-- R341: this module withdraws from crew k, and the notice leaves. -/
def State.withdrawSelf (s : State) (k : Nat) : State :=
  let c := s.crew k
  if c.state ≠ 2 then s else (s.ctrlStart c 1 c.own 0).withdrawOwn k

/-- R341: the neighbour behind context x is lost: it is withdrawn from every crew that reaches it so. -/
def State.withdrawCtx (s : State) (x : Nat) : State :=
  s.crewList.foldl (fun s k =>
    let c := s.crew k
    match c.members.find? fun m => m.ctx == some x && !m.withdrawn with
    | some m => if c.state = 2 then (s.ctrlStart c 1 m.num 0).withdrawNote k m.num else s
    | none => s) s

/-- R331: the stroke state of this module has changed: crews that it no longer satisfies lose it, and HOLDOVER under
SYNC_REQ 1 is announced (R34). -/
def State.crewStroke (s : State) : State :=
  let st := s.fld STK_STATUS STK_STATUS_STATE
  let aged := s.bit STK_STATUS STK_STATUS_AGED
  s.crewList.foldl (fun s k =>
    let c := s.crew k
    if c.state ≠ 2 then s
    else if c.syncReq = 1 then
      if st = 0 || aged then s.withdrawSelf k
      else if st = 3 then (s.ctrlStart c 2 c.own 0).crewEvent k else s
    else if c.syncReq = 2 ∧ st ≠ 2 then s.withdrawSelf k
    else s) s

/-- R331: MARK_ERR withdraws the module from every crew with SYNC_REQ 1 or 2. -/
def State.crewMarkErr (s : State) : State :=
  s.crewList.foldl (fun s k => if 1 ≤ (s.crew k).syncReq then s.withdrawSelf k else s) s

/-- R233, R339, R341: memory m entered thermal state t (Table 9.4): WARN and THROTTLE are published at the next catch to
the crews with PACE_EN, OFFLINE withdraws the module. -/
def State.crewMemory (s : State) (_m t : Nat) : State :=
  s.crewList.foldl (fun s k =>
    let c := s.crew k
    if c.state ≠ 2 then s
    else if t = 3 then s.withdrawSelf k
    else if c.paceEn ∧ (t = 1 ∨ t = 2) then
      s.setCrew k { c with publish := max c.publish (if t = 1 then c.w 4 62 59 else c.w 4 58 55) }
    else s) s

-- log 80: DEDUCED, unsafe.
/-- What the crew engine does at a catch: operations of a notice end (R342), advisories leave (R339; one comes back down the
tree to a publisher that is not rank 0), and those whose APPLY has come extend the deadlines of operations in flight (R340). -/
def State.crewCatch (s : State) : State :=
  s.crewList.foldl (fun s k =>
    let c := s.crew k
    let s := if c.notice then (s.crewEndAll k 4 (·.started)).setCrew k { c with notice := false, ended := true } else s
    let c := s.crew k
    let s := if c.publish = 0 then s else
      let apply := s.now + BitVec.ofNat 64 (c.w 4 54 47)
      let s := s.setCrew k { c with publish := 0, paces := if c.rank = 0 then c.paces ++ [⟨apply, c.publish⟩] else c.paces }
      s.ctrlStart c 0 apply.toNat c.publish
    let c := s.crew k
    let ext := (c.paces.filter fun p => p.apply == s.now).foldl (fun e p => max e p.stretch) 0
    if ext = 0 then s
    else { s with fabric := { s.fabric with ops := s.fabric.ops.map fun o =>
      if o.crew = k ∧ o.started then { o with stretch := o.stretch + ext } else o } }) s

end Sys2Proof.Machine
end

