-- ==== Sys2Proof/Machine/MemCtl.lean ====
section
/-!
DEFINITION. The memory controllers: windows, patrol and sweep, temperature, thresholds (R222 to R236, R471).
-/
namespace Sys2Proof.Machine

/-- The first address after memory m. -/
def memEnd (m : Nat) : Nat := if m < 16 then (m + 1) * 0xC00000000 else 0x010000000000 + ((m - 16) / 6 + 1) * 0x3000000000

-- log 67: DEDUCED, unsafe.
/-- R223: a memory-window event with argument arg, fired in stroke n, acts on memory m: a window opens, or the one that is open
is extended. -/
def State.openWindow (s : State) (m arg : Nat) (n : Word) : State :=
  if s.memDown m then s
  else
    let i := s.memInfo m
    let e := n + BitVec.ofNat 64 (arg % 256)
    let retrain := arg / 256 % 2 == 1
    s.setMemInfo m { i with window := some (match i.window with
      | some (w, r) => (if after e w then e else w, r || retrain)
      | none => (e, retrain)) }

-- log 67: DEDUCED, unsafe.
/-- MEMORY_WINDOW_END: the window of memory m has run its strokes. A retrain window has performed the pending hard
repairs (R223, R229). -/
def execMemoryWindowEnd (mem : BitVec 6) (s : State) : Outcome :=
  let m := mem.toNat
  let i := s.memInfo m
  .next (match i.window with
    | some (e, retrain) =>
      if after e s.now then s
      else
        let s := s.setMemInfo m { i with window := none, lastRetrain := if retrain then s.stroke.ticks else i.lastRetrain }
        if retrain then
          let n := s.fld (HBM_REPAIR m) HBM_REPAIR_PENDING
          let rows := s.store.rows.map fun q => if q.1 % 64 = m ∧ q.2.repaired then (q.1, { q.2 with hard := true }) else q
          let s := { s with store := { s.store with rows := rows } }
          (s.stick (HBM_REPAIR m) HBM_REPAIR_HARD n).setf (HBM_REPAIR m) HBM_REPAIR_PENDING 0
        else s
    | none => s)

/-- UNSCHEDULED_RETRAIN: 3,600,000 ticks have passed since the latest retrain window of memory m (R224). -/
def execUnscheduledRetrain (mem : BitVec 6) (s : State) : Outcome :=
  let m := mem.toNat
  let i := s.memInfo m
  .next (if s.stroke.ticks - i.lastRetrain < 3600000 ∨ s.memDown m then s
    else (s.setMemInfo m { i with lastRetrain := s.stroke.ticks }).setf (HBM_STATE m) HBM_STATE_UNSCHED 1)

/-- R226: patrol reads the codeword at a. A correction is written back; an uncorrectable codeword is a row failure
reported to no requester. -/
def State.patrol (s : State) (m a : Nat) : State :=
  if s.memDown m || s.unswept m a then s
  else
    let r := s.readCodewords m 3 [a]
    if s.codeword a = 1 then r.1.recoded a else r.1

/-- PATROL_SCRUB: patrol reaches the codeword at a. -/
def execPatrolScrub (a : BitVec 48) (s : State) : Outcome :=
  .next (match regionOf a.toNat with
    | .hbm m => s.patrol m a.toNat
    | .bulk m => s.patrol m a.toNat
    | _ => s)

/-- INITIAL_SWEEP: the sweep of memory m has passed every codeword below address `upTo`; each now holds the data as found
and check symbols that agree with them (R471). -/
def execInitialSweep (mem : BitVec 6) (upTo : BitVec 48) (s : State) : Outcome :=
  let m := mem.toNat
  let p := min upTo.toNat (memEnd m)
  .next (if !s.bit (HBM_STATE m) HBM_STATE_SWEEP || p ≤ SMap.get noNat s.store.sweepPos m then s
    else
      let here := s.store.codewords.filter fun q => memOf (q.1 * 64) = m && q.1 * 64 < p
      let s := here.foldl (fun s q => s.recodedAsFound (q.1 * 64)) s
      let s := { s with store := { s.store with sweepPos := SMap.set noNat s.store.sweepPos m p } }
      if p = memEnd m then s.setf (HBM_STATE m) HBM_STATE_SWEEP 0 else s)

/-! ### Temperature -/

-- log 33: DEDUCED, unsafe.
/-- Memory m enters thermal state t: reported to the crew engine and to the Cox (R233). -/
def State.setThermal (s : State) (m t : Nat) : State :=
  ((s.setf (HBM_STATE m) HBM_STATE_TSTATE t).crewMemory m t).notify (HBM_STATE m) 0 (some ⟨4, 0, t, m⟩)

/-- R204, R234: memory m goes OFFLINE: its dirty lines but the last `left` are written back and invalidated, then every
access faults. -/
def State.goOffline (s : State) (m left : Nat) : State :=
  let d := memDie m
  let keys := s.keysOf d fun _ l => l.valid && l.dirty && memOf l.addr == m
  let s := (keys.take (keys.length - left)).foldl (fun s k => s.flushLine d k) s
  let s := s.setMemInfo m { s.memInfo m with offlineAt := some s.now, leaving := false }
  (s.setThermal m 3).rasEvent d 0x10 4 m 0 0

/-- A temperature below a threshold less 3 °C. -/
def cool (temp : Int) (thr : Nat) : Bool := temp < (thr : Int) - 3

-- log 66: DEDUCED, unsafe.
/-- MEMORY_TEMPERATURE_SAMPLE (Table 9.4, R233): a sample of memory m. `exceeded` is the memory's report that its absolute
limit was exceeded; `left` counts the dirty lines it does not take when it goes OFFLINE. -/
def execMemoryTemperatureSample (mem : BitVec 6) (temp : BitVec 8) (exceeded : Bool) (left : BitVec 32) (s : State) : Outcome :=
  let m := mem.toNat
  let c := temp.toInt
  let warn := s.fld (HBM_THR m) HBM_THR_WARN
  let throt := s.fld (HBM_THR m) HBM_THR_THROT
  let crit := s.fld (HBM_THR m) HBM_THR_CRIT
  let s := s.setf (HBM_STATE m) HBM_STATE_TEMP temp.toNat
  let s := if exceeded then s.setf (HBM_STATE m) HBM_STATE_OVERLIMIT 1 else s
  let i := s.memInfo m
  let cw := if cool c warn then i.coolWarn + 1 else 0
  let ct := if cool c throt then i.coolThrot + 1 else 0
  let s := s.setMemInfo m { i with coolWarn := min cw 16, coolThrot := min ct 16 }
  let st := s.fld (HBM_STATE m) HBM_STATE_TSTATE
  .next (
    if 3 ≤ st then s
    else if (crit : Int) ≤ c then s.goOffline m left.toNat
    else if (throt : Int) ≤ c then
      if st = 2 then s.setMemInfo m { s.memInfo m with leaving := false } else s.setThermal m 2
    else if st = 2 then
      if 16 ≤ ct then s.setMemInfo m { s.memInfo m with leaving := true } else s
    else if (warn : Int) ≤ c then (if st = 0 then s.setThermal m 1 else s)
    else if st = 1 ∧ 16 ≤ cw then s.setThermal m 0
    else s)

-- log 66: DEDUCED, unsafe.
/-- At a catch, a memory that has cooled leaves THROTTLE (Table 9.4): for WARN, or for NORMAL when 16 samples lie below
WARN − 3 °C too. -/
def State.thermalCatch (s : State) : State :=
  s.store.memInfo.foldl (fun s q =>
    if q.2.leaving then
      (s.setMemInfo q.1 { s.memInfo q.1 with leaving := false }).setThermal q.1 (if 16 ≤ q.2.coolWarn then 0 else 1)
    else s) s

/-- OFFLINE_DRAIN_LIMIT: 64 strokes after memory m went OFFLINE, its dirty lines that were not written back are lost
(R234). -/
def execOfflineDrainLimit (mem : BitVec 6) (s : State) : Outcome :=
  let m := mem.toNat
  let d := memDie m
  .next (match (s.memInfo m).offlineAt with
    | some n =>
      if (s.now - n).toNat ≤ 64 then s
      else
        let s := (s.keysOf d fun _ l => l.valid && l.dirty && memOf l.addr == m).foldl (fun s k =>
          (s.loseLine d (s.line k).addr).setLine k Line.invalid) s
        s.setMemInfo m { s.memInfo m with offlineAt := none }
    | none => s)

/-! ### Registers -/

-- log 159: DESIGN CHOICE, unsafe.
/-- A write of v at offset o of the register set of memory m (R232, R236). One that R4 discards is recorded nowhere: HBM_STATE
has no bit for it (log 159). -/
def State.memCtlWrite (s : State) (w : Master) (m o : Nat) (v : Word) : State :=
  let a := HBM_THR m + o
  if !isCox w then s.setf (HBM_STATE m) HBM_STATE_PERM_ERR 1
  else if rsvBad a v then s
  else if o = 0 then
    let warn := HBM_THR_WARN.get v
    let throt := HBM_THR_THROT.get v
    let crit := HBM_THR_CRIT.get v
    if warn < throt && throt < crit && crit ≤ Config.critLimit m then s.put a v
    else s.setf (HBM_STATE m) HBM_STATE_ARG_ERR 1
  else s.put a v

/-- THR_WRITE: a write of HBM_THR or BLK_THR. -/
def execThrWrite (w : Master) (mem : BitVec 6) (v : Word) (s : State) : Outcome := .next (s.memCtlWrite w mem.toNat 0 v)

end Sys2Proof.Machine
end

