-- ==== Sys2Proof/Machine/Streamer.lean ====
section
/-!
DEFINITION. The context streamers (R237 to R253).
-/
namespace Sys2Proof.Machine

/-! ### Page formats -/

/-- R237: the bytes of a page of nblk blocks in format f. -/
def pageSize (f nblk : Nat) : Nat := nblk * (4 * fmtW f + if isMX f then 1 else 0)

/-- R237: two page formats may meet in one context or STAGE. -/
def pageFormats (f g : Nat) : Bool := isFormat f && isFormat g && (f == g || (isMX f && isMX g))

-- log 62: DEDUCED, unsafe.
/-- The size of a bulk slot for pages of format f (R237). -/
def slotSize (f nblk : Nat) : Nat := if pageSize f nblk ≤ 32768 then 32768 else 65536

/-- R161, R246: a page of format f as a page of format g, with the marks of its elements for the watch. -/
def pageConvert (f g recipe nblk v : Nat) : Nat × List Nat :=
  if f = g then (v, [])
  else
    let wf := fmtW f
    let wg := fmtW g
    (List.range nblk).foldl (fun acc j =>
      let x := v / 256 ^ (nblk * 4 * wf + j) % 256
      let b := mxBlock g recipe ((List.range 32).map fun i => mxDecode f (v / 2 ^ ((32 * j + i) * wf) % 2 ^ wf) x)
      let els := (List.range 32).foldl (fun n i => n + (b.2.1.getD i (0, 0)).1 % 2 ^ wg * 2 ^ (i * wg)) 0
      (acc.1 + els * 2 ^ (32 * j * wg) + b.1 * 256 ^ (nblk * 4 * wg + j), acc.2 ++ b.2.1.map (·.2))) (0, [])

/-! ### Contexts -/

def dieHbm (d a n : Nat) : Bool := d * 0x1800000000 ≤ a && a + n ≤ (d + 1) * 0x1800000000
def dieBulk (d a n : Nat) : Bool :=
  0x010000000000 + d * 0x3000000000 ≤ a && a + n ≤ 0x010000000000 + (d + 1) * 0x3000000000

/-- The address in a field that holds its upper bits. -/
def State.addr (s : State) (a : Nat) (f : Fld) : Nat := s.fld a f * 2 ^ f.lo

/-- R251: what stands against enabling context c with control word v: 1 VER_ERR, 2 ARG_ERR. -/
def State.ctxBad (s : State) (d c : Nat) (v : Word) : Nat :=
  let hf := CXS_CTX_CTRL_HBM_FMT.get v
  let bf := CXS_CTX_CTRL_BULK_FMT.get v
  let n := CXS_CTX_CTRL_NBLK.get v
  let base := s.addr (CXS_CTX_PT_BASE d c) CXS_CTX_PT_BASE_PT_BASE
  let len := s.fld (CXS_CTX_PT_LEN d c) CXS_CTX_PT_LEN_PT_LEN
  if 24 ≤ hf ∨ 24 ≤ bf ∨ 6 ≤ CXS_CTX_CTRL_RECIPE.get v then 1
  else if !pageFormats hf bf ∨ n = 0 ∨ 65536 < pageSize hf n ∨ 65536 < pageSize bf n then 2
  else if !dieHbm d base 1 ∨ len = 0 ∨ len < s.fld (CXS_CTX_NPAGES d c) CXS_CTX_NPAGES_NPAGES then 2
  else 0

def noCxs : Nat → List CxsCmd := fun _ => []
def State.cxsQueue (s : State) (d : Nat) : List CxsCmd := SMap.get noCxs s.store.cxs d
def State.setCxsQueue (s : State) (d : Nat) (q : List CxsCmd) : State :=
  ({ s with store := { s.store with cxs := SMap.set noCxs s.store.cxs d q } }).setf (CXS_STATUS d) CXS_STATUS_QCOUNT q.length

/-- R250: the drains of the streamer and of its contexts end with the last of their commands. -/
def State.cxsSettle (s : State) (d : Nat) : State :=
  let q := s.cxsQueue d
  let s := if q.isEmpty then s.endDrain (.streamer d) (CXS_CTRL d) CXS_CTRL_EN (CXS_STATUS d) CXS_STATUS_ACTIVE else s
  s.drains.foldl (fun s r =>
    match r.who with
    | .context e c =>
      if e = d && !q.any (·.ctx == c) then
        s.endDrain (.context d c) (CXS_CTX_CTRL d c) CXS_CTX_CTRL_EN (CXS_CTX_CTRL d c) CXS_CTX_CTRL_ACTIVE
      else s
    | _ => s) s

/-! ### The frame pool (R241) -/

def State.poolErr (s : State) (d : Nat) : State := s.setf (CXS_STATUS d) CXS_STATUS_POOL_ERR 1
def State.poolCount (s : State) (d : Nat) : Nat := s.fld (CXS_POOL_PTR d) CXS_POOL_PTR_COUNT

/-- The memory of a is OFFLINE. -/
def State.offlineAt (s : State) (a : Nat) : Bool := s.fld (HBM_STATE (memOf a)) HBM_STATE_TSTATE == 3

/-- Frames of die d that wait for their place in the ring. -/
def State.poolLate (s : State) (d : Nat) : List Nat := (s.store.poolAdds.filter fun q => q.1 == d).map (·.2)

/-- Room in the pool of die d. -/
def State.poolFull (s : State) (d : Nat) : Bool :=
  let sz := s.fld (CXS_POOL_BASE d) CXS_POOL_BASE_SZ
  sz == 0 || 2 ^ sz ≤ s.poolCount d + (s.poolLate d).length

/-- The frames that wait enter the ring at its tail, in order, as far as its lines can be written. -/
def State.poolFlush (s : State) (d : Nat) : Nat → State
  | 0 => s
  | fuel + 1 =>
    match s.poolLate d with
    | [] => s
    | fr :: _ =>
      let n := s.poolCount d
      let slot := (s.fld (CXS_POOL_PTR d) CXS_POOL_PTR_HEAD + n) % 2 ^ s.fld (CXS_POOL_BASE d) CXS_POOL_BASE_SZ
      let gone (s : State) : State := { s with store := { s.store with poolAdds := s.store.poolAdds.erase (d, fr) } }
      match s.memWrite .cxs d (s.addr (CXS_POOL_BASE d) CXS_POOL_BASE_BASE + 8 * slot) 8 fr with
      | (s, some (.held, _)) => s
      | (s, some _) => ((gone s).poolErr d).poolFlush d fuel
      | (s, none) => ((gone s).setf (CXS_POOL_PTR d) CXS_POOL_PTR_COUNT (n + 1)).poolFlush d fuel

/-- A frame is appended to the pool tail. -/
def State.poolPut (s : State) (d fr : Nat) : State :=
  if s.poolFull d then s.poolErr d
  else
    ({ s with store := { s.store with poolAdds := s.store.poolAdds ++ [(d, fr)] } }).poolFlush d ((s.poolLate d).length + 1)

/-- A frame that an operation frees: one that is retired or OFFLINE is dropped (R241). -/
def State.poolFree (s : State) (d fr : Nat) : State :=
  if s.pageRetired (memOf fr) fr || s.offlineAt fr then s.poolErr d else s.poolPut d fr

/-- What taking a frame ends with. -/
inductive Taken where
  | frame (fr : Nat)
  | empty
  /-- the ring's line waits at its home -/
  | held
  deriving DecidableEq, Repr

-- log 65: DEDUCED, unsafe.
/-- A frame is taken from the pool head; one that is OFFLINE or retired is dropped and the next one taken. -/
def State.poolTake (s : State) (d : Nat) : Nat → State × Taken
  | 0 => (s, .empty)
  | fuel + 1 =>
    let n := s.poolCount d
    if n = 0 then (s, .empty)
    else
      let head := s.fld (CXS_POOL_PTR d) CXS_POOL_PTR_HEAD
      let next (s : State) : State :=
        (s.setf (CXS_POOL_PTR d) CXS_POOL_PTR_HEAD ((head + 1) % 2 ^ s.fld (CXS_POOL_BASE d) CXS_POOL_BASE_SZ)).setf
          (CXS_POOL_PTR d) CXS_POOL_PTR_COUNT (n - 1)
      match s.memRead .cxs (s.addr (CXS_POOL_BASE d) CXS_POOL_BASE_BASE + 8 * head) 8 with
      | (s, .ok fr) =>
        if s.pageRetired (memOf fr) fr || s.offlineAt fr then State.poolTake ((next s).poolErr d) d fuel else (next s, .frame fr)
      | (s, .error (.held, _)) => (s, .held)
      | (s, .error _) => State.poolTake ((next s).poolErr d) d fuel

-- log 65: DEDUCED, unsafe.
/-- R244: the frame just taken is returned to the pool, at its head. -/
def State.untake (s : State) (d : Nat) : State :=
  let n := 2 ^ s.fld (CXS_POOL_BASE d) CXS_POOL_BASE_SZ
  (s.setf (CXS_POOL_PTR d) CXS_POOL_PTR_HEAD ((s.fld (CXS_POOL_PTR d) CXS_POOL_PTR_HEAD + n - 1) % n)).setf
    (CXS_POOL_PTR d) CXS_POOL_PTR_COUNT (s.poolCount d + 1)

/-! ### Pages -/

/-- How a page ends: done, waiting for a frame, waiting at a home, or failed with a STATUS of Table 9.9. -/
inductive PageEnd where
  | done
  | wait
  | held
  | fail (status : Nat)
  deriving DecidableEq, Repr

/-- The end of a page whose access gave e: 0 where it waits, else its STATUS. -/
def PageEnd.of (e : Nat) : PageEnd := if e = 0 then .held else .fail e

/-- What a page-table entry and its context say. -/
structure Page where
  d : Nat
  ctx : Nat
  entry : Nat
  w0 : Nat
  w1 : Nat
  hf : Nat
  bf : Nat
  nblk : Nat
  recipe : Nat
  tag : Nat

def Page.state (p : Page) : Nat := p.w0 / 2 ^ 48 % 4
def Page.frame (p : Page) : Nat := p.w0 / 65536 % 2 ^ 32 * 65536
def Page.baddr (p : Page) : Nat := p.w1 % 2 ^ 48
-- log 62: DEDUCED, unsafe.
/-- R239, R244: the bulk slot is missing, misaligned or outside the die's bulk range. -/
def Page.badSlot (p : Page) : Bool :=
  p.baddr == 0 || p.baddr % slotSize p.bf p.nblk != 0 || !dieBulk p.d p.baddr (slotSize p.bf p.nblk)
def Page.badFrame (p : Page) : Bool := p.w0 % 65536 != 0 || !dieHbm p.d p.frame 65536

/-- n bytes read for the streamer: data, the page's STATUS, or 0 where the read waits. -/
def State.cxsRead (s : State) (a n : Nat) : State × Except Nat Nat :=
  if s.offlineAt a then (s, .error 6)
  else match s.memRead .cxs a n with
    | (s, .ok v) => (s, .ok v)
    | (s, .error (.held, _)) => (s, .error 0)
    | (s, .error _) => (s, .error 2)

/-- n bytes v written by the streamer of die d, in HBM, the bulk tier, a scratch way or a tile store: nothing, the page's
STATUS, or 0 where the write waits at its home or for the move of a tile (R253). -/
def State.cxsWrite (s : State) (d a n v : Nat) : State × Option Nat :=
  if !s.reach d (dieOf a) then (s.rasEvent d 0x14 2 0 0 a, some 2)
  else if s.holds d (dieOf a) then (s, some 0)
  else
    let told (r : State × Option (MemFail × Nat)) : State × Option Nat :=
      (r.1, r.2.map fun e => match e.1 with | .held => 0 | .access => 1 | .uncorr => 2)
    match regionOf a with
    | .store t => if s.stilled t then (s, some 0) else told (s.storeWriteTold a n v)
    | .scratch _ _ => told (s.memWrite .cxs d a n v)
    | _ => if s.offlineAt a then (s, some 6) else told (s.memWrite .cxs d a n v)

-- log 63: DEDUCED, safe.
/-- The entry of a page gets a new STATE, and a FRAME where one is resident; the FRAME of other states is left open. -/
def State.setEntry (s : State) (p : Page) (st : Nat) (frame : Option Nat) : State × Option Nat :=
  let r := s.fresh
  let f := match frame with | some a => a / 65536 | none => r.1.toNat % 2 ^ 32
  let s := if frame.isSome then s else r.2
  match s.cxsWrite p.d p.entry 16 (st * 2 ^ 48 + f * 65536 + p.w1 * 2 ^ 64) with
  | (s, some e) => (s, some e)
  | (s, none) =>
    let n := s.fld (CXS_CTX_RESIDENT p.d p.ctx) CXS_CTX_RESIDENT_RESIDENT
    let n := n + (if 2 ≤ st then 1 else 0) - (if 2 ≤ p.state then 1 else 0)
    (s.setf (CXS_CTX_RESIDENT p.d p.ctx) CXS_CTX_RESIDENT_RESIDENT n, none)

/-- R246: the marks of a converted page reach the watch of the die. -/
def State.cxsObserve (s : State) (d tag : Nat) (marks : List Nat) : State :=
  if tag = 0 ∨ marks.isEmpty ∨ !s.bit (NWT_CTRL d) NWT_CTRL_EN then s
  else s.watchApply { tile := 256 + d, tag := tag, marks := marks }

/-- A page is copied, with conversion from format f to g, from a to b. -/
def State.pageMove (s : State) (p : Page) (f g a b : Nat) : State × Option Nat :=
  match s.cxsRead a (pageSize f p.nblk) with
  | (s, .error e) => (s, some e)
  | (s, .ok v) =>
    let r := pageConvert f g p.recipe p.nblk v
    match s.cxsWrite p.d b (pageSize g p.nblk) r.1 with
    | (s, some e) => (s, some e)
    | (s, none) => (s.cxsObserve p.d p.tag r.2, none)

/-- A page that needs a frame: `act` on the frame, which returns to the pool unless the page is done (R244). -/
def State.withFrame (s : State) (p : Page) (act : State → Nat → State × PageEnd) : State × PageEnd :=
  match s.poolTake p.d (s.poolCount p.d + 1) with
  | (s, .empty) => (s, .wait)
  | (s, .held) => (s, .held)
  | (s, .frame fr) =>
    match act s fr with
    | (s, .done) => (s, .done)
    | (s, e) => (s.untake p.d, e)

/-- FETCH of a page in STATE BULK. -/
def State.pageFetch (s : State) (p : Page) : State × PageEnd :=
  if p.badSlot then (s, .fail 1)
  else if s.offlineAt p.baddr then (s, .fail 6)
  else s.withFrame p fun s fr =>
    match s.pageMove p p.bf p.hf p.baddr fr with
    | (s, some e) => (s, .of e)
    | (s, none) => match s.setEntry p 2 (some fr) with
      | (s, some e) => (s, .of e)
      | (s, none) => (s, .done)

/-- The frame of a resident page is written to its bulk slot, where it is stale, and its entry gets STATE st; the frame is
freed unless the page stays resident (EVICT, WRITEBACK, DROP). -/
def State.pageBack (s : State) (p : Page) (write : Bool) (st : Nat) : State × PageEnd :=
  if p.badFrame || (write && p.badSlot) then (s, .fail 1)
  else
    let r := if write then s.pageMove p p.hf p.bf p.frame p.baddr else (s, none)
    match r with
    | (s, some e) => (s, .of e)
    | (s, none) =>
      match s.setEntry p st (if 2 ≤ st then some p.frame else none) with
      | (s, some e) => (s, .of e)
      | (s, none) => (if 2 ≤ st then s else s.poolFree p.d p.frame, .done)

/-- n bytes from a lie in a populated tile-store window or in scratch ways (R244, R245). -/
def State.stageOk (s : State) (a n : Nat) : Bool :=
  match regionOf a with
  | .store t => inStore t a n
  | .scratch d w => match regionOf (a + n - 1) with
    | .scratch e v => d == e && (List.range 16).all fun i => i < w || v < i || s.scratchOk d i
    | _ => false
  | _ => false

/-- STAGE of a page to address b in format f (R245). -/
def State.pageStage (s : State) (p : Page) (f b : Nat) : State × PageEnd :=
  let g := if p.state = 1 then p.bf else p.hf
  let a := if p.state = 1 then p.baddr else p.frame
  if p.state = 0 ∨ (if p.state = 1 then p.badSlot else p.badFrame) ∨ !s.stageOk b (pageSize f p.nblk) then (s, .fail 1)
  else match s.cxsRead a (pageSize g p.nblk) with
    | (s, .error e) => (s, .of e)
    | (s, .ok v) =>
      let r := pageConvert g f p.recipe p.nblk v
      match s.cxsWrite p.d b (pageSize f p.nblk) r.1 with
      | (s, some e) => (s, .of e)
      | (s, none) => (s.cxsObserve p.d p.tag r.2, .done)

/-- APPEND of a page (R245, Table 9.8): the frame keeps its contents. -/
def State.pageAppend (s : State) (p : Page) : State × PageEnd :=
  if p.state ≠ 0 then (s, .fail 1)
  else s.withFrame p fun s fr =>
    match s.setEntry p 3 (some fr) with
    | (s, some e) => (s, .of e)
    | (s, none) =>
      let a := CXS_CTX_NPAGES p.d p.ctx
      (s.setf a CXS_CTX_NPAGES_NPAGES (s.fld a CXS_CTX_NPAGES_NPAGES + 1), .done)

/-- The operation of command c on page n (Table 9.8, R244). -/
def State.pageStep (s : State) (d : Nat) (c : CxsCmd) (n : Nat) : State × PageEnd :=
  let v := s.rd (CXS_CTX_CTRL d c.ctx)
  let e := s.addr (CXS_CTX_PT_BASE d c.ctx) CXS_CTX_PT_BASE_PT_BASE + 16 * n
  if c.op = 4 ∧ s.fld (CXS_CTX_PT_LEN d c.ctx) CXS_CTX_PT_LEN_PT_LEN ≤ n then (s, .fail 1)
  else match s.cxsRead e 16 with
    | (s, .error q) => (s, .of q)
    | (s, .ok w) =>
      let p : Page :=
        { d := d, ctx := c.ctx, entry := e, w0 := w % 2 ^ 64, w1 := w / 2 ^ 64, hf := CXS_CTX_CTRL_HBM_FMT.get v
          bf := CXS_CTX_CTRL_BULK_FMT.get v, nblk := CXS_CTX_CTRL_NBLK.get v, recipe := CXS_CTX_CTRL_RECIPE.get v
          tag := CXS_CTX_CTRL_TAG.get v }
      if p.w0 / 2 ^ 50 ≠ 0 ∨ p.w1 / 2 ^ 48 ≠ 0 then (s, .fail 5)
      else match c.op, p.state with
        | 1, 1 => s.pageFetch p
        | 2, 2 => s.pageBack p false 1
        | 2, 3 => s.pageBack p true 1
        | 3, _ =>
          let size := (pageSize c.sfmt p.nblk + 127) / 128 * 128
          s.pageStage p c.sfmt (c.dst + (n - c.first) * size)
        | 4, _ => s.pageAppend p
        | 5, 3 => s.pageBack p true 2
        | 6, 1 => match s.setEntry p 0 none with | (s, some q) => (s, .of q) | (s, none) => (s, .done)
        | 6, 2 => s.pageBack p false 0
        | 6, 3 => s.pageBack p false 0
        | _, _ => (s, .done)

/-! ### Commands -/

/-- The next page of a command. -/
def State.nextPage (s : State) (d : Nat) (c : CxsCmd) : Nat :=
  if c.op = 4 then s.fld (CXS_CTX_NPAGES d c.ctx) CXS_CTX_NPAGES_NPAGES else c.first + c.done

/-- R247: a command submitted before the i-th, of the same context, has still to perform page n. -/
def State.pageBehind (s : State) (d i : Nat) (c : CxsCmd) (n : Nat) : Bool :=
  ((s.cxsQueue d).take i).any fun e =>
    e.ctx == c.ctx && e.ending.isNone && s.nextPage d e ≤ n && n < s.nextPage d e + (e.count - e.done)

-- log 64: DEDUCED, unsafe.
/-- The pages of the i-th command one after the other: until all are done, one fails, or one must wait. -/
def State.cxsRun (s : State) (d i : Nat) (c : CxsCmd) : Nat → State × CxsCmd × Option Nat
  | 0 => (s, c, some 0)
  | fuel + 1 =>
    let n := s.nextPage d c
    if s.pageBehind d i c n then (s, c, none)
    else match s.pageStep d c n with
      | (s, .done) =>
        let s := s.wrap (CXS_CNT_PAGES d) CXS_CNT_PAGES_VALUE 1 (CXS_STATUS d) CXS_STATUS_PAGES_OVF
        State.cxsRun s d i { c with done := c.done + 1, waits := false } fuel
      | (s, .wait) => (s, { c with waits := true }, none)
      | (s, .held) => (s, c, none)
      | (s, .fail e) => (s, c, some e)

-- log 64: DEDUCED, unsafe.
/-- R249: the i-th command, as it stands in c, ends: its record, then its buckle; it leaves the queue. Where the record must
wait (R253, R355) it stays until then. -/
def State.cxsFinish (s : State) (d i : Nat) (c : CxsCmd) (status : Nat) : State :=
  let late := status ≠ 4 && !after c.due s.now
  let w0 := status * 2 ^ 56 + (if late then 2 ^ 55 else 0) + (c.first + c.done) % 2 ^ 24
  let v := w0 + s.now.toNat % 2 ^ 32 * 2 ^ 96
  match if c.crec = 0 then (s, none) else s.cxsWrite d c.crec 16 v with
  | (s, some 0) => s.setCxsQueue d ((s.cxsQueue d).set i { c with ending := some status })
  | (s, _) =>
    let s := s.setCxsQueue d ((s.cxsQueue d).eraseIdx i)
    let s := if status = 3 then s.unholdAll .cxs d else s
    let s := if late then s.stick (CXS_CNT_LATE d) CXS_CNT_LATE_COUNT 1 else s
    (match c.cb with | some b => s.bkAdd b 1 | none => s).cxsSettle d

/-- R243: the CODE with which a command is rejected; the words are those of Table 9.7. -/
def State.cxsReject (s : State) (d : Nat) (w0 w2 w3 : Word) : Option Nat :=
  let op := w0.toNat / 2 ^ 56 % 16
  let c := w0.toNat / 2 ^ 48 % 128
  let count := w0.toNat / 2 ^ 24 % 2 ^ 24
  let first := w0.toNat % 2 ^ 24
  let sfmt := w2.toNat / 2 ^ 59
  let dst := w2.toNat % 2 ^ 48
  let crec := w3.toNat % 2 ^ 48
  let v := s.rd (CXS_CTX_CTRL d c)
  let recOk := crec == 0 || (crec % 16 == 0 && (match regionOf crec with
    | .hbm _ => true | .scratch _ _ => true | .store _ => true | .storeHole _ => true | _ => false))
  if w0.toNat / 2 ^ 60 ≠ 0 ∨ w0.getLsbD 55 ∨ w2.toNat / 2 ^ 48 % 2 ^ 11 ≠ 0 ∨ w3.getLsbD 48 ∨ 24 ≤ sfmt then some 1
  else if op = 0 ∨ 6 < op ∨ !s.bit (CXS_CTX_CTRL d c) CXS_CTX_CTRL_EN ∨ count = 0 ∨
      s.fld (CXS_CTX_PT_LEN d c) CXS_CTX_PT_LEN_PT_LEN < first + count ∨ (op = 4 ∧ first ≠ 0) ∨
      (op = 3 ∧ (!pageFormats sfmt (CXS_CTX_CTRL_HBM_FMT.get v) ∨ !pageFormats sfmt (CXS_CTX_CTRL_BULK_FMT.get v) ∨
        dst % 128 ≠ 0)) ∨ (op ≠ 3 ∧ (sfmt ≠ 0 ∨ dst ≠ 0)) ∨ !recOk then some 2
  else if 256 ≤ (s.cxsQueue d).length then some 3
  else if !s.bit (CXS_CTRL d) CXS_CTRL_EN then some 5
  else none

/-- R242: the stroke number nearest to now whose low 32 bits are n. -/
def State.nearStroke (s : State) (n : Nat) : Word :=
  let d := (BitVec.ofNat 32 n - s.now.setWidth 32).signExtend 64
  s.now + d

-- log 64: DEDUCED, unsafe.
/-- The write of doubleword 3 of slot i submits what stands in the slot (R243). -/
def State.cxsSubmit (s : State) (d i : Nat) : State :=
  let w0 := s.rd (CXS_SUB_W0 d i)
  let w1 := s.rd (CXS_SUB_W1 d i)
  let w2 := s.rd (CXS_SUB_W2 d i)
  let w3 := s.rd (CXS_SUB_W3 d i)
  match s.cxsReject d w0 w2 w3 with
  | some code => s.wr (CXS_SUB_STATUS d i) (BitVec.ofNat 64 (2 ^ 63 + code))
  | none =>
    let c : CxsCmd :=
      { slot := i, op := w0.toNat / 2 ^ 56 % 16, ctx := w0.toNat / 2 ^ 48 % 128, first := w0.toNat % 2 ^ 24
        count := w0.toNat / 2 ^ 24 % 2 ^ 24, start := s.nearStroke (w1.toNat / 2 ^ 32), due := s.nearStroke (w1.toNat % 2 ^ 32)
        sfmt := w2.toNat / 2 ^ 59, dst := w2.toNat % 2 ^ 48
        cb := if w3.getLsbD 63 then some (w3.toNat / 2 ^ 49 % 2 ^ 14) else none
        crec := w3.toNat % 2 ^ 48, running := false, done := 0, waits := false, ending := none }
    (s.wr (CXS_SUB_STATUS d i) 0).setCxsQueue d (s.cxsQueue d ++ [c])

/-- R252: who may write offset o of the CXS_ block of die d. -/
def cxsMay (m : Master) (d o : Nat) : Bool :=
  let sub := 0x1000 ≤ o && o < 0x1908
  let i := if o < 0x1800 then (o - 0x1000) / 0x20 else (o - 0x1800) / 8
  match m with
  | .tile t => t / 32 == d && (!sub || i == t % 32)
  | .host => false
  | _ => !sub || i == 32

/-- A write of v to CTRL of context c (R250, R251). -/
def State.ctxWrite (s : State) (d c : Nat) (v : Word) : State :=
  let a := CXS_CTX_CTRL d c
  let old := s.rd a
  let on := CXS_CTX_CTRL_EN.get v == 1
  let busy := s.bit a CXS_CTX_CTRL_EN || s.bit a CXS_CTX_CTRL_ACTIVE
  let same := (v ^^^ old) &&& 0x0000FFE7FEFFF000 == 0
  let en (s : State) (on : Bool) := s.writeEnable (.context d c) a CXS_CTX_CTRL_EN a CXS_CTX_CTRL_ACTIVE on
  if busy then
    let s := if same then s else s.setf (CXS_STATUS d) CXS_STATUS_ARG_ERR 1
    (en s on).cxsSettle d
  else
    let s := s.put a (CXS_CTX_CTRL_EN.put v 0)
    if on then
      match s.ctxBad d c v with
      | 0 => en s true
      | 1 => s.setf (CXS_STATUS d) CXS_STATUS_VER_ERR 1
      | _ => s.setf (CXS_STATUS d) CXS_STATUS_ARG_ERR 1
    else s

/-- A write of v at offset o of the CXS_ block of die d (R241, R243, R250 to R252). -/
def State.cxsRegWrite (s : State) (m : Master) (d o : Nat) (v : Word) : State :=
  let a := CXS_CTRL d + o
  let c := (o - 0x4000) / 0x40
  if !cxsMay m d o then s.setf (CXS_STATUS d) CXS_STATUS_PERM_ERR 1
  else if o = 0x20 then
    let fr := CXS_POOL_ADD_FRAME.get v * 65536
    if v.toNat / 2 ^ 48 ≠ 0 then s.setf (CXS_STATUS d) CXS_STATUS_VER_ERR 1
    else if v.toNat % 65536 ≠ 0 ∨ !dieHbm d fr 65536 ∨ s.pageRetired (memOf fr) fr then s.poolErr d
    else s.poolPut d fr
  else if rsvBad a v then s.setf (CXS_STATUS d) CXS_STATUS_VER_ERR 1
  else if o = 0 then
    let s := s.setf a CXS_CTRL_SHARE (CXS_CTRL_SHARE.get v)
    (s.writeEnable (.streamer d) a CXS_CTRL_EN (CXS_STATUS d) CXS_STATUS_ACTIVE (v.getLsbD 0)).cxsSettle d
  else if o = 0x10 then
    let sz := CXS_POOL_BASE_SZ.get v
    let base := CXS_POOL_BASE_BASE.get v * 4096
    if s.bit (CXS_CTRL d) CXS_CTRL_EN || s.bit (CXS_STATUS d) CXS_STATUS_ACTIVE || sz < 4 || 20 < sz ||
      !dieHbm d base (8 * 2 ^ sz) then s.poolErr d
    else (s.put a v).wr (CXS_POOL_PTR d) 0
  else if 0x1000 ≤ o ∧ o < 0x1420 then
    let s := s.put a v
    if o % 0x20 = 0x18 then s.cxsSubmit d ((o - 0x1000) / 0x20) else s
  else if 0x4000 ≤ o ∧ o < 0x6000 then
    if o % 0x40 = 0 then s.ctxWrite d c v
    else if s.bit (CXS_CTX_CTRL d c) CXS_CTX_CTRL_EN || s.bit (CXS_CTX_CTRL d c) CXS_CTX_CTRL_ACTIVE then
      s.setf (CXS_STATUS d) CXS_STATUS_ARG_ERR 1
    else s.put a v
  else s.put a v

/-- The four doublewords of a submission slot are written, with operation op in the first. -/
def State.cxsWords (s : State) (m : Master) (d : BitVec 3) (i : BitVec 6) (op : Nat) (w0 w1 w2 w3 : Word) : State :=
  if 32 < i.toNat then s
  else
    let o := 0x1000 + 0x20 * i.toNat
    let v := Fld.put ⟨56, 4⟩ w0 op
    (((s.cxsRegWrite m d.toNat o v).cxsRegWrite m d.toNat (o + 8) w1).cxsRegWrite m d.toNat (o + 16) w2).cxsRegWrite m d.toNat (o + 24) w3

def execFetch (m : Master) (d : BitVec 3) (i : BitVec 6) (w0 w1 w2 w3 : Word) (s : State) : Outcome :=
  .next (s.cxsWords m d i 1 w0 w1 w2 w3)
def execEvict (m : Master) (d : BitVec 3) (i : BitVec 6) (w0 w1 w2 w3 : Word) (s : State) : Outcome :=
  .next (s.cxsWords m d i 2 w0 w1 w2 w3)
def execStage (m : Master) (d : BitVec 3) (i : BitVec 6) (w0 w1 w2 w3 : Word) (s : State) : Outcome :=
  .next (s.cxsWords m d i 3 w0 w1 w2 w3)
def execAppend (m : Master) (d : BitVec 3) (i : BitVec 6) (w0 w1 w2 w3 : Word) (s : State) : Outcome :=
  .next (s.cxsWords m d i 4 w0 w1 w2 w3)
def execWriteback (m : Master) (d : BitVec 3) (i : BitVec 6) (w0 w1 w2 w3 : Word) (s : State) : Outcome :=
  .next (s.cxsWords m d i 5 w0 w1 w2 w3)
def execDrop (m : Master) (d : BitVec 3) (i : BitVec 6) (w0 w1 w2 w3 : Word) (s : State) : Outcome :=
  .next (s.cxsWords m d i 6 w0 w1 w2 w3)
def execCxsPoolAdd (m : Master) (d : BitVec 3) (v : Word) (s : State) : Outcome := .next (s.cxsRegWrite m d.toNat 0x20 v)
def execCxsPoolBaseWrite (m : Master) (d : BitVec 3) (v : Word) (s : State) : Outcome := .next (s.cxsRegWrite m d.toNat 0x10 v)
def execCxsEn (m : Master) (d : BitVec 3) (v : Word) (s : State) : Outcome := .next (s.cxsRegWrite m d.toNat 0 v)
def execContextEn (m : Master) (d : BitVec 3) (c : BitVec 7) (v : Word) (s : State) : Outcome :=
  .next (s.cxsRegWrite m d.toNat (0x4000 + 0x40 * c.toNat) v)

/-- The eligible command that runs next: the earliest DUE, the earliest submission where DUE is equal (R247). -/
def State.cxsPick (s : State) (q : List CxsCmd) : Option CxsCmd :=
  (q.filter fun c => !c.running && !after c.start s.now).foldl (fun best c =>
    match best with
    | none => some c
    | some b => if after b.due c.due then some c else some b) none

/-- Commands begin while fewer than 16 run. -/
def State.cxsBegin (s : State) (q : List CxsCmd) : Nat → List CxsCmd
  | 0 => q
  | fuel + 1 =>
    match s.cxsPick q with
    | none => q
    | some c => State.cxsBegin s (q.replace c { c with running := true }) fuel

/-- CXS_ELIGIBLE: commands whose START has come begin to run (R247). In Easy the queue is held (R249). -/
def execCxsEligible (d : BitVec 3) (s : State) : Outcome :=
  let n := d.toNat
  let q := s.cxsQueue n
  .next (if s.bit DEV_STATUS DEV_STATUS_EASY then s
    else s.setCxsQueue n (s.cxsBegin q (16 - (q.filter (·.running)).length)))

/-- CXS_COMPLETE: the i-th command of die d performs its pages and, when all are done or one fails, completes (R244,
R249). It stays where a page must wait for a frame, for an earlier command or at a home (R247, R248, R355). -/
def execCxsComplete (d : BitVec 3) (i : BitVec 8) (s : State) : Outcome :=
  let n := d.toNat
  let k := i.toNat
  .next (match (s.cxsQueue n)[k]? with
    | none => s
    | some c =>
      if !(c.running || c.ending.isSome) || s.bit DEV_STATUS DEV_STATUS_EASY then s
      else
        let s := s.poolFlush n (s.poolLate n).length
        match c.ending with
        | some st => s.cxsFinish n k c st
        | none =>
          let r := s.cxsRun n k c (c.count - c.done)
          match r.2.2 with
          | none => r.1.setCxsQueue n ((r.1.cxsQueue n).set k r.2.1)
          | some st => r.1.cxsFinish n k r.2.1 st)

/-- CXS_DUE: at the catch of DUE a FETCH or APPEND still waits for a frame (R248). In Easy the queue is held (R249). -/
def execCxsDue (d : BitVec 3) (i : BitVec 8) (s : State) : Outcome :=
  let n := d.toNat
  .next (match (s.cxsQueue n)[i.toNat]? with
    | none => s
    | some c =>
      if c.running && c.waits && c.ending.isNone && !after c.due s.now && s.poolCount n == 0 &&
        !s.bit DEV_STATUS DEV_STATUS_EASY then s.cxsFinish n i.toNat c 4
      else s)

/-- Commands that satisfy p end with ABORTED_DISABLE (R250), the latest first. -/
def State.cxsAbort (s : State) (d : Nat) (p : CxsCmd → Bool) : State :=
  ((s.cxsQueue d).zipIdx.foldr (fun e s => if p e.1 ∧ e.1.ending = none then s.cxsFinish d e.2 e.1 3 else s) s).cxsSettle d

/-- CXS_DRAIN_LIMIT: the drain of the streamer (ctx 128 and above) or of a context expires (R250); not in Easy, which holds the
queue (R249). -/
def execCxsDrainLimit (d : BitVec 3) (ctx : BitVec 8) (s : State) : Outcome :=
  let n := d.toNat
  let c := ctx.toNat
  .next (if s.bit DEV_STATUS DEV_STATUS_EASY then s
    else if c < 128 then (if s.drainExpired (.context n c) 1024 then s.cxsAbort n (·.ctx == c) else s)
    else if s.drainExpired (.streamer n) 1024 then s.cxsAbort n fun _ => true else s)

end Sys2Proof.Machine
end

