-- ==== Sys2Proof/Machine/Crew.lean ====
section
/-!
DEFINITION. The crew engine: submissions (R332), fixed-tree reductions and moves (R333 to R337), deadlines (R338), epochs
(R328 to R330), and the enable (R343).
-/
namespace Sys2Proof.Machine

/-! ### Elements -/

/-- R335: rule set 2 carries these sums in FP64 between nodes. -/
def carries (rules f red : Nat) : Bool := rules == 2 && red == 0 && (f == 1 || f == 2 || f == 3)
def carriedW (rules f red : Nat) : Nat := if carries rules f red then 64 else fmtW f

/-- n elements of w bits of a byte string held as a number. -/
def unpack (w n v : Nat) : List Nat := (List.range n).map fun i => v / 2 ^ (w * i) % 2 ^ w
def pack (w : Nat) : List Nat → Nat
  | [] => 0
  | x :: r => x % 2 ^ w + 2 ^ w * pack w r

/-- An element of SRC as it is carried, and its flags. -/
def lift (rules f red x : Nat) : Nat × Nat := if carries rules f red then fp64.ofV 0 ((fpOf f).decode x) else (x, 0)
/-- A carried result as an element of FMT (R335). -/
def lower (rules f red x : Nat) : Nat × Nat := if carries rules f red then (fpOf f).ofV 0 (fp64.decode x) else (x, 0)
def combine (rules f red a b : Nat) : Nat × Nat :=
  if carries rules f red then fp64.addV 0 (fp64.decode a) (fp64.decode b) else rdElem f red a b

/-- A map over elements that ORs the flags. -/
def mapFlags (f : Nat → Nat × Nat) : List Nat → List Nat × Nat
  | [] => ([], 0)
  | x :: r => let a := f x; let q := mapFlags f r; (a.1 :: q.1, Nat.lor a.2 q.2)

def zipFlags (f : Nat → Nat → Nat × Nat) : List Nat → List Nat → List Nat × Nat
  | x :: r, y :: t => let a := f x y; let q := zipFlags f r t; (a.1 :: q.1, Nat.lor a.2 q.2)
  | _, _ => ([], 0)

-- log 158: DESIGN CHOICE, safe.
/-- The value of an element outside MX, E8M0 among them (Table 6.1); and an element of format g from a value: for E8M0,
which no row of Table 6.5 has as a destination, the code is free. -/
def plainVal (f e : Nat) : FVal :=
  if f = 0x16 then (if e = 255 then .nan false else .fin false 1 ((e : Int) - 127)) else valOf f e
-- log 158: DESIGN CHOICE, safe.
def plainElem (g : Nat) (v : FVal) : Nat × Nat :=
  if g = 0x16 then ((Config.scaleCode (BitVec.ofNat 64 (fp64.ofV 0 v).1)).toNat, 0)
  else let r := cvtVal 0 g v; (r.1, r.2.1)

/-- R335: the bytes v (len of them) in format f converted to format g, with the length of the result and the flags. MX data
hold their elements, then one scale byte per block (R237). -/
def convBytes (f g recipe len v : Nat) : Nat × Nat × Nat :=
  let wf := fmtW f
  let wg := fmtW g
  let n := if isMX f then len / (4 * wf + 1) * 32 else 8 * len / wf
  let nb := n / 32
  let scale (j : Nat) : Nat := v / 256 ^ (nb * 4 * wf + j) % 256
  let vals := (List.range n).map fun i =>
    let e := v / 2 ^ (wf * i) % 2 ^ wf
    if isMX f then mxDecode f e (scale (i / 32)) else plainVal f e
  if isMX g then
    let bs := (List.range nb).map fun j => mxBlock g recipe ((vals.drop (32 * j)).take 32)
    let els := bs.foldl (fun l b => l ++ b.2.1.map (·.1)) []
    (pack wg els + pack 8 (bs.map (·.1)) * 256 ^ (nb * 4 * wg), nb * (4 * wg + 1), bs.foldl (fun m b => Nat.lor m b.2.2) 0)
  else
    let rs := vals.map (plainElem g)
    (pack wg (rs.map (·.1)), n * wg / 8, rs.foldl (fun m r => Nat.lor m r.2) 0)

/-- The bytes an operation moves for its LEN source bytes. -/
def CrewOp.outLen (o : CrewOp) : Nat := if o.conv then (convBytes o.fmt o.ofmt 0 o.len 0).2.1 else o.len

/-! ### Chunks and positions (R334) -/

def Crew.rotOf (c : Crew) (o : CrewOp) (idx : Nat) : Nat :=
  if o.op = 2 then (c.rankOf o.peer).getD 0 else idx % max 1 (min c.rot c.n)
/-- The position of rank r for a chunk, and the member at a position. -/
def Crew.posOf (c : Crew) (o : CrewOp) (idx r : Nat) : Nat := (r + c.n - c.rotOf o idx % max 1 c.n) % max 1 c.n
def Crew.atPos (c : Crew) (o : CrewOp) (idx q : Nat) : Option Member := c.members[(q + c.rotOf o idx) % max 1 c.n]?

def Crew.chunkBytes (c : Crew) (o : CrewOp) (idx : Nat) : Nat := min (2 ^ c.chunk) (o.len - idx * 2 ^ c.chunk)
def Crew.chunkElems (c : Crew) (o : CrewOp) (idx : Nat) : Nat := 8 * c.chunkBytes o idx / fmtW o.fmt

/-- The elements of a chunk received at a level, once all are there. -/
def Chunk.take (ch : Chunk) (level n : Nat) : Option (List Nat) :=
  let at_ (i : Nat) : Option Nat :=
    (ch.rx.find? fun p => p.level == level && p.first ≤ i && i < p.first + p.vals.length).bind fun p => p.vals[i - p.first]?
  let vs := (List.range n).map at_
  if vs.all Option.isSome then some (vs.map (·.getD 0)) else none

/-! ### Packets -/

/-- A packet of operation o to member m: kind, byte offset, data. -/
def State.collTo (s : State) (c : Crew) (o : CrewOp) (typ : Nat) (m : Member) (kind off n data : Nat) : State :=
  let q : CollPkt := { crew := m.crew, mem := c.own, kind := kind, phase := o.phase, opid := o.opid, off := off, op := o.op, red := o.red
                       fmt := o.fmt, oplen := o.len, flags := o.flags, n := n, data := data }
  match m.ctx with | some x => s.ectSend x typ q.body | none => s

/-- Elements in packets of at most 4,096 data bytes. -/
def State.collElems (s : State) (c : Crew) (o : CrewOp) (m : Member) (kind off w : Nat) : List Nat → Nat → State
  | _, 0 => s
  | vs, n + 1 =>
    if vs.isEmpty then s else
    let k := 8 * 4096 / w
    let d := vs.take k
    (s.collTo c o 3 m kind off (d.length * w / 8) (pack w d)).collElems c o m kind (off + k * fmtW o.fmt / 8) w (vs.drop k) n

/-- Bytes to member m in packets of at most 4,096. -/
def State.collBytes (s : State) (c : Crew) (o : CrewOp) (typ : Nat) (m : Member) (off len v : Nat) : Nat → State
  | 0 => s
  | n + 1 =>
    if len = 0 then s else
    let k := min 4096 len
    (s.collTo c o typ m 3 off k (v % 256 ^ k)).collBytes c o typ m (off + k) (len - k) (v / 256 ^ k) n

/-- The members other than this module. -/
def Crew.others (c : Crew) : List Member := c.members.filter fun m => m.num ≠ c.own

/-! ### Reductions -/

def CrewOp.who (o : CrewOp) : CrewWho := .op o.crew o.phase o.opid

/-- A result chunk is stored: whole, or the part of this rank for REDUCE_SCATTER (Table 13.7). -/
def State.storeResult (s : State) (c : Crew) (o : CrewOp) (idx : Nat) (vs : List Nat) : State × Option Nat :=
  let w := fmtW o.fmt
  let lo := idx * 2 ^ c.chunk
  let n := c.chunkBytes o idx
  if o.op = 5 then
    let b := o.len / max 1 c.n
    let from_ := max lo (c.rank * b)
    let end_ := min (lo + n) ((c.rank + 1) * b)
    if end_ ≤ from_ then (s, none)
    else s.crewWrite o.who (o.dst + (from_ - c.rank * b)) (end_ - from_) (pack w (vs.drop ((from_ - lo) * 8 / w)) % 256 ^ (end_ - from_))
  else s.crewWrite o.who (o.dst + lo) n (pack w vs)

-- log 41: DESIGN CHOICE, safe.
/-- Chunk ch of operation o as far as the partials that have come allow; answers the operation with its flags and failure. -/
def State.chunkWork (s : State) (c : Crew) (o : CrewOp) (ch : Chunk) : Nat → State × CrewOp × Chunk
  | 0 => (s, o, ch)
  | fuel + 1 =>
    if o.fail.isSome ∨ ch.stored then (s, o, ch) else
    let q := c.posOf o ch.idx c.rank
    let n := c.chunkElems o ch.idx
    let off := ch.idx * 2 ^ c.chunk
    let w := carriedW c.rules o.fmt o.red
    if ch.level < levelsOf c.n q then
      if c.n ≤ q + 2 ^ ch.level then s.chunkWork c o { ch with level := ch.level + 1 } fuel
      else
        match ch.take ch.level n with
        | none => (s, o, ch)
        | some vs =>
          let r := zipFlags (combine c.rules o.fmt o.red) ch.part vs
          s.chunkWork c { o with flags := Nat.lor o.flags r.2 } { ch with level := ch.level + 1, part := r.1 } fuel
    else if q = 0 then
      let r := mapFlags (lower c.rules o.fmt o.red) ch.part
      let o := { o with flags := Nat.lor o.flags r.2 }
      let s := if o.op = 2 then s else
        (childrenOf c.n 0).foldl (fun s k => match c.atPos o ch.idx k with
          | some m => s.collElems c o m 1 off (fmtW o.fmt) r.1 (n + 1) | none => s) s
      let st := s.storeResult c o ch.idx r.1
      (st.1, { o with fail := st.2 }, { ch with stored := true, sent := true })
    else
      let s := if ch.sent then s else
        match c.atPos o ch.idx (q - 2 ^ levelsOf c.n q) with
        | some m => s.collElems c o m 0 off w ch.part (n + 1)
        | none => s
      let ch := { ch with sent := true }
      if o.op = 2 then (s, o, { ch with stored := true })
      else
        match ch.take 255 n with
        | none => (s, o, ch)
        | some vs =>
          let s := (childrenOf c.n q).foldl (fun s k => match c.atPos o ch.idx k with
            | some m => s.collElems c o m 1 off (fmtW o.fmt) vs (n + 1) | none => s) s
          let st := s.storeResult c o ch.idx vs
          (st.1, { o with fail := st.2 }, { ch with stored := true })

/-- Every chunk of an operation as far as it can go. -/
def State.opWork (s : State) (c : Crew) (o : CrewOp) : State :=
  let r := o.chunks.foldl (fun (a : State × CrewOp × List Chunk) ch =>
    let q := a.1.chunkWork c a.2.1 ch 40
    (q.1, q.2.1, a.2.2 ++ [q.2.2])) (s, o, [])
  r.1.putOp { r.2.1 with chunks := r.2.2 }

/-- R336: the operation ends with MISMATCH; marks go toward the root for the chunks whose partial has not left, and down
from the root. -/
def State.opMismatch (s : State) (c : Crew) (o : CrewOp) (down : Bool) : State :=
  if o.fail.isSome then s else
  let s := if 3 ≤ o.op ∧ o.op ≠ 5 then s else
    o.chunks.foldl (fun s ch =>
      let q := c.posOf o ch.idx c.rank
      let off := ch.idx * 2 ^ c.chunk
      let dests := if down ∨ q = 0 then (if o.op = 2 then [] else childrenOf c.n q) else if ch.sent then [] else [q - 2 ^ levelsOf c.n q]
      dests.foldl (fun s k => match c.atPos o ch.idx k with | some m => s.collTo c o 3 m 2 off 0 0 | none => s) s) s
  s.putOp { o with fail := some 6 }

-- log 42: DEDUCED, unsafe.
/-- A COLL packet for the started operation o. -/
def State.collWork (s : State) (c : Crew) (o : CrewOp) (q : CollPkt) : State :=
  if q.kind = 2 then
    if o.op = 7 then s.putOp { o with fail := some 7 }
    else
      let idx := q.off / 2 ^ c.chunk
      let mine := c.posOf o idx c.rank
      let his := c.posOf o idx ((c.rankOf q.mem).getD 0)
      s.opMismatch c o (mine ≠ 0 ∧ his = mine - 2 ^ levelsOf c.n mine)
  else if q.op ≠ o.op ∨ q.red ≠ o.red ∨ q.fmt ≠ o.fmt ∨ q.oplen ≠ o.len then s.opMismatch c o false
  else if q.kind = 3 then
    if o.op = 6 then s.putOp { o with barrier := if o.barrier.contains q.mem then o.barrier else o.barrier ++ [q.mem] }
    else
      let w := s.crewWrite o.who (o.dst + q.off) q.n q.data
      w.1.putOp { o with moved := o.moved ++ [(q.off, q.n)], fail := if o.fail.isSome then o.fail else w.2 }
  else
    let idx := q.off / 2 ^ c.chunk
    let w := if q.kind = 0 then carriedW c.rules o.fmt o.red else fmtW o.fmt
    let level := if q.kind = 1 then 255 else levelsOf c.n (c.posOf o idx ((c.rankOf q.mem).getD 0))
    let p : ChunkPart := { level := level, first := q.off % 2 ^ c.chunk * 8 / fmtW o.fmt, vals := unpack w (8 * q.n / w) q.data }
    let chunks := o.chunks.map fun ch => if ch.idx = idx then { ch with rx := ch.rx ++ [p] } else ch
    s.opWork c { o with chunks := chunks, flags := Nat.lor o.flags q.flags }

def State.opOf (s : State) (crew phase opid : Nat) : Option CrewOp := s.fabric.ops.find? fun o => o.same crew phase opid

-- log 41: DESIGN CHOICE, safe.
/-- R334: a packet for an operation that has not started here waits for it. -/
def State.collRx (s : State) (q : CollPkt) : State :=
  match s.opOf q.crew q.phase q.opid with
  | some o => if o.started && !o.reading then s.collWork (s.crew q.crew) o q else { s with fabric := { s.fabric with early := s.fabric.early ++ [q] } }
  | none => { s with fabric := { s.fabric with early := s.fabric.early ++ [q] } }

/-! ### Starting (R333) -/

-- log 42: DEDUCED, unsafe.
/-- What operation o does when it starts: sources are read, and what it sends without waiting leaves. -/
def State.opBegin (s : State) (c : Crew) (o : CrewOp) : State :=
  if o.op = 6 then
    (c.others.foldl (fun s m => s.collTo c o 3 m 3 0 0 0) s).putOp o
  else if (o.op = 3 ∧ o.peer ≠ c.own) then s.putOp o
  else
    match s.crewRead o.src o.len with
    | (s, .error 0) => s.putOp { o with reading := true }
    | (s, .error e) => s.putOp { o with fail := some e }
    | (s, .ok v) =>
      let cv := if o.conv then convBytes o.fmt o.ofmt o.recipe o.len v else (v, o.len, 0)
      let o := { o with flags := Nat.lor o.flags cv.2.2 }
      match o.op with
      | 3 =>
        let w := s.crewWrite o.who o.dst cv.2.1 cv.1
        (c.others.foldl (fun s m => s.collBytes c o 3 m 0 cv.2.1 cv.1 (cv.2.1 / 4096 + 1)) w.1).putOp { o with fail := w.2 }
      | 4 =>
        let off := c.rank * cv.2.1
        let w := s.crewWrite o.who (o.dst + off) cv.2.1 cv.1
        (c.others.foldl (fun s m => s.collBytes c o 3 m off cv.2.1 cv.1 (cv.2.1 / 4096 + 1)) w.1).putOp
          { o with fail := w.2, moved := [(off, cv.2.1)] }
      | 7 =>
        match c.members.find? fun m => m.num == o.peer with
        | none => s.putOp { o with fail := some 7 }
        | some m =>
          if m.num = c.own then
            if (c.p.getD 6 0).toNat < o.dst + o.len then s.putOp { o with fail := some 7 }
            else let w := s.crewWrite o.who (c.w 5 47 0 + o.dst) o.len v; w.1.putOp { o with fail := w.2 }
          else (s.collBytes c o 4 m o.dst o.len v (o.len / 4096 + 1)).putOp o
      | _ =>
        let k := (o.len + 2 ^ c.chunk - 1) / 2 ^ c.chunk
        let w := fmtW o.fmt
        let parts := (List.range k).map fun i => mapFlags (lift c.rules o.fmt o.red) (unpack w (c.chunkElems o i) (v / 256 ^ (i * 2 ^ c.chunk)))
        let chunks := (List.range k).map fun i =>
          ({ idx := i, level := 0, part := (parts.getD i ([], 0)).1, rx := [], sent := false, stored := false } : Chunk)
        s.opWork c { o with chunks := chunks, flags := parts.foldl (fun m p => Nat.lor m p.2) o.flags }

/-- A started operation reads its source, and acts on the packets that came before that. -/
def State.crewBegin (s : State) (o : CrewOp) : State :=
  let o := { o with reading := false }
  let s := (s.putOp o).opBegin (s.crew o.crew) o
  match s.opOf o.crew o.phase o.opid with
  | none => s
  | some p =>
    if p.reading then s
    else
      let mine := s.fabric.early.filter fun q => o.same q.crew q.phase q.opid
      let s := { s with fabric := { s.fabric with early := s.fabric.early.filter fun q => !o.same q.crew q.phase q.opid } }
      mine.foldl (fun s q => s.collRx q) s

/-- Operation o starts. -/
def State.crewStart (s : State) (o : CrewOp) (start : Word) (late : Bool) : State :=
  let o := { o with started := true, start := start, late := late }
  if (s.crew o.crew).ended then s.crewFinish o 4 else s.crewBegin o

/-! ### Accesses that waited (R196, R355, R373) -/

/-- R336: a PUT packet of context x is refused: a failure mark to its sender. -/
def State.putRefuse (s : State) (x : Nat) (q : CollPkt) : State :=
  let c := s.crew q.crew
  let his := match c.members.find? (·.num == q.mem) with | some m => m.crew | none => 0
  s.ectSend x 3 { q with crew := his, mem := c.own, kind := 2, n := 0, data := 0 }.body

/-- A write that waited has been performed, or failed with a STATUS. -/
def State.crewWaited (s : State) (w : CrewWait) (st : Option Nat) : State :=
  match w.who with
  | .op k p i =>
    match st, s.opOf k p i with
    | some f, some o => s.putOp { o with fail := if o.fail.isSome then o.fail else some f }
    | _, _ => s
  | .put x q => if st.isSome then s.putRefuse x q else s
  | .record cb => s.bkDone cb

-- log 61: DEDUCED, unsafe.
/-- The crew engine offers again what waited. -/
def State.crewRetry (s : State) : State :=
  let r := s.fabric.waits.foldl (fun (p : State × List CrewWait) w =>
    match p.1.crewOffer w.addr w.len w.value with
    | (s, some 0) => (s, p.2 ++ [w])
    | (s, st) => (s.crewWaited w st, p.2)) (s, [])
  let s := { r.1 with fabric := { r.1.fabric with waits := r.2 } }
  (s.fabric.ops.filter (·.reading)).foldl (fun s o => s.crewBegin o) s

/-- R203: the drain of slice d ends what waits there. -/
def State.crewAbort (s : State) (d : Nat) : State :=
  let here (a : Nat) : Bool := match regionOf a with | .hbm _ => homeDie a == d | .bulk _ => homeDie a == d | _ => false
  let gone := s.fabric.waits.filter fun w => here w.addr
  let s := { s with fabric := { s.fabric with waits := s.fabric.waits.filter fun w => !here w.addr } }
  let s := gone.foldl (fun s w => (s.unhold .crew 0 w.addr w.len).crewWaited w (some 3)) s
  (s.fabric.ops.filter fun o => o.reading && here o.src).foldl (fun s o => s.putOp { o with fail := some 3, reading := false }) s

/-- R340: the stretch of a phase start of crew k that is due at `due`. -/
def State.paceStretch (s : State) (k : Nat) (due : Word) : Nat :=
  let c := s.crew k
  if !c.paceEn then 0 else (c.paces.filter fun p => !after p.apply due).foldl (fun e p => max e p.stretch) 0

/-- R333: the firing of a crew phase event starts every queued operation of crew k with phase index ph; the advisories it
has followed are spent. -/
def State.crewPhase (s : State) (k ph : Nat) (due : Word) : State :=
  let c := s.crew k
  if c.state < 2 then s
  else
    let s := s.setCrew k { c with phase := some (ph, s.now), paces := c.paces.filter fun p => after p.apply due }
    (s.fabric.ops.filter fun o => o.crew == k && o.phase == ph && !o.started).foldl (fun s o => s.crewStart o s.now false) s

/-! ### Submissions (R332) -/

/-- The operation's addresses lie wholly within one of HBM, the bulk tier, a scratch way or a populated store. -/
def inOne (a n : Nat) : Bool :=
  match regionOf a with
  | .hbm _ => a + n ≤ 0x00C000000000
  | .bulk _ => a + n ≤ 0x028000000000
  | .scratch _ _ => a % 0x800000 + n ≤ 0x800000
  | .store t => inStore t a n
  | _ => false

def reduces (op : Nat) : Bool := op == 1 || op == 2 || op == 5

-- log 74: DEDUCED, unsafe.
/-- R332: the code with which a submission is rejected, 0 for none. A format code of R20 and a reserved recipe (R162) are
version errors. -/
def State.crwReject (s : State) (o : CrewOp) (c : Crew) : Nat :=
  let w (i : Nat) : Nat := (o.words.getD i 0).toNat
  let conv := o.f 3 49 41 ≠ 0
  if o.f 0 63 60 ≠ 0 ∨ o.f 0 37 32 ≠ 0 ∨ o.f 2 63 48 ≠ 0 ∨ o.f 3 40 40 ≠ 0 ∨ o.f 4 48 48 ≠ 0 ∨ w 5 ≠ 0 ∨ w 6 ≠ 0 ∨ w 7 ≠ 0 ∨
      (c.rules = 1 ∧ conv) ∨ 24 ≤ o.fmt ∨ 24 ≤ o.ofmt ∨ 6 ≤ o.recipe then 1
  else
    let wd := fmtW o.fmt
    let named := o.op = 2 ∨ o.op = 3 ∨ o.op = 7
    let root := !(o.op == 2 || o.op == 3) || o.peer == c.own
    let useSrc := reduces o.op || o.op == 4 || o.op == 7 || (o.op == 3 && root)
    let useDst := o.op == 1 || o.op == 3 || o.op == 4 || o.op == 5 || (o.op == 2 && root)
    let dlen := if o.op = 4 then c.n * o.outLen else if o.op = 5 then o.len / max 1 c.n else o.outLen
    let crec := o.f 4 47 0
    if o.op = 0 ∨ 7 < o.op ∨ 2 < o.red ∨
        (reduces o.op ∧ !(o.fmt < 6)) ∨
        (o.op ≠ 6 ∧ isFormat o.fmt ∧ (if isMX o.fmt then o.conv ∧ o.len % (4 * wd + 1) ≠ 0 else 8 * o.len % wd ≠ 0)) ∨
        (o.op = 5 ∧ 8 * o.len % (max 1 c.n * wd) ≠ 0) ∨ (o.len = 0 ∧ o.op ≠ 6) ∨
        (named ∧ (c.rankOf o.peer).isNone) ∨ (o.conv ∧ o.op ≠ 3 ∧ o.op ≠ 4) ∨
        (o.conv ∧ (!isFormat o.fmt ∨ !isFormat o.ofmt ∨ (isMX o.ofmt ∧ !isMX o.fmt ∧ 8 * o.len / wd % 32 ≠ 0))) ∨
        (s.opOf o.crew o.phase o.opid).isSome ∨
        (useSrc ∧ !inOne o.src o.len) ∨ (useDst ∧ !inOne o.dst dlen) ∨ (crec ≠ 0 ∧ (crec % 16 ≠ 0 ∨ !inOne crec 16)) then 2
    else if c.state ≠ 2 then 4
    else if 4096 ≤ s.fabric.ops.length then 3
    else if !s.bit CRW_CTRL CRW_CTRL_EN then 5
    else 0

/-- R332, R333: the descriptor of slot i is submitted. An operation whose phase has started starts at once, late. -/
def State.crwSubmit (s : State) (i : Nat) : State :=
  let ws := (List.range 8).map fun j => s.rd (CRW_SUB_W0 i + 8 * j)
  let o : CrewOp := { crew := 0, slot := i, words := ws, started := false, late := false, start := 0, stretch := 0, fail := none, flags := 0
                      chunks := [], moved := [], barrier := [], reading := false }
  let o := { o with crew := o.f 0 47 38 }
  let c := s.crew o.crew
  let st := CRW_SUB_STATUS i
  match s.crwReject o c with
  | 0 =>
    let s := (s.setf st CRW_SUB_STATUS_REJ 0).setf st CRW_SUB_STATUS_CODE 0
    let s := ({ s with fabric := { s.fabric with ops := s.fabric.ops ++ [o] } }).qcount
    match c.phase with
    | some (p, n) => if psnDiff p o.phase < 2 ^ 31 then s.crewStart o n true else s
    | none => s
  | k => (s.setf st CRW_SUB_STATUS_REJ 1).setf st CRW_SUB_STATUS_CODE k

/-- R344: who may write offset o of the CRW_ block. -/
def crwMay (m : Master) (o : Nat) : Bool :=
  if o < 0x1000 then isCox m
  else if o < 0x6000 then
    let i := (o - 0x1000) / 0x40
    match m with | .tile t => i == t | _ => isCox m && i == 256
  else
    let i := (o - 0x6000) / 8
    match m with | .tile t => i == t | _ => isCox m && i == 256

/-- A write of v at offset o of the CRW_ block (R332, R343, R344). -/
def State.crwWrite (s : State) (m : Master) (o : Nat) (v : Word) : State :=
  let a := CRW_CTRL + o
  if !crwMay m o then s.setf CRW_STATUS CRW_STATUS_PERM_ERR 1
  else if rsvBad a v then s.setf CRW_STATUS CRW_STATUS_VER_ERR 1
  else if o = 0 then
    (s.writeEnable .crews CRW_CTRL CRW_CTRL_EN CRW_STATUS CRW_STATUS_ACTIVE (v.getLsbD 0)).crwSettle
  else
    let s := s.put a v
    if 0x1000 ≤ o ∧ o < 0x1000 + 257 * 0x40 ∧ o % 0x40 = 0x38 then s.crwSubmit ((o - 0x1000) / 0x40) else s

def execCrwEn (m : Master) (v : Word) (s : State) : Outcome := .next (s.crwWrite m 0 v)

/-- The eight doublewords of a descriptor with operation op are written to slot i. -/
def State.crwWords (s : State) (m : Master) (i : BitVec 9) (op : Nat) (ws : List Word) : State :=
  if 256 < i.toNat then s
  else (List.range 8).foldl (fun s j =>
    let w := ws.getD j 0
    s.crwWrite m (0x1000 + 0x40 * i.toNat + 8 * j) (if j = 0 then (⟨56, 4⟩ : Fld).put w op else w)) s

def execAllreduce (m : Master) (i : BitVec 9) (ws : List Word) (s : State) : Outcome := .next (s.crwWords m i 1 ws)
def execReduce (m : Master) (i : BitVec 9) (ws : List Word) (s : State) : Outcome := .next (s.crwWords m i 2 ws)
def execBroadcast (m : Master) (i : BitVec 9) (ws : List Word) (s : State) : Outcome := .next (s.crwWords m i 3 ws)
def execAllgather (m : Master) (i : BitVec 9) (ws : List Word) (s : State) : Outcome := .next (s.crwWords m i 4 ws)
def execReduceScatter (m : Master) (i : BitVec 9) (ws : List Word) (s : State) : Outcome := .next (s.crwWords m i 5 ws)
def execBarrier (m : Master) (i : BitVec 9) (ws : List Word) (s : State) : Outcome := .next (s.crwWords m i 6 ws)
def execCrewPut (m : Master) (i : BitVec 9) (ws : List Word) (s : State) : Outcome := .next (s.crwWords m i 7 ws)

/-! ### Completion (R337, R338, R343) -/

/-- Byte ranges cover 0 to n − 1; fuel is at least their number. -/
def coversFrom (rs : List (Nat × Nat)) (p n : Nat) : Nat → Bool
  | 0 => n ≤ p
  | f + 1 => n ≤ p || (match rs.find? fun r => r.1 ≤ p && p < r.1 + r.2 with
    | some r => coversFrom rs (r.1 + r.2) n f
    | none => false)

/-- Every packet that this member sent for the operation is acknowledged. -/
def State.opAcked (s : State) (c : Crew) (o : CrewOp) : Bool :=
  let is (typ : Nat) (b : List Nat) : Bool :=
    (typ == 3 || typ == 4) && b.getD 1 0 == c.own && b.getD 3 0 == o.phase && b.getD 4 0 == o.opid
  c.members.all fun m => match m.ctx with
    | some x => !(s.ctx x).link.unacked.any (fun p => is p.typ p.body) && !(s.ctx x).link.wait.any fun p => is p.1 p.2
    | none => true

/-- The operation can complete: the STATUS it then has. -/
def State.opDone (s : State) (c : Crew) (o : CrewOp) : Option Nat :=
  match o.fail with
  | some f => some f
  | none =>
    let ok := !o.reading && !s.fabric.waits.any (·.who == o.who) && match o.op with
      | 2 => o.chunks.all (·.stored) && (o.peer == c.own || s.opAcked c o)
      | 3 => if o.peer = c.own then s.opAcked c o else coversFrom o.moved 0 o.outLen (o.moved.length + 1)
      | 4 => coversFrom o.moved 0 (c.n * o.outLen) (o.moved.length + 1)
      | 6 => c.others.all fun m => o.barrier.contains m.num
      | 7 => s.opAcked c o
      | _ => o.chunks.all (·.stored)
    if ok then some 0 else none

/-- CREW_OP_COMPLETE (R337). -/
def execCrewOpComplete (k : BitVec 10) (phase : BitVec 32) (opid : BitVec 16) (s : State) : Outcome :=
  .next (match s.opOf k.toNat phase.toNat opid.toNat with
    | none => s
    | some o =>
      if !o.started then s else
      match s.opDone (s.crew o.crew) o with
      | some st => s.crewFinish o st
      | none => s)

/-- CREW_DEADLINE (R338): the catch of phase start + DEADLINE + stretch has come. -/
def execCrewDeadline (k : BitVec 10) (phase : BitVec 32) (opid : BitVec 16) (s : State) : Outcome :=
  .next (match s.opOf k.toNat phase.toNat opid.toNat with
    | none => s
    | some o =>
      let due := o.start + BitVec.ofNat 64 ((s.crew o.crew).deadline + o.stretch)
      if o.started ∧ (s.now = due ∨ after s.now due) then s.crewFinish o 5 else s)

/-- CRW_DRAIN_LIMIT (R343). -/
def execCrwDrainLimit (s : State) : Outcome :=
  .next (if s.drainExpired .crews 256 then (s.fabric.ops.foldl (fun s o => s.crewFinish o 3) s).crwSettle else s)

/-! ### Epochs (R328, R330) -/

-- log 80: DEDUCED, unsafe.
/-- EPOCH_BOUNDARY: the announced roster of crew k takes effect; a forming crew becomes active once its members are
ready, or moves on to the next boundary. The leader knows who is ready; `n.ready` says it to the others (R328). -/
def execEpochBoundary (n : CrewAt) (s : State) : Outcome :=
  let k := n.crew.toNat
  let c := s.crew k
  .next (match c.announced with
    | none => s
    | some (b, ms) =>
      if s.now ≠ b ∨ c.state = 0 then s
      else if c.state = 1 ∧ !(c.pend.isNone && (if c.lead then ms.all (·.ready) else n.ready)) then
        if c.lead then s.announce k ms (b + BitVec.ofNat 64 c.epochLen)
        else s.setCrew k { c with announced := some (b + BitVec.ofNat 64 c.epochLen, ms) }
      else if ms.any (·.num == c.own) then
        let leader := match c.leader with
          | some l => if ms.any (·.num == l) then some l else (ms.head?).map (·.num)
          | none => (ms.head?).map (·.num)
        let s1 := s.setCrew k { c with state := max 2 c.state, members := ms, announced := c.next.head?, next := c.next.drop 1, leader := leader
                                       ended := ms.any (·.withdrawn) }
        if c.state = 1 then s1.lopDone c.handle [BitVec.ofNat 64 k, BitVec.ofNat 64 c.own, b] else s1
      else
        let s := s.crewEndAll k 4 fun _ => true
        let s := match c.leaving with | some h => s.lopDone h [b] | none => s
        (s.setCrew k Crew.none).disown 3 k)

end Sys2Proof.Machine
end

