-- ==== Sys2Proof/Machine/StrokeOps.lean ====
section
/-!
DEFINITION. The state of the stroke PLL and how it changes (R22, R33, R34, R53).
-/
namespace Sys2Proof.Machine

/-- R22: the stroke PLL runs while the hub is out of reset, which is from boot stage 0x1 on. -/
def State.pllRuns (s : State) : Bool := s.fld DEV_STATUS DEV_STATUS_STAGE != 0

/-- R53: a W1C bit of STK_STATUS is set, with an interrupt to the Cox and a STROKE event. -/
def State.stkRaise (s : State) (f : Fld) : State :=
  if s.bit STK_STATUS f then s
  else
    let s := s.setf STK_STATUS f 1
    s.notify STK_STATUS f.lo (some ⟨2, 0, 0, (s.rd STK_STATUS).toNat % 2 ^ 32⟩)

def State.stkState (s : State) : Nat := s.fld STK_STATUS STK_STATUS_STATE
def State.src (s : State) : Nat := s.fld STK_CTRL STK_CTRL_SRC
def State.strk (s : State) (f : Stroke → Stroke) : State := { s with stroke := f s.stroke }

-- log 131: DEDUCED, unsafe.
/-- R53: STATE changes; the crew engine hears of it (R34, R331). -/
def State.enterState (s : State) (n : Nat) : State :=
  if s.stkState = n then s
  else
    let s := s.setf STK_STATUS STK_STATUS_STATE n
    let s := if n = 2 then (s.setf STK_STATUS STK_STATUS_AGED 0).setf STK_HOLD_CNT STK_HOLD_CNT_COUNT 0 else s
    (s.notify STK_STATUS 0 (some ⟨2, 0, 0, (s.rd STK_STATUS).toNat % 2 ^ 32⟩)).crewStroke

-- log 124: DEDUCED, unsafe.
/-- R33: the input is lost. -/
def State.inputLost (s : State) : State :=
  let s := s.strk fun k => { k with qual := 0, slewed := false, missRun := 0 }
  match s.stkState with
  | 2 => s.enterState 3
  | 1 => s.enterState (if s.stroke.lockedOnce then 3 else 0)
  | _ => s

end Sys2Proof.Machine
end

