-- ==== Sys2Proof/Machine/Fabric.lean ====
section
/-!
DEFINITION. Fabric ports (R315 to R317, R343, R344), the packets of peer contexts (R319 to R327), and the Cox commands of
crews (R326 to R331).
-/
namespace Sys2Proof.Machine

/-! ### Ports -/

/-- R315: fabric port p goes DOWN (0), begins training (1), or has trained `lanes` lanes (2). The loss of the 1588 port's
link loses the input of the stroke block (R33). -/
def State.fabLink (s : State) (p what lanes : Nat) : State :=
  let a := FAB_PSTATUS p
  let tr := if 2 ≤ what then trainPortMode (s.fld (FAB_PCTRL p) FAB_PCTRL_MODE_MAX) lanes else (what, 0, 0)
  let up := tr.1 = 2 ∨ tr.1 = 3
  if up ∧ !s.bit (FAB_PCTRL p) FAB_PCTRL_EN then s else
  let lost := s.fabUp p && !up && s.src == 2 && p == s.fld STK_CTRL STK_CTRL_PTP_PORT
  let s := if s.fld a FAB_PSTATUS_STATE ≠ tr.1 then s.setf a FAB_PSTATUS_LINK_CHG 1 else s
  let s := ((s.setf a FAB_PSTATUS_STATE tr.1).setf a FAB_PSTATUS_MODE tr.2.1).setf a FAB_PSTATUS_LANES tr.2.2
  let s := s.setf FAB_STATUS ⟨p, 1⟩ (if up then 1 else 0)
  if lost then s.inputLost else s

/-- The drain of port p is over: the port is down (R343). -/
def State.fabSettle (s : State) (p : Nat) : State :=
  match s.drain? (.fabric p) with
  | none => s
  | some _ => (s.fabLink p 0 0).endDrain (.fabric p) (FAB_PCTRL p) FAB_PCTRL_EN (FAB_PSTATUS p) FAB_PSTATUS_ACTIVE

/-- A write of v at offset o of the FAB_ block (R343, R344). -/
def State.fabWrite (s : State) (m : Master) (o : Nat) (v : Word) : State :=
  let a := FAB_STATUS + o
  if !isCox m then s.setf FAB_STATUS FAB_STATUS_PERM_ERR 1
  else if rsvBad a v then s.setf FAB_STATUS FAB_STATUS_VER_ERR 1
  else if 0x1000 ≤ o ∧ o < 0x1800 ∧ o % 0x100 = 0 then
    let p := (o - 0x1000) / 0x100
    if FAB_PCTRL_MODE_MAX.get v = 3 then s.setf FAB_STATUS FAB_STATUS_VER_ERR 1
    else
      let s := s.setf a FAB_PCTRL_MODE_MAX (FAB_PCTRL_MODE_MAX.get v)
      s.writeEnable (.fabric p) a FAB_PCTRL_EN (FAB_PSTATUS p) FAB_PSTATUS_ACTIVE (v.getLsbD 0)
  else s.put a v

def execFabPortEn (m : Master) (p : BitVec 3) (v : Word) (s : State) : Outcome := .next (s.fabWrite m (0x1000 + 0x100 * p.toNat) v)

/-- FAB_PORT_DRAIN_LIMIT (R343): what is queued is recovered under R322 on other ports. -/
def execFabPortDrainLimit (p : BitVec 3) (s : State) : Outcome :=
  .next (if s.drainExpired (.fabric p.toNat) 1 then s.fabSettle p.toNat else s)

/-- FAB_CFG (R317). The response holds the MAC address. -/
def execFabCfg (s : State) : Outcome :=
  coxCmd 0x0070 2 false false (fun s r _ =>
    let w0 := r.words.getD 0 0
    let w1 := r.words.getD 1 0
    let p := field w0 63 61
    checked s r 32
      [(field w0 60 59 == 3, 4, 0), (field w0 50 48 != 0, 7, 0), (field w0 47 32 == 0, 4, 0),
       (field w0 58 58 == 1 && (field w1 63 56 == 0 || 128 < field w1 63 56), 4, 8), (field w1 55 0 != 0, 7, 8)]
      (if s.fabric.ctxs.any fun q => q.2.state == 1 && q.2.ports.testBit p then (s, Ans.err 2)
       else
         let s := { s with fabric := { s.fabric with cfg := SMap.set (fun _ => []) s.fabric.cfg p r.words } }
         let s := (s.setf (FAB_PCTRL p) FAB_PCTRL_MODE_MAX (field w0 60 59)).writeEnable (.fabric p) (FAB_PCTRL p) FAB_PCTRL_EN
           (FAB_PSTATUS p) FAB_PSTATUS_ACTIVE true
         (s, Ans.ok [BitVec.ofNat 64 ((s.fuses.mac + p) % 2 ^ 48)]))) s

/-! ### Crews: commands and member messages -/

/-- A context opens with the parameters of a crew, where one is free (R326). -/
def State.newCtx (s : State) (c : Crew) (addr : Option Nat) (udp : Nat) (forCrew : Option Nat) : State × Option Nat :=
  match s.freeCtx with
  | none => (s, none)
  | some x =>
    (s.setCtx x { PeerCtx.closed with state := 1, addr := addr, udp := udp, ports := c.w 1 7 0, hb := c.w 4 46 46 == 1
                                      hbLoss := c.w 4 45 38, rto := c.w 4 37 30, retry := c.w 4 29 26
                                      heard := s.now.toNat % 2 ^ 32, forCrew := forCrew },
     some x)

-- log 79: DEDUCED, unsafe.
/-- The context to the module at an address and UDP port: shared with every other use, opened where there is none (R326). -/
def State.openCtx (s : State) (c : Crew) (addr udp : Nat) : State × Option Nat :=
  match s.ctxTo addr udp with
  | some x => (s, some x)
  | none => s.newCtx c (some addr) udp none

-- log 79: DEDUCED, unsafe.
/-- The leader of crew k opens n contexts for members yet to join. -/
def State.openJoins (s : State) (k : Nat) (c : Crew) : Nat → State
  | 0 => s
  | n + 1 => (s.newCtx c none 0 (some k)).1.openJoins k c n

/-- Open contexts that a joiner may share, and those that are free. -/
def State.ctxRoom (s : State) : Nat :=
  (s.fabric.ctxs.filter fun q => q.2.state == 1 && q.2.addr.isSome && q.2.forCrew.isNone).length + (65536 - s.fabric.ctxs.length)

/-- The contexts that crew k still keeps for members yet to join. -/
def State.joinCtxs (s : State) (k : Nat) : List Nat := (s.fabric.ctxs.filter fun q => q.2.forCrew == some k).map (·.1)

/-- The crew's numbers end: its number is free, and so are the contexts it kept (R328). -/
def State.crewFree (s : State) (k : Nat) : State :=
  (((s.joinCtxs k).foldl (fun s x => s.setCtx x PeerCtx.closed) s).setCrew k Crew.none).disown 3 k

-- log 79: DEDUCED, unsafe.
/-- A member of crew k has joined on context x, which serves it from now on: one context that the crew kept is not needed any
more. -/
def State.ctxJoined (s : State) (k x : Nat) : State :=
  let was := (s.ctx x).forCrew
  let s := s.setCtx x { s.ctx x with forCrew := none }
  if was = some k then s
  else match s.joinCtxs k, was with
    | [], _ => s
    | y :: _, none => s.setCtx y PeerCtx.closed
    | y :: _, some j => s.setCtx y { s.ctx y with forCrew := some j }

/-- Checks of Table 13.4: (failed, status, offset). -/
def crewFormChecks (c : Crew) : List (Bool × Nat × Nat) :=
  let base := c.w 5 47 0
  let len := c.w 6 63 0
  let range := len == 0 || (match regionOf base with | .store _ => false | _ => inOne base len)
  [(c.w 1 63 60 != 0, 7, 8), (c.syncReq == 3, 4, 8), (c.w 1 56 54 == 0 || 2 < c.w 1 56 54, 4, 8), (c.chunk < 12 || 24 < c.chunk, 4, 8),
   (c.rot == 0 || 16 < c.rot, 4, 8), (c.nmem == 0 || 16384 < c.nmem, 4, 8), (c.w 1 14 8 != 0, 7, 8), (c.deadline == 0, 4, 0x10),
   (c.epochLen < 16, 4, 0x10), (c.w 4 54 47 == 0, 4, 0x20), (c.w 4 45 38 == 0, 4, 0x20), (c.w 4 37 30 == 0, 4, 0x20),
   (c.w 4 29 26 == 0, 4, 0x20), (c.w 4 25 0 != 0, 7, 0x20), (base % 65536 != 0, 4, 0x28), (c.w 5 63 48 != 0, 7, 0x28),
   (len % 65536 != 0 || !range, 4, 0x30), (c.w 7 63 16 != 0, 7, 0x38)]

-- log 79: DEDUCED, unsafe.
/-- The port whose address the members of a crew know: the lowest of its mask. -/
def Crew.port (c : Crew) : Nat := ((List.range 8).find? fun p => (c.w 1 7 0).testBit p).getD 0

/-- This module as a member of a crew with local number k. -/
def State.asMember (s : State) (c : Crew) (k : Nat) : Member :=
  { num := c.own, crew := k, ctx := .none, addr := s.portHome c.port, udp := s.portUdp c.port, recvLen := c.w 6 63 0, ready := true, withdrawn := false }

/-- LEADER_IP (Table 13.4). -/
def Crew.leaderAddr (c : Crew) : Nat := c.w 8 63 0 + c.w 9 63 0 * 2 ^ 64

-- log 79: DEDUCED, unsafe.
/-- CREW_FORM (R328): a local crew number is taken; the operation ends when the crew is active. -/
def execCrewForm (s : State) : Outcome :=
  coxCmd 0x0071 1 false false (fun s r x =>
    let c := { Crew.none with p := r.words, state := 1 }
    checked s r 80 (crewFormChecks c)
      (match freeFrom s.crewList 0 1024 with
       | none => (s, Ans.err 0x0C)
       | some k =>
         let q := if c.lead then (s.openJoins k c (c.nmem - 1), decide (c.nmem ≤ s.ctxRoom + 1))
           else let o := s.openCtx c c.leaderAddr (c.w 7 15 0); (o.1, o.2.isSome)
         if !q.2 then (s, Ans.err 0x0C)
         else
           let l := q.1.lopNew r x [k]
           if l.2.status ≠ 1 then (s, l.2)
           else
             let c := { c with handle := l.2.handle, members := [l.1.asMember c k], leader := if c.lead then some c.own else none }
             ((l.1.setCrew k c).own 3 k x, l.2))) s

-- log 75: DEDUCED, unsafe; log 77: DEDUCED, unsafe; log 81: DESIGN CHOICE, safe.
/-- A CREW_FORM operation starts: a joiner asks the leader (R328 step 2); a crew of one has its roster (step 4). CREW_JOIN
carries KEY; bytes 0x08 to 0x27; level; highest rule set; local crew number; address and UDP port; RECV_LEN;
the stroke period. -/
def State.formBegin (s : State) (k : Nat) : State :=
  let c := s.crew k
  if c.lead then
    if c.nmem = 1 then s.announce k c.members (s.boundaryFrom c s.now) else s
  else
    match s.ctxTo c.leaderAddr (c.w 7 15 0) with
    | some x =>
      let a := s.portAddr c.port c.leaderAddr
      s.memberSend x k 0x0100
        [c.key, c.w 1 63 0, c.w 2 63 0, c.w 3 63 0, c.w 4 63 0, 2, 2, k, a % 2 ^ 64, a / 2 ^ 64, s.portUdp c.port, c.w 6 63 0, s.fld STK_PERIOD STK_PERIOD_PERIOD_NS]
    | none => s

/-- Cancelling a CREW_FORM before the crew is active frees its number. -/
def State.crewCancel (s : State) (k : Nat) : State := if (s.crew k).state = 1 then s.crewFree k else s

/-- R326, R328, R329: the formation of crew k fails with a status. -/
def State.formFail (s : State) (k status : Nat) : State :=
  if (s.crew k).state = 1 then (s.lopFail (s.crew k).handle status).crewCancel k else s

/-- The crew with a KEY. -/
def State.crewByKey (s : State) (key : Nat) : Option Nat := s.crewList.find? fun k => (s.crew k).key == key && (s.crew k).state != 0

-- log 77: DEDUCED, unsafe.
/-- R331: the stroke state of a joiner, as its packets carry it, fits SYNC_REQ. -/
def syncFits (req : Nat) (x : PeerCtx) : Bool :=
  match req with
  | 0 => true
  | 1 => (x.sstate == 2 || (x.sstate == 3 && !x.aged)) && (x.skew ≤ 1 || 2 ^ 32 ≤ x.skew + 1)
  | _ => x.sstate == 2 && (x.skew ≤ 1 || 2 ^ 32 ≤ x.skew + 1)

/-- Bytes 0x08 to 0x27 without LEADER, MEMBER, PORTS and the RSV fields (R328). -/
def joinWords (c : Crew) : List Word :=
  [c.p.getD 1 0 &&& 0x07FFF0003FFF8000, c.p.getD 2 0, c.p.getD 3 0, c.p.getD 4 0 &&& 0xFFFFFFFFFC000000]

-- log 75: DEDUCED, unsafe; log 77: DEDUCED, unsafe.
/-- CREW_JOIN (R328 steps 2 to 4, R329). -/
def execCrewJoin (s : State) : Outcome :=
  coxCmd 0x0100 3 true false (fun s r _ =>
    let j := { Crew.none with p := r.words.take 5 }
    checked s r 104 [(j.w 1 63 60 != 0 || j.w 1 14 8 != 0, 7, 8), (j.w 4 25 0 != 0, 7, 0x20)]
      (match r.origin, s.crewByKey (r.w 0) with
       | .ect x, some k =>
         let c := s.crew k
         let level := min c.level (r.w 5)
         let rules := min c.rules (r.w 6)
         let base := c.last.filter fun m => !m.withdrawn
         if !c.lead ∨ 2 < c.state then (s, Ans.at 4 0)
         else if rules < c.w 1 56 54 ∨ (c.state = 2 ∧ (level < c.level ∨ rules < c.rules)) then (s, Ans.err 7)
         else if joinWords j ≠ joinWords c then (s, Ans.at 4 8)
         else if (c.members ++ base).any fun m => m.num == j.own then (s, Ans.at 4 8)
         else if !syncFits c.syncReq (s.ctx x) || (c.syncReq != 0 && r.w 12 != s.fld STK_PERIOD STK_PERIOD_PERIOD_NS) then (s, Ans.at 4 8)
         else
           let m : Member := { num := j.own, crew := r.w 7, ctx := some x, addr := r.w 8 + r.w 9 * 2 ^ 64, udp := r.w 10
                               recvLen := r.w 11, ready := false, withdrawn := false }
           let s := (s.setCtx x { s.ctx x with udp := r.w 10 }).ctxJoined k x
           let ms := insMember m base
           if c.state = 2 then (s.announce k ms (s.boundaryFrom c s.now), Ans.ok [])
           else
             let c := { c with level := level, rules := rules, members := ms }
             let s := s.setCrew k c
             (if ms.length = c.nmem ∧ c.announced = none then s.announce k ms (s.boundaryFrom c s.now) else s, Ans.ok [])
       | _, _ => (s, Ans.at 4 0))) s

/-- n members of a roster that context x brought from member `from_`, six doublewords each, added to those known; contexts are
opened for those that have none. None where no context is free (R326). -/
def State.rosterMembers (s : State) (k x from_ : Nat) (c : Crew) (known : List Member) : List Word → Nat → State × Option (List Member)
  | _, 0 => (s, some known)
  | ws, n + 1 =>
    let w (i : Nat) : Nat := (ws.getD i 0).toNat
    let addr := w 2 + w 3 * 2 ^ 64
    let me := w 0 = c.own
    let o := if me then (s, none) else if w 0 = from_ then (s, some x) else s.openCtx c addr (w 4)
    if !me ∧ o.2.isNone then (s, none)
    else
      let m : Member := { num := w 0, crew := if me then k else w 1, ctx := o.2, addr := addr, udp := w 4, recvLen := w 5
                          ready := true, withdrawn := false }
      o.1.rosterMembers k x from_ c (insMember m known) (ws.drop 6) n

/-- The crew that a roster part on context x is for: one whose roster goes on; else the one whose local number the receiver's
own entry names; else the one that knows the sender as the part names it. -/
def State.rosterCrew (s : State) (x : Nat) (entries : List (Nat × Nat)) : Option Nat :=
  let on (k : Nat) : Bool := match (s.crew k).pend with | some q => q.1 == x | none => false
  let mine (k : Nat) : Bool := !(s.crew k).lead && entries.contains ((s.crew k).own, k)
  let knows (k : Nat) : Bool := (s.crew k).members.any fun m => m.ctx == some x && entries.contains (m.num, m.crew)
  ((s.crewList.find? on).orElse fun _ => s.crewList.find? mine).orElse fun _ => s.crewList.find? knows

-- log 75: DEDUCED, unsafe.
/-- CREW_ROSTER (R328 step 5, R330): contexts are opened and, once the roster is whole, CREW_READY answers. A formation for
which no context is free ends with NO_RESOURCE (R326). -/
def execCrewRoster (s : State) : Outcome :=
  coxCmd 0x0101 3 true false (fun s r _ =>
    let n := (r.words.length - 4) / 6
    checked s r (32 + 48 * n) []
      (match r.origin with
       | .ect x =>
         match s.rosterCrew x ((List.range n).map fun i => (r.w (4 + 6 * i), r.w (5 + 6 * i))) with
         | none => (s, Ans.at 4 0)
         | some k =>
           let c := s.crew k
           let base := if c.pend.isSome then c.last else []
           let left := (match c.pend with | some q => q.2 | none => r.w 3 % 2 ^ 32) - n
           match s.rosterMembers k x (r.w 3 / 2 ^ 32) c base (r.words.drop 4) n with
           | (_, none) => (s.formFail k 0x0C, Ans.err 0x0C)
           | (s, some ms) =>
             let s := s.setCrew k { c.plan (BitVec.ofNat 64 (r.w 2)) ms with
                 level := r.w 0, rules := r.w 1, leader := some (c.leader.getD (r.w 3 / 2 ^ 32)), pend := if left = 0 then none else some (x, left) }
             (if left = 0 then s.memberSend x k 0x0102 [c.key] else s, Ans.ok [])
       | _ => (s, Ans.at 4 0))) s

/-- CREW_READY (R328 step 5). -/
def execCrewReady (s : State) : Outcome :=
  coxCmd 0x0102 3 true false (fun s r _ =>
    checked s r 8 []
      (match r.origin, s.crewByKey (r.w 0) with
       | .ect x, some k =>
         let c := s.crew k
         let mark (m : Member) : Member := if m.ctx == some x then { m with ready := true } else m
         (s.setCrew k { c with
            members := c.members.map mark, announced := c.announced.map (fun q => (q.1, q.2.map mark)), next := c.next.map fun q => (q.1, q.2.map mark) }, Ans.ok [])
       | _, _ => (s, Ans.at 4 0))) s

/-- The roster of crew k without member num is announced for the first boundary that R330 permits, not before stroke e. -/
def State.departMember (s : State) (k num : Nat) (e : Word) : State :=
  let c := s.crew k
  s.announce k (c.last.filter fun m => !m.withdrawn && m.num ≠ num) (s.boundaryFrom c e)

/-- CREW_DEPART (R330): KEY, and the epoch of CREW_LEAVE. -/
def execCrewDepart (s : State) : Outcome :=
  coxCmd 0x0103 3 true false (fun s r _ =>
    checked s r 16 []
      (match r.origin, s.crewByKey (r.w 0) with
       | .ect x, some k =>
         match (s.crew k).members.find? fun m => m.ctx == some x with
         | some m => (s.departMember k m.num (r.words.getD 1 0), Ans.ok [])
         | none => (s, Ans.at 4 0)
       | _, _ => (s, Ans.at 4 0))) s

/-- The CREW_STATUS result: members, announced epoch boundary or 0, latest phase start, advisories, DEADLINE; then for each
member its number and LAST_HEARD (R325). -/
def State.crewStatus (s : State) (k : Nat) : List Word :=
  let c := s.crew k
  [BitVec.ofNat 64 c.n, (match c.announced with | some q => q.1 | none => 0), (match c.phase with | some q => q.2 | none => 0),
   BitVec.ofNat 64 c.paces.length, BitVec.ofNat 64 c.deadline] ++
  c.members.map fun m => BitVec.ofNat 64 (m.num * 2 ^ 32 + (match m.ctx with | some x => (s.ctx x).heard | none => s.now.toNat % 2 ^ 32))

/-- CREW_QUERY (Table 13.5): KEY; returns the CREW_STATUS result. -/
def execCrewQuery (s : State) : Outcome :=
  coxCmd 0x0104 3 true false (fun s r _ =>
    checked s r 8 [] (match s.crewByKey (r.w 0) with | some k => (s, Ans.ok (s.crewStatus k)) | none => (s, Ans.at 4 0))) s

/-- CREW_STATUS: crew. -/
def execCrewStatus (s : State) : Outcome :=
  coxCmd 0x0073 0 false false (fun s r x =>
    let k := r.w 0
    checked s r 8 [(1023 < k || (s.crew k).state == 0, 4, 0)]
      (if s.otherOwns 3 k x then (s, Ans.err 6) else (s, Ans.ok (s.crewStatus k)))) s

/-- CREW_LEAVE (R330): crew, epoch. -/
def execCrewLeave (s : State) : Outcome :=
  coxCmd 0x0072 1 false false (fun s r x =>
    let k := r.w 0
    checked s r 16 [(1023 < k || (s.crew k).state < 2, 4, 0)]
      (if s.otherOwns 3 k x then (s, Ans.err 6)
       else if (s.crew k).leaving.isSome then (s, Ans.err 2)
       else
         let l := s.lopNew r x [k, r.w 1]
         if l.2.status ≠ 1 then (s, l.2)
         else (l.1.setCrew k { l.1.crew k with leaving := some l.2.handle }, l.2))) s

-- log 81: DESIGN CHOICE, safe.
/-- A CREW_LEAVE operation starts: the coordinator is asked, or announces the departure itself. -/
def State.leaveBegin (s : State) (k e : Nat) : State :=
  let c := s.crew k
  if c.coordinator = some c.own ∨ c.state = 3 then s.departMember k c.own (BitVec.ofNat 64 e)
  else
    match c.members.find? fun m => some m.num == c.coordinator with
    | some m => match m.ctx with | some x => s.memberSend x k 0x0103 [c.key, e] | none => s
    | none => s

/-! ### Received packets -/

-- log 78: DEDUCED, unsafe.
/-- R322: context x enters LOST: its packets are discarded and its use ends under R341 and R342. -/
def State.ctxLost (s : State) (x : Nat) : State :=
  let c := s.ctx x
  (s.setCtx x { c with state := 2, early := [], mgmt := [], link := { c.link with unacked := [], wait := [] } }).withdrawCtx x

/-- A received packet: none where it is discarded, a duplicate, or the end of its context; else the context it is for. -/
def State.ectIn (s : State) (p : Nat) (h : Hdr) (src typ len : Nat) (ce : Bool) : State × Option Nat :=
  match s.ectRx p h src typ len ce with
  | (s, .take x) => (s, some x)
  | (s, .lost x) => (s.ctxLost x, none)
  | (s, .drop) => (s, none)

/-- ECT_ACK, HEARTBEAT (R321, R325). -/
def execEctAck (p : BitVec 3) (h : Hdr) (src : IpFrom) (s : State) : Outcome :=
  .next (s.ectIn p.toNat h src.addr.toNat 1 0 src.ce).1
def execHeartbeat (p : BitVec 3) (h : Hdr) (src : IpFrom) (s : State) : Outcome :=
  .next (s.ectIn p.toNat h src.addr.toNat 2 0 src.ce).1

/-- Growth fields of the sub-header (Table 13.3), and format codes that only a higher level defines (R20, R148). -/
def subGrowth (w1 w2 : Word) : Bool :=
  (w1 &&& 0x0000FF0000000000) != 0 || (w2 &&& 0x000FFF0000000000) != 0 || 24 ≤ field w2 56 52

/-- The sub-header, with the flags and n data bytes. -/
def collOf (w0 w1 w2 : Word) (flags n data : Nat) : CollPkt :=
  { crew := field w0 63 54, mem := field w0 53 40, kind := field w0 39 32, phase := field w0 31 0, opid := field w1 63 48
    off := field w1 39 0, op := field w2 63 60, red := field w2 59 57, fmt := field w2 56 52, oplen := field w2 39 0
    flags := flags, n := n, data := data }

-- log 76: DEDUCED, unsafe.
/-- A CTRL packet's effect (R339 to R342): kind 0 a pace advisory, 1 a withdrawal, 2 a holdover notice. -/
def State.ctrlWork (s : State) (k kind a b : Nat) : State :=
  let c := s.crew k
  if c.state = 0 then s
  else match kind with
    | 0 =>
      let w := BitVec.ofNat 64 a
      let s := if after s.now w then s.stick CRW_CNT_PACE_LATE CRW_CNT_PACE_LATE_COUNT 1 else s
      (s.setCrew k { c with paces := c.paces ++ [⟨w, b⟩] }).ctrlDown c 0 a b
    | 1 =>
      let s := s.ctrlDown c 1 a 0
      if c.members.any fun m => m.num == a && m.withdrawn then s
      else if a = c.own then (if c.state = 2 then s.withdrawOwn k else s)
      else s.withdrawNote k a
    | _ => let s := s.ctrlDown c 2 a 0; if a = c.own then s else s.crewEvent k

-- log 75: DEDUCED, unsafe.
/-- A request of the ECT origin reaches the Cox, or a response to one of this module's requests (R327): a granted session
sends what waited for it; a refused session, join or roster ends the formation that asked (R326, R328, R329). -/
def State.mgmtWork (s : State) (x : Nat) (body : List Nat) : State :=
  match body with
  | 0 :: ws =>
    let w (i : Nat) : Word := BitVec.ofNat 64 (ws.getD i 0)
    let r : CoxReq := { origin := .ect x, h0 := w 0, h1 := w 1, rest := (List.range 6).any fun i => w (2 + i) != 0, tick := s.stroke.ticks
                        words := (ws.drop 8).map (BitVec.ofNat 64) }
    let s := { s with cox := { s.cox with queue := s.cox.queue ++ [r] } }
    s.coxFlush s.cox.queue.length
  | _ :: ws =>
    let c := s.ctx x
    let h := ws.getD 0 0
    let status := h % 256
    let waiting := c.mgmt
    match h / 65536 % 65536 with
    | 0x0001 =>
      let sess := if status = 0 then ws.getD 8 0 / 2 ^ 48 else 0
      let s := s.setCtx x { c with sess := sess, sessTick := s.stroke.ticks, hello := false, mgmt := [] }
      if status = 0 then waiting.foldl (fun s q => s.mgmtRequest x sess q.1 q.2) s
      else waiting.foldl (fun s q => if q.1 % 65536 = 0x0100 then s.formFail (q.1 / 65536) status else s) s
    | 0x0100 => if status = 0 then s else s.formFail (h / 2 ^ 32 % 65536) status
    | 0x0101 => if status = 0x0C then s.formFail (h / 2 ^ 32 % 65536) status else s
    | _ => s
  | [] => s

/-- CTRL and MGMT packets are delivered in PSN order (R320). -/
def State.deliverEarly (s : State) (x : Nat) : Nat → State
  | 0 => s
  | n + 1 =>
    let c := s.ctx x
    match c.early.find? fun q => 1 ≤ psnDiff c.link.expect q.psn && psnDiff c.link.expect q.psn ≤ 2 ^ 31 &&
        c.early.all fun r => psnDiff c.link.expect r.psn ≤ psnDiff c.link.expect q.psn || 2 ^ 31 < psnDiff c.link.expect r.psn with
    | none => s
    | some q =>
      let s := s.setCtx x { c with early := c.early.filter fun r => r.psn ≠ q.psn }
      let s := if q.typ = 5 then s.ctrlWork (q.body.getD 0 0) (q.body.getD 1 0) (q.body.getD 2 0) (q.body.getD 3 0) else s.mgmtWork x q.body
      s.deliverEarly x n

/-- The CTRL and MGMT packets of context x whose turn has come reach their consumers. -/
def State.inOrder (s : State) (x : Nat) : State := s.deliverEarly x ((s.ctx x).early.length + 1)

def State.orderedRx (s : State) (p : Nat) (h : Hdr) (src typ len : Nat) (ce : Bool) (body : List Nat) : State :=
  match s.ectIn p h src typ len ce with
  | (s, none) => s
  | (s, some x) =>
    let c := s.ctx x
    let q : Pkt := { psn := h.w1.toNat / 2 ^ 32, typ := typ, body := body, sent := s.now, tries := 0 }
    (s.setCtx x { c with early := c.early ++ [q] }).inOrder x

-- log 41: DESIGN CHOICE, safe.
/-- COLL (R334): the chunk's data are placed at acceptance; packets that waited for its PSN follow (R320). -/
def execColl (p : BitVec 3) (h : Hdr) (src : BitVec 128) (ce : Bool) (w0 w1 w2 : Word) (flags : BitVec 5) (n : BitVec 13)
    (data : BitVec 32768) (s : State) : Outcome :=
  .next (if 4096 < n.toNat then s
    else if subGrowth w1 w2 then (if s.fabUp p.toNat then s.fabDrop p.toNat else s)
    else
      match s.ectIn p.toNat h src.toNat 3 (24 + n.toNat) ce with
      | (s, some x) => (s.collRx (collOf w0 w1 w2 flags.toNat n.toNat data.toNat)).inOrder x
      | (s, none) => s)

-- log 42: DEDUCED, unsafe.
/-- ECT_PUT (R336): the data are placed in the crew's receive range, or refused with a failure mark to the sender; packets
that waited for its PSN follow (R320). -/
def execEctPut (p : BitVec 3) (h : Hdr) (src : BitVec 128) (ce : Bool) (w0 w1 w2 : Word) (n : BitVec 13)
    (data : BitVec 32768) (s : State) : Outcome :=
  .next (if 4096 < n.toNat then s
    else if subGrowth w1 w2 then (if s.fabUp p.toNat then s.fabDrop p.toNat else s)
    else
      match s.ectIn p.toNat h src.toNat 4 (24 + n.toNat) ce with
      | (s, none) => s
      | (s, some x) =>
        let q := collOf w0 w1 w2 0 n.toNat data.toNat
        let c := s.crew q.crew
        let w := if c.state = 0 ∨ (c.p.getD 6 0).toNat < q.off + q.n then (s, some 7)
          else s.crewWrite (.put x q) (c.w 5 47 0 + q.off) q.n q.data
        (if w.2.isSome then w.1.putRefuse x q else w.1).inOrder x)

-- log 76: DEDUCED, unsafe.
/-- CTRL (R339, R341): crew, kind, APPLY or member number, STRETCH. -/
def execCtrl (p : BitVec 3) (h : Hdr) (src : BitVec 128) (u : UdpIn) (k : BitVec 10) (kind : BitVec 2) (a : Word) (b : BitVec 4)
    (s : State) : Outcome :=
  .next (s.orderedRx p.toNat h src.toNat 5 u.len.toNat u.ce [k.toNat, kind.toNat, a.toNat, b.toNat])

/-- MGMT (R327): a request (header of Table 11.3 and payload) or a response (Table 11.4), as doublewords. -/
def execMgmt (p : BitVec 3) (h : Hdr) (src : BitVec 128) (ce resp : Bool) (ws : List Word) (s : State) : Outcome :=
  .next (s.orderedRx p.toNat h src.toNat 6 (8 * ws.length) ce ((if resp then 1 else 0) :: ws.map BitVec.toNat))

-- log 78: DEDUCED, unsafe.
/-- RETRANSMIT_TIMEOUT (R322, R323, R347): the packet with this PSN, of context x or of the pair link, has been unacknowledged
for RTO strokes. -/
def execRetransmitTimeout (pair : Bool) (x : BitVec 16) (psn : BitVec 32) (s : State) : Outcome :=
  .next (if pair then s.pairTimeout psn.toNat
    else
      let c := s.ctx x.toNat
      match c.link.unacked.find? (·.psn == psn.toNat) with
      | none => s
      | some q =>
        if c.state ≠ 1 ∨ (s.now - q.sent).toNat < c.rto ∨ (s.portsUp c.ports).isEmpty then s
        else if c.retry ≤ q.tries then s.ctxLost x.toNat
        else (s.setCtx x.toNat { c with rate := max (1 / 1024) (c.rate / 2) }).ectResend x.toNat q)

/-- HEARTBEAT_LOSS (R322): HB_LOSS strokes without a packet on a context with heartbeats. -/
def execHeartbeatLoss (x : BitVec 16) (s : State) : Outcome :=
  let c := s.ctx x.toNat
  .next (if c.state = 1 ∧ c.hb ∧ c.addr.isSome ∧ c.hbLoss ≤ (s.now.toNat + 2 ^ 32 - c.heard) % 2 ^ 32 then s.ctxLost x.toNat else s)

-- log 78: DEDUCED, unsafe.
/-- R322: at a catch: a context whose ports have all been down for RTO strokes is LOST. -/
def State.ctxCatch (s : State) : State :=
  (s.fabric.ctxs.map (·.1)).foldl (fun s c =>
    let x := s.ctx c
    if x.state ≠ 1 ∨ x.addr.isNone then s
    else if !(s.portsUp x.ports).isEmpty then s.setCtx c { x with down := none }
    else match x.down with
      | none => s.setCtx c { x with down := some s.now }
      | some w => if x.rto ≤ (s.now - w).toNat then s.ctxLost c else s) s

end Sys2Proof.Machine
end

