-- ==== Sys2Proof/Machine/Stroke.lean ====
section
/-!
DEFINITION. The stroke block (chapter 02): sources and lock (R22 to R37, R54, R472), number loads (R28), the registers
(R38, R52), and the entries of the catch-event table (R42 to R45, R50, R51).
-/
namespace Sys2Proof.Machine

-- log 122: DEDUCED, unsafe.
/-- R32: an edge or Sync within one phase unit of its prediction, or outside it. The first one within ends the slew; the
sixteenth in a row after that locks. -/
def State.qualify (s : State) (near : Bool) : State :=
  let q := if near && s.stroke.slewed then s.stroke.qual + 1 else 0
  let s := s.strk fun k => { k with qual := q, slewed := near }
  if s.stkState = 1 ∧ 16 ≤ q then (s.strk fun k => { k with lockedOnce := true }).enterState 2 else s

/-- A source is present: from FREE or HOLDOVER the PLL enters ACQUIRE (Table 2.3, R37). -/
def State.acquire (s : State) : State :=
  if s.stkState = 0 ∨ s.stkState = 3 then (s.strk fun k => { k with qual := 0, slewed := false }).enterState 1 else s

/-- R31: this edge or Sync takes the one step of the first acquisition. -/
def State.mayStep (s : State) : Bool :=
  s.bit STK_CTRL STK_CTRL_STEP_OK && !s.stroke.stepped && !s.stroke.lockedOnce && s.stkState == 1

-- log 122: DEDUCED, unsafe.
/-- R31: the step to the source phase: it ends the slew, and qualification begins at the next edge or Sync (R32). -/
def State.pllStep (s : State) (phase : Nat) : State :=
  (s.setf STK_PHASE STK_PHASE_PHASE phase).strk fun k => { k with stepped := true, slewed := true, qual := 0 }

-- log 125: DEDUCED, unsafe.
/-- R27, R28, R472: a marker matched to the running catch, or to the next one. A load that it takes stays pending until the
catch that carries the number (PEND, Table 2.7). The marker is checked against the number that its catch carries. -/
def State.marker (s : State) (next : Bool) : State :=
  let pend := s.bit STK_NUM_LOAD STK_NUM_LOAD_PEND
  let v := BitVec.ofNat 64 (s.fld STK_NUM_LOAD STK_NUM_LOAD_NUM_HI * 65536)
  let s := if pend then s.strk fun k => { k with loadNext := some (if next then v else v + 1) } else s
  let n := if next then s.stroke.loadNext.getD (s.now + 1) else s.now
  if n.toNat % 65536 ≠ 0 then (s.stkRaise STK_STATUS_MARK_ERR).crewMarkErr else s

-- log 122: DEDUCED, unsafe; log 123: DEDUCED, unsafe; log 147: DESIGN CHOICE, safe.
/-- STROKE_PULSE (R22, R24 to R28, R472): a pulse `width` ns wide whose edge comes `t` ns after the running catch, and, where
an edge was accepted one stroke before, `interval` ps after that edge. -/
def execStrokePulse (width : BitVec 16) (t : BitVec 24) (interval : Option (BitVec 32)) (s : State) : Outcome :=
  let w := width.toNat
  let spur (s : State) : State := s.stick STK_CNT_SPUR STK_CNT_SPUR_COUNT 1
  let mark := 800 ≤ w ∧ w ≤ 1600
  .next (if !s.pllRuns then s
    else if w < 100 ∨ (400 < w ∧ w < 800) ∨ 1600 < w then spur s
    else if s.src ≠ 1 then s
    else
      let period : Int := s.stroke.period
      let d : Int := (t.toNat : Int) - s.fld STK_IN_COMP STK_IN_COMP_COMP_NS
      let ph := d * 1024 / period
      let next := 512 ≤ ph
      let off := if next then d - period else d
      if 2 ≤ s.stkState ∧ 64 * period < 1024 * off.natAbs then spur s
      else
        let n := if next then s.stroke.loadNext.getD (s.now + 1) else s.now
        let s := (s.strk fun k => { k with edgeCatch := some n, missRun := 0 }).acquire
        let wrong : Bool := match interval with
          | some p => decide (100 * period < 1000 * ((p.toNat : Int) - 1000 * period).natAbs)
          | none => false
        let s := if mark then s.marker next else s
        if s.stkState = 1 ∧ wrong then (s.stkRaise STK_STATUS_PERIOD_ERR).strk fun k => { k with qual := 0 }
        else if s.mayStep then s.pllStep (if next then 1023 else 0)
        else s.qualify (1024 * off.natAbs ≤ period))

-- log 124: DEDUCED, unsafe.
/-- MISSED_WINDOW (R33): the window of the running catch has closed without an accepted edge. -/
def execMissedWindow (s : State) : Outcome :=
  .next (if !s.pllRuns ∨ s.src ≠ 1 ∨ s.stroke.edgeCatch = some s.now then s
    else
      let s := s.stick STK_CNT_MISS STK_CNT_MISS_COUNT 1
      let n := s.stroke.missRun + 1
      let s := s.strk fun k => { k with missRun := n, edgeCatch := some s.now }
      if 2 ≤ n then s.inputLost else s)

-- log 149: DEDUCED, unsafe.
/-- R29: the slave's delay request on port p, in its domain, transport and addresses. -/
def State.delayReq (s : State) (p : Nat) : State := s.emit (.fabric p 2 (1 :: s.stroke.ptp))

-- log 149: DEDUCED, unsafe.
/-- R29: a PTP message that fabric port p receives is served: the port is the selected one, and the domain and transport
are the slave's. -/
def State.ptpServed (s : State) (p domain transport : Nat) : Bool :=
  s.src == 2 && p == s.fld STK_CTRL STK_CTRL_PTP_PORT && domain == s.stroke.ptp.getD 0 0 && transport == s.stroke.ptp.getD 1 0

/-- R33: a PTP message of grandmaster gm; a change of its identity loses the input. -/
def State.hearGrandmaster (s : State) (gm : Nat) : State :=
  let new : Bool := match s.stroke.grandmaster with | some g => g != gm | none => false
  (if new then s.inputLost else s).strk fun k => { k with grandmaster := some gm }

-- log 127: DEDUCED, unsafe; log 149: DEDUCED, unsafe.
/-- PTP_SYNC (R29, R30, R32, R33): a Sync that fabric port p receives: its domain, transport and log interval, its 1588 time
in ns (of a two-step Sync, that of its Follow_Up), the PLL's offset from it in ns, and the grandmaster. The number of the
running stroke is derived from the time and the offset, and at the step from the time alone; not on the way back from
HOLDOVER (R37). -/
def execPtpSync (p : BitVec 3) (time : BitVec 64) (offset : BitVec 17) (ptp : PtpHead) (s : State) : Outcome :=
  .next (if !s.pllRuns ∨ !s.fabUp p.toNat then s
    else if !s.ptpServed p.toNat ptp.domain.toNat ptp.transport.toNat ∨ ptp.interval.toInt < -7 ∨ 0 < ptp.interval.toInt then s.fabDrop p.toNat
    else
      let s := ((s.hearGrandmaster ptp.gm.toNat).delayReq p.toNat).acquire
      let since : Int := (time.toNat : Int) - (s.rd STK_EPOCH).toNat
      let period : Int := s.fld STK_PERIOD STK_PERIOD_PERIOD_NS
      if since < 0 then s.stkRaise STK_STATUS_ARG_ERR
      else
        let step := s.mayStep
        let n := BitVec.ofInt 64 ((if step then since else since + offset.toInt) / period)
        let s := if n ≠ s.now ∧ !(s.stkState == 1 && s.stroke.lockedOnce) then
            ((s.wr STK_NOW n).setf STK_PHASE STK_PHASE_NUM_LO (n.toNat % 2 ^ 32)).strk fun k => { k with armedNow := List.range 512 }
          else s
        if step then s.pllStep (since % period * 1024 / period).toNat
        else s.qualify (1024 * (offset.toInt.natAbs : Int) ≤ period))

/-- SYNC_INTERVAL_LOSS (R33). -/
def execSyncIntervalLoss (s : State) : Outcome := .next (if s.pllRuns ∧ s.src = 2 then s.inputLost else s)

-- log 131: DEDUCED, unsafe.
/-- HOLDOVER_AGED (R36). -/
def execHoldoverAged (s : State) : Outcome :=
  .next (if 65536 ≤ s.fld STK_HOLD_CNT STK_HOLD_CNT_COUNT ∧ s.stkState = 3 ∧ !s.bit STK_STATUS STK_STATUS_AGED then
    (s.setf STK_STATUS STK_STATUS_AGED 1).crewStroke else s)

/-- FAB_LINK_CHANGE (R315): fabric port p goes DOWN (0), begins training (1), or has trained `lanes` lanes (2). -/
def execFabLinkChange (p : BitVec 3) (what : BitVec 2) (lanes : BitVec 3) (s : State) : Outcome :=
  .next (s.fabLink p.toNat what.toNat lanes.toNat)

-- log 146: DESIGN CHOICE, safe; log 149: DEDUCED, unsafe.
/-- FABRIC_FRAME (R316, R29): a frame on fabric port p that is no packet of the other rows: 0 PAUSE or PFC, 1 ARP or
Neighbour Discovery, 2 a PTP message other than Sync with its domain, transport and grandmaster, 3 an uncorrectable FEC
codeword, else a frame that is discarded; a PTP message that R29 does not serve is one too. -/
def execFabricFrame (p : BitVec 3) (kind : BitVec 3) (ptp : PtpHead) (s : State) : Outcome :=
  let n := p.toNat
  .next (if !s.fabUp n then s
    else match kind.toNat with
      | 0 => s.stick (FAB_CNT_PFC n) FAB_CNT_PFC_COUNT 1
      | 1 => s.emit (.fabric n 0 [0x0806])
      | 2 => if s.ptpServed n ptp.domain.toNat ptp.transport.toNat then s.hearGrandmaster ptp.gm.toNat else s.fabDrop n
      | 3 => (s.stick (FAB_CNT_FEC n) FAB_CNT_FEC_COUNT 1).rasEvent 8 0x22 1 n 0 0
      | _ => s.fabDrop n)

/-! ### The catch-event table -/

def State.evtState (s : State) (i : Nat) : Nat := s.fld (STK_EVT_W3 i) STK_EVT_W3_STATE
def State.evtKind (s : State) (i : Nat) : Nat := s.fld (STK_EVT_W1 i) STK_EVT_W1_KIND
def State.evtTarget (s : State) (i : Nat) : Nat := s.fld (STK_EVT_W1 i) STK_EVT_W1_TARGET
def State.evtArg (s : State) (i : Nat) : Nat := s.fld (STK_EVT_W1 i) STK_EVT_W1_ARG
def State.evtPhase (s : State) (i : Nat) : Nat := s.fld (STK_EVT_W1 i) STK_EVT_W1_PHASE
def State.stkPhase (s : State) : Nat := s.fld STK_PHASE STK_PHASE_PHASE

/-- The stroke at which an entry is due: its DUE, stretched for a crew phase (R340). -/
def State.evtDue (s : State) (i : Nat) : Word :=
  let due := s.rd (STK_EVT_DUE i)
  if s.evtKind i = 1 then due + BitVec.ofNat 64 (s.paceStretch (s.evtTarget i) due) else due

/-- The owner code of the group of entry i (Table 2.8). -/
def State.evtOwner (s : State) (i : Nat) : Nat := (s.rd STK_GRP_OWNER).toNat / 16 ^ (i / 32) % 16

def ownsGroup (m : Master) (code : Nat) : Bool :=
  match m with
  | .tile t => code == t / 32 + 1
  | .host => false
  | _ => code == 0

/-- R42 step 3: TARGET and ARG are in range for the kind (Table 2.6). -/
def evtRange (kind target arg : Nat) : Bool :=
  match kind with
  | 1 => target < 1024
  | 2 => target == 0
  | 3 => target == 0 && arg < 16
  | 4 => target < 64 && arg < 512 && arg % 256 != 0
  | 5 => target == 0 && arg < 16
  | 7 => target < 16384 && arg != 0
  | 8 => target < 256 && arg < 512
  | _ => target == 0 && arg == 0

/-- R42 step 4: what a die may arm. -/
def dieMay (d kind target : Nat) : Bool :=
  kind == 0 || (kind == 7 && target / 2048 == d) || (kind == 8 && target / 32 == d)

/-- R42: the flag that a write of 1 to STATE of entry i sets, if it fails a check. -/
def State.armBad (s : State) (i : Nat) : Option Fld :=
  let k := s.evtKind i
  let o := s.evtOwner i
  if s.fld (STK_EVT_W1 i) STK_EVT_W1_VER ≠ 0 ∨ 8 < k then some STK_STATUS_VER_ERR
  else if !evtRange k (s.evtTarget i) (s.evtArg i) then some STK_STATUS_ARG_ERR
  else if 1 ≤ o ∧ !dieMay (o - 1) k (s.evtTarget i) then some STK_STATUS_PERM_ERR
  else none

/-- Entry i is armed: FIRE_CNT and LATE are cleared (R42). -/
def State.evtArm (s : State) (i : Nat) : State :=
  (s.wr (STK_EVT_W3 i) 1).strk fun k => { k with armedNow := if k.armedNow.contains i then k.armedNow else k.armedNow ++ [i] }

/-- Kinds that Easy holds (Table 2.6). -/
def evtHeld (kind : Nat) : Bool := kind == 1 || kind == 2 || kind == 7 || kind == 8

/-- Entry i is due in this phase unit and fires (R44); one that Easy holds does not. -/
def State.firesNow (s : State) (i : Nat) : Bool :=
  s.evtState i == 1 && s.evtDue i == s.now && s.evtPhase i == s.stkPhase && s.bit STK_CTRL STK_CTRL_EVT_EN &&
    !(s.easy && evtHeld (s.evtKind i))

/-- A write of v to doubleword j of entry i (R42 to R44, R52). -/
def State.evtWrite (s : State) (m : Master) (i j : Nat) (v : Word) : State :=
  let a := STK_EVT_DUE i + 8 * j
  if !ownsGroup m (s.evtOwner i) then s.stkRaise STK_STATUS_PERM_ERR
  else if j < 3 then
    if s.evtState i = 1 then s.stkRaise STK_STATUS_BUSY_ERR
    else if rsvBad a v then s.stkRaise STK_STATUS_VER_ERR
    else s.wr a v
  else if v &&& 0xFFFFFFFF0000FFF0 ≠ 0 then s.stkRaise STK_STATUS_VER_ERR
  else match v.toNat % 8 with
    | 0 => if s.firesNow i then s else s.setf a STK_EVT_W3_STATE 0
    | 1 =>
      if s.evtState i = 1 then s.stkRaise STK_STATUS_BUSY_ERR
      else match s.armBad i with
        | some f => s.stkRaise f
        | none => s.evtArm i
    | _ => s.stkRaise STK_STATUS_ARG_ERR

/-- The table's drain ends once every dispatched event is accepted (R50). -/
def State.evtSettle (s : State) : State :=
  if s.stroke.inFlight = [] then s.endDrain .events STK_CTRL STK_CTRL_EVT_EN STK_STATUS STK_STATUS_EVT_ACTIVE else s

-- log 129: DEDUCED, unsafe.
/-- EVT_DRAIN_LIMIT (R50): events that their targets have not accepted end; their entries show ABORTED. -/
def execEvtDrainLimit (s : State) : Outcome :=
  .next (if s.drainExpired .events 1 then
    let s := s.stroke.inFlight.foldl (fun s e => s.setf (STK_EVT_W3 e.entry) STK_EVT_W3_STATE 3) s
    (s.strk fun k => { k with inFlight := [] }).evtSettle
  else s)

/-! ### Registers (R28, R38, R52, R54) -/

/-- R54: the source changes. -/
def State.newSource (s : State) : State :=
  let s := s.setf STK_NUM_LOAD STK_NUM_LOAD_PEND 0
  let s := s.strk fun k => { k with qual := 0, slewed := false, missRun := 0, lockedOnce := false, stepped := false, grandmaster := none, loadNext := none }
  s.enterState 0

-- log 126: DEDUCED, unsafe; log 130: DEDUCED, unsafe.
/-- A write of v at offset o of the STK_ block. -/
def State.stkWrite (s : State) (m : Master) (o : Nat) (v : Word) : State :=
  let a := STK_CTRL + o
  if 0x1000 ≤ o then s.evtWrite m ((o - 0x1000) / 0x20) (o % 0x20 / 8) v
  else if !isCox m then s.stkRaise STK_STATUS_PERM_ERR
  else if o ≠ 0x28 ∧ rsvBad a v then s.stkRaise STK_STATUS_VER_ERR
  else if o = 0 then
    if STK_CTRL_SRC.get v = 3 then s.stkRaise STK_STATUS_ARG_ERR
    else
      let new := STK_CTRL_SRC.get v ≠ s.src ∨
        (STK_CTRL_SRC.get v = 2 ∧ STK_CTRL_PTP_PORT.get v ≠ s.fld STK_CTRL STK_CTRL_PTP_PORT)
      let s := s.wr a (STK_CTRL_EVT_EN.put v (s.fld a STK_CTRL_EVT_EN))
      let s := (s.writeEnable .events a STK_CTRL_EVT_EN STK_STATUS STK_STATUS_EVT_ACTIVE (STK_CTRL_EVT_EN.get v = 1)).evtSettle
      if new then s.newSource else s
  else if o = 0x10 then
    let n := STK_PERIOD_PERIOD_NS.get v
    if s.stkState ≠ 0 ∨ n < 2000 ∨ 100000 < n then s.stkRaise STK_STATUS_ARG_ERR else s.wr a v
  else if o = 0x28 then
    if v &&& 0xFFFC ≠ 0 then s.stkRaise STK_STATUS_VER_ERR
    else if STK_NUM_LOAD_CANCEL.get v = 1 then (s.setf a STK_NUM_LOAD_PEND 0).strk fun k => { k with loadNext := none }
    else if s.src = 2 then s.stkRaise STK_STATUS_ARG_ERR
    else
      let hi := STK_NUM_LOAD_NUM_HI.get v
      ((s.setf a STK_NUM_LOAD_NUM_HI hi).setf a STK_NUM_LOAD_PEND 1).strk fun k =>
        { k with loadNext := k.loadNext.map fun n => BitVec.ofNat 64 (hi * 65536 + n.toNat % 65536) }
  else if o = 0x68 then
    if (List.range 16).any fun g => let c := v.toNat / 16 ^ g % 16; 9 ≤ c && c ≤ 14 then s.stkRaise STK_STATUS_VER_ERR else s.wr a v
  else s.put a v

def execStkSourceSelect (m : Master) (v : Word) (s : State) : Outcome := .next (s.stkWrite m 0 v)
def execStkPeriodWrite (m : Master) (v : Word) (s : State) : Outcome := .next (s.stkWrite m 0x10 v)
/-- EVT_EN: a write of STK_CTRL with EVT_EN as in v and its other fields as they stand. -/
def execEvtEn (m : Master) (on : Bool) (s : State) : Outcome :=
  .next (s.stkWrite m 0 (STK_CTRL_EVT_EN.put (s.rd STK_CTRL) (if on then 1 else 0)))
def execStkNumLoad (m : Master) (v : Word) (s : State) : Outcome := .next (s.stkWrite m 0x28 (STK_NUM_LOAD_CANCEL.put v 0))
def execStrokeLoadCancel (m : Master) (v : Word) (s : State) : Outcome := .next (s.stkWrite m 0x28 (STK_NUM_LOAD_CANCEL.put v 1))
def execCatchEventArm (m : Master) (i : BitVec 9) (s : State) : Outcome := .next (s.stkWrite m (0x1018 + 0x20 * i.toNat) 1)
def execCatchEventFree (m : Master) (i : BitVec 9) (s : State) : Outcome := .next (s.stkWrite m (0x1018 + 0x20 * i.toNat) 0)
def execCatchEventWrite (m : Master) (i : BitVec 9) (j : BitVec 2) (v : Word) (s : State) : Outcome :=
  .next (if j = 3 then s else s.stkWrite m (0x1000 + 0x20 * i.toNat + 8 * j.toNat) v)

/-! ### Entries armed by Cox firmware -/

/-- The lowest FREE entry of the groups that Cox firmware owns. -/
def State.freeEntry (s : State) : Option Nat := (List.range 512).find? fun i => s.evtState i == 0 && s.evtOwner i == 0

/-- Cox firmware fills and arms entry i. -/
def State.coxArm (s : State) (i : Nat) (due : Word) (phase kind target arg repeat_ : Nat) : State :=
  let s := s.wr (STK_EVT_DUE i) due
  let s := s.wr (STK_EVT_W1 i) (BitVec.ofNat 64 (arg % 2 ^ 32 * 2 ^ 32 + kind * 2 ^ 28 + target * 1024 + phase))
  (s.wr (STK_EVT_W2 i) (BitVec.ofNat 64 repeat_)).evtArm i

def State.coxFree (s : State) (i : Nat) : State := s.setf (STK_EVT_W3 i) STK_EVT_W3_STATE 0

end Sys2Proof.Machine
end

