-- ==== Sys2Proof/Machine/Session.lean ====
section
/-!
DEFINITION. Mailboxes (R272 to R274), MCTP requests (R271), sessions (R279 to R284), and the commands about sessions,
events and long operations (R286 to R289).
-/
namespace Sys2Proof.Machine

/-! ### The mailbox pool -/

-- log 164: PRESUMED, unsafe.
/-- The function answers the host: not in reset or D3hot, Memory Space Enable set (R299). -/
def State.hostOpen (s : State) : Bool := s.bit PCI_STATUS PCI_STATUS_MSE && !s.bit PCI_STATUS PCI_STATUS_FRST && !s.host.d3

/-- MB_ERR records an ownership error of mailbox m (R272). -/
def State.mbErr (s : State) (kind m : Nat) : State :=
  (s.wr MB_ERR (BitVec.ofNat 64 (2 ^ 63 + kind * 2 ^ 60 + m))).hostCause HOST_INT_CAUSE_MAILBOX

/-- R273: a read of MB_CLAIM. -/
def State.claim (s : State) : State × Word :=
  match (List.range 512).find? fun m => (s.mailbox m).state == 0 with
  | some m => (s.setMailbox m { state := 1, tick := s.stroke.ticks, freeAtEnd := false }, BitVec.ofNat 64 m)
  | none => (s, BitVec.ofNat 64 (2 ^ 63))

/-- A completion returns to the host (R305). -/
def State.complete (s : State) (tag status len value : Nat) : State :=
  { s with host := { s.host with cpls := s.host.cpls ++ [⟨tag, status, len, value⟩] } }

/-- The request in mailbox m. -/
def State.mailReq (s : State) (m : Nat) : CoxReq :=
  let h1 := s.mailWord m 1
  { origin := .bar0 m, h0 := s.mailWord m 0, h1 := h1, rest := (List.range 6).any fun i => s.mailWord m (2 + i) != 0
    tick := s.stroke.ticks, words := (List.range ((min 4032 (h1.toNat % 8192) + 7) / 8)).map fun i => s.mailWord m (8 + i) }

/-- A request enters the Cox's queue (R276). -/
def State.coxEnqueue (s : State) (r : CoxReq) : State :=
  let s := { s with cox := { s.cox with queue := s.cox.queue ++ [r] } }
  s.coxFlush s.cox.queue.length

/-- A write of v to MB_DOORBELL (R272). -/
def State.doorbell (s : State) (v : Word) : State :=
  if 512 ≤ v.toNat then s else
  let m := v.toNat
  let x := s.mailbox m
  if x.state = 1 ∨ x.state = 3 then (s.setMailbox m { x with state := 2 }).coxEnqueue (s.mailReq m)
  else s.mbErr 1 m

/-- A write of v to MB_RELEASE (R272). -/
def State.release (s : State) (v : Word) : State :=
  if 512 ≤ v.toNat then s else
  let m := v.toNat
  let x := s.mailbox m
  if x.state = 1 ∨ x.state = 3 then s.setMailbox m Mailbox.free else s.mbErr 2 m

/-- CLAIM_EXPIRY (R273). -/
def execClaimExpiry (m : BitVec 9) (s : State) : Outcome :=
  let x := s.mailbox m.toNat
  .next (if x.state = 1 ∧ x.tick + 1000 ≤ s.stroke.ticks then (s.setMailbox m.toNat Mailbox.free).mbErr 4 m.toNat else s)

-- log 166: DEDUCED, safe.
/-- MCTP_REQUEST (R271): a message of endpoint ep under a tag, with its type, Vendor ID and message code; where these name a
command, it is queued, or answered BUSY where it is the ninth outstanding. -/
def execMctpRequest (ep : BitVec 8) (m : MctpHead) (h0 h1 : Word) (rest : Bool) (ws : List Word) (s : State) : Outcome :=
  let r : CoxReq := { origin := .mctp ep.toNat m.tag.toNat, h0 := h0, h1 := h1, rest := rest, tick := s.stroke.ticks, words := ws }
  let held := (s.cox.queue.filter fun q => match q.origin with | .mctp e _ => e == ep.toNat | _ => false).length
  .next (if [m.typ.toNat, m.vendor.toNat, m.code.toNat] ≠ mctpHead then s
    else if 8 ≤ held then s.coxRespond r (Ans.err 2) else s.coxEnqueue r)

/-! ### Sessions -/

def State.setCox (s : State) (f : Cox → Cox) : State := { s with cox := f s.cox }
def State.putSession (s : State) (x : Session) : State :=
  s.setCox fun c => { c with sessions := c.sessions.map fun y => if y.num = x.num then x else y }

/-- R281: the lowest number that is not open and was not closed within the last 60,000 ticks. -/
def State.freeSession (s : State) : Option Nat :=
  let used := s.cox.sessions.map (·.num) ++ (s.cox.closed.filter fun q => s.stroke.ticks < q.2 + 60000).map (·.1)
  freeFrom used 1 65535

def reservedKinds (mask : Nat) : Bool := mask % 2 == 1 || 8192 ≤ mask

/-- The tick and stroke doubleword of HELLO and PING. -/
def State.tickStroke (s : State) : Word := BitVec.ofNat 64 (s.tick32 * 2 ^ 32 + s.now.toNat % 2 ^ 32)

/-- R279 to R281: HELLO at the head of the queue. -/
def State.hello (s : State) (r : CoxReq) : State × Ans :=
  let w0 := r.words.getD 0 0
  let mask := r.w 2 % 2 ^ 32
  let role := field w0 31 30
  let party := r.origin.party
  if (role = 3) ≠ (party = 2) then (s, Ans.err 6)
  else
    checked s r 24 [(field w0 17 0 != 0 || field w0 63 56 != 2 || 2 < field w0 47 40 || field w0 39 32 < 2, 7, 0),
        (2 ^ 32 ≤ r.w 2, 7, 0x10), (reservedKinds mask, 4, 0x10)]
      (match s.freeSession with
         | none => (s, Ans.err 0x0C)
         | some n =>
           if 4096 ≤ s.cox.sessions.length ∨ (role = 2 ∧ 8 ≤ (s.cox.sessions.filter (·.role == 2)).length) then (s, Ans.err 0x0C)
           else
             let fw := s.fld FW_IFACE_VER FW_IFACE_VER_MINOR
             let minor := min (field w0 55 48) fw
             let x : Session := { num := n, party := party, client := r.words.getD 1 0, role := role, minor := minor, mask := mask
                                  irq := field w0 29 29 = 1, vec := field w0 28 18, queue := [], lost := 0, lastTick := r.tick }
             let s := (s.setCox fun c => { c with sessions := c.sessions ++ [x] }).coxLog 3 0 n 0 x.client.toNat party x.client
             (s, Ans.ok [BitVec.ofNat 64 (n * 2 ^ 48 + 2 * 2 ^ 40 + minor * 2 ^ 32 + fw * 2 ^ 24 + 2 * 2 ^ 16 + role * 2 ^ 14),
               BitVec.ofNat 64 (1000 * 2 ^ 48 + s.cox.sessions.length * 2 ^ 32), s.sec.build, s.tickStroke]))

/-- HELLO (R279). -/
def execHello (s : State) : Outcome :=
  .next (match s.cox.queue with
    | [] => s
    | r :: _ =>
      if r.cmd ≠ 1 ∨ s.coxIdle then s
      else
        let s0 := s.coxPop
        let q := match s0.coxHead12 r with
          | some a => (s0, a)
          | none => (s0.renew r).hello r
        let s := q.1.coxAnswer r q.2
        s.coxFlush s.cox.queue.length)

/-! ### Long operations -/

/-- The kind permits suspension (Table 11.8). -/
def Lop.suspends (l : Lop) : Bool := l.cmd == 0x60 || l.cmd == 0x92 || l.cmd == 0xA0

/-- The kind permits cancellation at this point (Table 11.8): CREW_FORM until the crew is active, PAIR_JOIN until SYNCING
ends, EASY_ENTER before entry, FW_ACTIVATE until verification has ended (PROGRESS 1). -/
def State.cancels (s : State) (l : Lop) : Bool :=
  match l.cmd with
  | 0x60 => true
  | 0x61 => true
  | 0x71 => (s.crew (l.args.getD 0 0)).state == 1
  | 0x80 => l.state == 0 || s.pstate < 3
  | 0x91 => !s.bit DEV_STATUS DEV_STATUS_EASY
  | 0x92 => true
  | 0xA0 => true
  | 0xA1 => l.progress == 0
  | _ => false

-- log 90: DEDUCED, unsafe.
/-- PAIR_LEAVE, or a PAIR_JOIN that is cancelled: checkpoints stop, images are freed, the state is UNPAIRED (R349). -/
def State.unpair (s : State) : State :=
  let s := (s.dropCkpt.setPstate 0).failRestores
  let s := match s.mirror.entry with | some i => s.coxFree i | none => s
  (s.mir fun m => { m with images := [], copying := [], stage := [], stageEnd := none, stageSeq := 0, helloSent := false
                           helloHeard := false, cur := [], entry := none, oversized := false, p := [], jseq := 0 }).hbClose

/-- What a kind undoes when it is cancelled; the operation ends CANCELLED. A PAIR_JOIN that has not begun leaves the pair
state as it is. -/
def State.lopCancelNow (s : State) (l : Lop) : State :=
  let s := match l.cmd with
    | 0x71 => s.crewCancel (l.args.getD 0 0)
    | 0x80 => if l.state = 0 then s else s.unpair
    | _ => s
  s.lopEnd l.handle 4 9 0 l.result

/-- R287: a cancellation that the kind permits: at once while QUEUED or SUSPENDED, else at the next safe point. A running
Burnisher command is cancelled under R214. -/
def State.lopCancel (s : State) (l : Lop) : State :=
  if l.state = 1 then
    let s := s.putLop { l with cancel := true }
    if l.cmd = 0x61 then s.burnCancel (l.args.getD 0 0) 32 else s
  else s.lopCancelNow l

-- log 27: DEDUCED, unsafe.
/-- R282, R284: a session closes; its commands that wait keep it. -/
def State.closeSession (s : State) (n : Nat) : State :=
  let mine := s.cox.lops.filter fun l => l.session == n
  let s := match s.cox.sessions.find? (·.num == n) with
    | some x => s.coxLog 4 0 n 0 x.client.toNat x.party x.client
    | none => s
  let x? := s.cox.sessions.find? (·.num == n)
  let keep (r : CoxReq) : CoxReq := match x? with
    | some x => if r.session = n ∧ r.origin.party = x.party ∧ r.kept.isNone then { r with kept := some x } else r
    | none => r
  let s := s.setCox fun c => { c with sessions := c.sessions.filter (fun x => x.num ≠ n), closed := c.closed ++ [(n, s.stroke.ticks)]
                                      queue := c.queue.map keep
                                      lops := c.lops.map fun l => if l.session = n then { l with session := 0 } else l }
  mine.foldl (fun s l => match s.lop l.handle with
    | some l => if l.live && !l.detach && s.cancels l then s.lopCancel l else s
    | none => s) s

/-- R282: the tick of the latest doorbell of session x that passes step 2 of R275, waiting commands among them. -/
def State.lastDoor (s : State) (x : Session) : Nat :=
  (s.cox.queue.filter fun r => r.session == x.num && r.origin.party == x.party && r.kept.isNone && !r.growth).foldl
    (fun t r => max t r.tick) x.lastTick

/-- SESSION_LEASE_EXPIRY (R282). -/
def execSessionLeaseExpiry (n : BitVec 16) (s : State) : Outcome :=
  .next (match s.cox.sessions.find? (·.num == n.toNat) with
    | some x => if s.lastDoor x + 1000 ≤ s.stroke.ticks ∧ !s.bit DEV_STATUS DEV_STATUS_COX_RST then s.closeSession x.num else s
    | none => s)

def execBye (s : State) : Outcome :=
  coxCmd 0x0002 0 true true (fun s r x => checked s r 0 [] (s.closeSession x.num, Ans.ok [])) s

def execPing (s : State) : Outcome :=
  coxCmd 0x0003 0 true true (fun s r _ => checked s r 0 [] (s, Ans.ok [s.tickStroke])) s

/-- An event record (Table 11.11). -/
def EvRec.words (e : EvRec) : List Word :=
  [BitVec.ofNat 64 (e.ev.kind * 2 ^ 56 + e.ev.status % 256 * 2 ^ 48 + e.ev.state % 256 * 2 ^ 40 + e.ev.object % 2 ^ 32),
   BitVec.ofNat 64 (e.tick * 2 ^ 32 + e.stroke)]

-- log 26: DESIGN CHOICE, unsafe.
/-- EVENT_READ (R288): the oldest records, at most MAX. -/
def execEventRead (s : State) : Outcome :=
  coxCmd 0x0004 0 false true (fun s r x =>
    let max := r.w 0
    checked s r 8 [(max == 0 || 251 < max, 4, 0)]
      (match (if r.kept.isSome then none else s.cox.sessions.find? (·.num == x.num)) with
       | none => (s, Ans.ok (BitVec.ofNat 64 ((x.queue.take max).length * 2 ^ 48 + min x.lost 65535 * 2 ^ 32) ::
           (x.queue.take max).foldl (fun l e => l ++ e.words) []))
       | some x =>
         let out := x.queue.take max
         (s.putSession { x with queue := x.queue.drop max, lost := 0 },
          Ans.ok (BitVec.ofNat 64 (out.length * 2 ^ 48 + min x.lost 65535 * 2 ^ 32) :: out.foldl (fun l e => l ++ e.words) [])))) s

def execEventMask (s : State) : Outcome :=
  coxCmd 0x0005 0 false true (fun s r x =>
    checked s r 8 [(reservedKinds (r.w 0), 4, 0)]
      (match (if r.kept.isSome then none else s.cox.sessions.find? (·.num == x.num)) with
       | none => (s, Ans.ok [BitVec.ofNat 64 x.mask])
       | some x => (s.putSession { x with mask := r.w 0 }, Ans.ok [BitVec.ofNat 64 x.mask]))) s

/-- A command about the operation whose handle is its payload: NO_HANDLE, DENIED for another client's, else `k`. -/
def lopCmd (code role : Nat) (k : State → Lop → State × Option Ans) (s : State) : Outcome :=
  coxCmd code role false true (fun s r x =>
    checked s r 8 []
      (match s.lop (r.w 0) with
       | none => (s, Ans.err 0x0E)
       | some l =>
         if !(l.party == x.party && l.client == x.client) then (s, Ans.err 6)
         else
           let q := k s l
           match q.2, q.1.lop l.handle with
           | some a, _ => (q.1, a)
           | none, some l => (q.1, Ans.ok l.record)
           | none, none => (q.1, Ans.ok l.record))) s

def execLopQuery (s : State) : Outcome := lopCmd 0x0010 0 (fun s _ => (s, none)) s

/-- LOP_SUSPEND (R287). -/
def execLopSuspend (s : State) : Outcome :=
  lopCmd 0x0011 1 (fun s l =>
    if !l.live ∨ l.state = 2 then (s, none)
    else if !l.suspends then (s, some (Ans.at 4 0))
    else if l.state = 0 then (s.lopEnter { l with state := 2, status := 8 }, none)
    else (s.putLop { l with suspend := true }, none)) s

/-- LOP_RESUME (R287). -/
def execLopResume (s : State) : Outcome :=
  lopCmd 0x0012 1 (fun s l => if l.state = 2 then (s.lopEnter { l with state := 0, status := 0, suspend := false }, none) else (s, none)) s

/-- LOP_CANCEL (R287). -/
def execLopCancel (s : State) : Outcome :=
  lopCmd 0x0013 1 (fun s l =>
    if !l.live then (s, none)
    else if !s.cancels l then (s, some (Ans.at 4 0))
    else (s.lopCancel l, none)) s

/-- LOP_LIST: up to 250 pairs of handle and state of the client's operations, from a first handle. -/
def execLopList (s : State) : Outcome :=
  coxCmd 0x0014 0 false true (fun s r x =>
    checked s r 8 []
      (s, Ans.ok (((s.cox.lops.filter fun l => l.party == x.party && l.client == x.client && r.w 0 ≤ l.handle).take 250).foldl
        (fun o l => o ++ [BitVec.ofNat 64 l.handle, BitVec.ofNat 64 l.state]) []))) s

/-- HANDLE_EXPIRY (R286). -/
def execHandleExpiry (h : BitVec 32) (s : State) : Outcome :=
  .next (match s.lop h.toNat with
    | some l =>
      if !l.live ∧ 60000 ≤ (s.stroke.ticks + 2 ^ 32 - l.endTick) % 2 ^ 32 then
        s.setCox fun c => { c with lops := c.lops.filter fun y => y.handle ≠ l.handle }
      else s
    | none => s)

end Sys2Proof.Machine
end

