-- ==== Sys2Proof/Machine/Rings.lean ====
section
/-!
DEFINITION. Launch rings (R290 to R294): their commands, their doorbell pages, and the launch engine.
-/
namespace Sys2Proof.Machine

def State.ring (s : State) (n : Nat) : Option Ring := (s.cox.rings.find? (·.1 == n)).map (·.2)
def State.putRing (s : State) (n : Nat) (r : Ring) : State :=
  s.setCox fun c => { c with rings := c.rings.map fun q => if q.1 = n then (n, r) else q }

/-- Bytes of a ring's entries, and the doorbell page that follows at the next 4 KiB (R290). -/
def Ring.bytes (r : Ring) : Nat := 2 ^ r.log2n * 64
-- log 28: DEDUCED, unsafe.
def Ring.door (r : Ring) : Nat := r.base + (r.bytes + 4095) / 4096 * 4096
def Ring.size (r : Ring) : Nat := 2 ^ r.log2n

-- log 28: DEDUCED, unsafe.
/-- R290: the lowest BAR4 offset, aligned to 4 KiB, with room for n bytes of entries and the doorbell page. -/
def State.bar4Room (s : State) (n : Nat) : Option Nat :=
  let pages := (n + 4095) / 4096 + 1
  (List.range (4097 - pages)).map (4096 * ·) |>.find? fun b =>
    !s.cox.rings.any fun q => q.2.base < b + 4096 * pages && b < q.2.door + 4096

/-- An error or NOTIFY of ring n: a LAUNCH event (kind 10), and vector VEC when NIRQ is set. -/
def State.launchEvent (s : State) (n status : Nat) (r : Ring) : State :=
  let s := s.event ⟨10, status, 0, n⟩
  if r.nirq then s.raiseVec r.vec else s

/-- R294: ring n stops with an ERR code; HEAD names the failing entry. -/
def State.ringErr (s : State) (n code : Nat) (r : Ring) : State :=
  (s.putRing n { r with state := 3, err := code }).launchEvent n code r

/-- RING_CREATE (R290, Table 11.13). -/
def execRingCreate (s : State) : Outcome :=
  coxCmd 0x0030 1 false false (fun s r x =>
    let w0 := r.words.getD 0 0
    let w1 := r.words.getD 1 0
    let log2n := field w0 59 56
    let land_ := field w1 22 0
    checked s r 16 [(field w0 63 60 != 0 || field w0 31 0 != 0, 7, 0), (log2n < 4 || 12 < log2n || field w0 55 50 == field w0 49 44, 4, 0),
        (field w1 63 23 != 0, 7, 8), (land_ % 512 != 0 || 0x5FFE00 < land_, 4, 8)]
      (match freeFrom (s.cox.rings.map (·.1)) 0 64, s.bar4Room (2 ^ log2n * 64) with
       | some n, some base =>
         if 64 ≤ n then (s, Ans.err 0x0C) else
         let g : Ring := { party := x.party, client := x.client, log2n := log2n, free := field w0 55 50, rdy := field w0 49 44
                           nirq := field w0 43 43 = 1, vec := field w0 42 32, land := land_, base := base, tail := 0, head := 0
                           state := 0, err := 0, notify := 0, next := 0, asked := false, granted := false, counts := [] }
         (s.setCox fun c => { c with rings := c.rings ++ [(n, g)] },
          Ans.ok [BitVec.ofNat 64 n, BitVec.ofNat 64 base, BitVec.ofNat 64 g.door])
       | _, _ => (s, Ans.err 0x0C))) s

/-- Entries written and not delivered. -/
def Ring.ahead (r : Ring) : Nat := (r.tail + 2 ^ 32 - r.head) % 2 ^ 32

-- log 29: DESIGN CHOICE, safe.
/-- The ring resumes at HEAD, or idles; a TAIL too far ahead stops it (R291). -/
def State.ringGo (s : State) (n : Nat) (r : Ring) : State :=
  if r.size < r.ahead then s.ringErr n 4 r
  else s.putRing n { r with state := if r.ahead = 0 then 0 else if r.asked then 2 else 1, err := 0 }

/-- A write of v to RING_TAIL of ring n (R291). -/
def State.tailWrite (s : State) (n : Nat) (v : Word) : State :=
  match s.ring n with
  | none => s
  | some r =>
    if 2 ^ 32 ≤ v.toNat then s
    else
      let r := { r with tail := v.toNat }
      if r.state = 3 then s.putRing n r else s.ringGo n r

/-- A write of RING_NOTIFY (R294). -/
def State.notifyWrite (s : State) (n : Nat) : State :=
  match s.ring n with
  | none => s
  | some r => (s.putRing n { r with notify := (r.notify + 1) % 2 ^ 32 }).launchEvent n 0 r

/-- A write of v to RING_RESTART. -/
def State.restartWrite (s : State) (n : Nat) (v : Word) : State :=
  match s.ring n with
  | none => s
  | some r => if v = 1 ∧ r.state = 3 then s.ringGo n r else s

/-! ### The launch engine (R292, R293) -/

-- log 28: DEDUCED, unsafe.
/-- Doubleword j of the entry at HEAD, in BAR4. -/
def State.entryWord (s : State) (r : Ring) (j : Nat) : Word :=
  let a := r.base + 64 * (r.head % r.size) + 8 * j
  BitVec.ofNat 64 ((List.range 8).foldl (fun v k => v + (SMap.get noByte s.host.bar4 (a + k)).toNat * 256 ^ k) 0)

/-- Growth fields of a launch entry (Table 11.14). -/
def entryGrowth (w : Word) : Bool := field w 63 56 != 0 || field w 37 32 != 0

/-- A landing write to tile t faults: the tile is not hosted, or the hub has no path to its die (R294). -/
def State.landFault (s : State) (t : Nat) : Bool := s.placement.unhosted.contains t || !s.reach 8 (t / 32)

/-- The ERR code of the entry at HEAD with header w, before any part of it is delivered (R294). -/
def State.entryErr (s : State) (w : Word) : Option Nat :=
  let first := field w 55 48
  let n := field w 47 40 + 1
  if entryGrowth w then some 1
  else if 256 < first + n then some 2
  else if (List.range n).any fun i => s.landFault (first + i) then some 3
  else none

/-- The landing slot of tile t receives the entry with its first doubleword replaced (R292 step 2). -/
def State.landEntry (s : State) (n : Nat) (r : Ring) (t k : Nat) : State :=
  let a := storeBase t + r.land + 64 * (k % 8)
  let w0 := r.head % 2 ^ 32 * 2 ^ 32 + n * 2 ^ 24
  let v := (List.range 7).foldl (fun v j => v + (s.entryWord r (j + 1)).toNat * 2 ^ (64 * (j + 1))) w0
  s.storeWrite a 64 v

/-- The next entry of ring n lands at tile t, which counts it (R292 step 2). -/
def State.land (s : State) (n : Nat) (r : Ring) (t : Nat) : State :=
  let k := SMap.get noNat r.counts t
  (s.landEntry n r t k).putRing n { r with counts := SMap.set noNat r.counts t (k + 1) }

/-- The ready buckle of tile t counts, and interrupt 0x04 becomes pending there (R292 step 3). -/
def State.landReady (s : State) (r : Ring) (t : Nat) : State := (s.bkAdd (64 * t + r.rdy) 1).latchIrq t 4

-- log 29: DESIGN CHOICE, safe.
/-- The free count of the tile is taken: the entry lands and the ready count follows, or its catch event is armed (R293);
none where no table entry is free. -/
def State.deliver (s : State) (n : Nat) (r : Ring) (w : Word) (t : Nat) : Option State :=
  if field w 38 38 = 0 then some ((s.land n r t).landReady r t)
  else match s.freeEntry with
    | none => none
    | some i => some ((s.land n r t).coxArm i (s.nearStroke (field w 31 0)) 0 8 t (n * 8 + SMap.get noNat r.counts t % 8) 0)

/-- Every target tile has received the entry: HEAD advances. -/
def State.entryDone (s : State) (n : Nat) (w : Word) : State :=
  match s.ring n with
  | none => s
  | some r =>
    let r := { r with next := r.next + 1, asked := false, granted := false }
    if r.next ≤ field w 47 40 then s.putRing n { r with state := 1 }
    else
      let r := { r with next := 0, head := (r.head + 1) % 2 ^ 32 }
      let s := s.putRing n { r with state := if r.ahead = 0 then 0 else 1 }
      if field w 39 39 = 1 then s.raiseVec r.vec else s

-- log 29: DESIGN CHOICE, safe.
/-- LAUNCH_DELIVERY: ring n asks for the free count of its next target tile, and once it has it delivers the entry. -/
def State.launch (s : State) (n : Nat) : State :=
  match s.ring n with
  | none => s
  | some r =>
    if r.state = 3 ∨ r.state = 0 then s
    else
      let w := s.entryWord r 0
      let bad := if r.next = 0 ∧ !r.asked then s.entryErr w else none
      match bad with
      | some code => s.ringErr n code r
      | none =>
        let t := field w 55 48 + r.next
        let s := if r.asked then s else (s.putRing n { r with asked := true }).bkWait (64 * t + r.free) 1 (.launch n)
        let taken := s.links.done.contains (.launch n)
        let s := if taken then { s with links := { s.links with done := s.links.done.erase (.launch n) } } else s
        match s.ring n with
        | none => s
        | some r =>
          let r := { r with granted := r.granted || taken }
          let s := s.putRing n r
          if !r.granted ∨ s.moving t ∨ s.holds 8 (t / 32) then s.putRing n { r with state := 2 }
          else if s.landFault t then s.ringErr n 3 r
          else match s.deliver n r w t with
            | none => s.putRing n { r with state := 2 }
            | some s => s.entryDone n w

def execLaunchDelivery (n : BitVec 6) (s : State) : Outcome := .next (s.launch n.toNat)

/-- The engine holds the free count of the next target of ring r, number n. -/
def State.ringHolds (s : State) (n : Nat) (r : Ring) : Bool := r.asked && (r.granted || s.links.done.contains (.launch n))

-- log 29: DESIGN CHOICE, safe.
/-- R476: every delivery of ring n whose take is performed completes: the present one lands, whatever STATE says, and the ready
add of each scheduled one follows at once. Its HEAD then. -/
def State.ringComplete (s : State) (n : Nat) (r : Ring) : State :=
  let s := if !s.ringHolds n r then s
    else
      let w := s.entryWord r 0
      let t := field w 55 48 + r.next
      let s := if s.landFault t then s else (s.land n r t).landReady r t
      (match s.ring n with | some r => s.putRing n { r with state := 1 } | none => s).entryDone n w
  let mine (kind arg : Nat) : Bool := kind == 8 && arg / 8 == n
  let s := ((List.range 512).filter fun i => s.evtState i == 1 && mine (s.evtKind i) (s.evtArg i)).foldl
    (fun s i => (s.coxFree i).landReady r (s.evtTarget i)) s
  let sent := s.stroke.inFlight.filter fun e => mine e.kind e.arg
  let s := s.strk fun k => { k with inFlight := k.inFlight.filter fun e => !mine e.kind e.arg }
  sent.foldl (fun s e => s.landReady r e.target) s

/-- R292, R476: ring n ends. Deliveries whose take is performed complete first; a take still queued is withdrawn. -/
def State.ringEnd (s : State) (n : Nat) : State :=
  match s.ring n with
  | none => s
  | some r =>
    let s := (s.ringComplete n r).bkWithdraw fun w => w == .launch n
    let s := { s with links := { s.links with done := s.links.done.filter fun w => w ≠ WaitWho.launch n } }
    s.setCox fun c => { c with rings := c.rings.filter fun q => q.1 ≠ n }

/-- RING_DESTROY. -/
def execRingDestroy (s : State) : Outcome :=
  coxCmd 0x0031 1 false false (fun s r x =>
    let n := r.w 0
    checked s r 8 [((s.ring n).isNone, 4, 0)]
      (match s.ring n with
       | none => (s, Ans.at 4 0)
       | some g =>
         if !(g.party == x.party && g.client == x.client) then (s, Ans.err 6)
         else
           let head := match (s.ringComplete n g).ring n with | some h => h.head | none => g.head
           (s.ringEnd n, Ans.ok [BitVec.ofNat 64 head]))) s

end Sys2Proof.Machine
end

