-- ==== Sys2Proof/Machine/HostBars.lean ====
section
/-!
DEFINITION. The host's side of the module: BAR0, BAR2 and BAR4 (R299 to R307), MSI-X (R308), telemetry slots (R301),
windows (R303, R304), and the resets and link events of the host-facing function (R312, R430).
-/
namespace Sys2Proof.Machine

/-! ### Failures of inbound requests -/

-- log 30: PRESUMED, unsafe.
/-- Bits of the AER uncorrectable status register of the PCIe specification (log 30). -/
def aerPoisoned : Nat := 12
-- log 30: PRESUMED, unsafe.
def aerTimeout : Nat := 14
-- log 30: PRESUMED, unsafe.
def aerAbort : Nat := 15
-- log 30: PRESUMED, unsafe.
def aerUnsupported : Nat := 20
def State.aerSet (s : State) (b : Nat) : State := { s with host := { s.host with aer := s.host.aer ||| 2 ^ b } }
-- log 30: PRESUMED, unsafe.
/-- Correctable status: 0 receiver error, 13 advisory non-fatal error. -/
def State.aerCorr (s : State) (b : Nat) : State := { s with host := { s.host with aerc := s.host.aerc ||| 2 ^ b } }

-- log 40: DEDUCED, unsafe.
/-- R306: an inbound request fails; `logged` for the kinds that enter the error log, with what the requester was told. -/
def State.inErr (s : State) (logged : Bool) (detail addr : Nat) : State :=
  let s := (s.stick PCI_CNT_IN_ERR PCI_CNT_IN_ERR_COUNT 1).hostCause HOST_INT_CAUSE_IN_ERR
  if logged then s.rasEvent 8 0x20 2 0 detail addr else s

/-! ### Telemetry (R301) -/

def noTelem : Nat → Telem := fun _ => Telem.empty
def State.telem (s : State) (k : Nat) : Telem := SMap.get noTelem s.host.telem k

-- log 44: DESIGN CHOICE, unsafe.
/-- The numerics-watch counters of every die. -/
def watchAddrs : List Nat :=
  (List.range 8).flatMap fun d => (List.range 255).flatMap fun g => [NWT_SEEN d (g + 1), NWT_ZS d (g + 1), NWT_NF d (g + 1)]

-- log 44: DESIGN CHOICE, unsafe.
/-- A snapshot fills slot k: SEQ becomes odd, the slot is written, SEQ becomes even. -/
def State.telemSnap (s : State) (k : Nat) : State :=
  let t : Telem := { seq := ((s.telem k).seq + 2) % 2 ^ 32, stroke := s.now, tick := s.tick32, records := watchAddrs.map fun a => (a, s.rd a) }
  { s with host := { s.host with telem := SMap.set noTelem s.host.telem k t } }

/-- Doubleword at byte offset o of slot k (Table 12.6). -/
def State.telemWord (s : State) (k o : Nat) : Word :=
  let t := s.telem k
  if o = 0 then BitVec.ofNat 64 (t.seq * 2 ^ 32 + t.records.length)
  else if o = 8 then t.stroke
  else if o = 0x10 then BitVec.ofNat 64 (t.tick * 2 ^ 32)
  else if o < 0x40 then 0
  else match t.records[(o - 0x40) / 16]? with
    | none => 0
    | some r => if o % 16 = 0 then BitVec.ofNat 64 (r.1 % 2 ^ 48) else r.2

/-! ### BAR0 (Table 12.4) -/

/-- The mailbox that covers BAR0 offset o, and the offset in it. -/
def boxOf (o : Nat) : Option (Nat × Nat) :=
  if 0x100000 ≤ o ∧ o < 0x500000 then some ((o - 0x100000) / 0x2000, o % 0x2000) else none

/-- The MB_STATE doubleword i. -/
def State.boxStates (s : State) (i : Nat) : Word :=
  BitVec.ofNat 64 ((List.range 32).foldl (fun v k => v + (s.mailbox (32 * i + k)).state * 4 ^ k) 0)

/-- The doubleword a read of BAR0 finds at offset o, a multiple of 8, outside the mailboxes. -/
def State.bar0Word (s : State) (o : Nat) : Word :=
  if o = 0x500020 then BitVec.ofNat 64 ((List.range 512).filter fun m => (s.mailbox m).state == 0).length
  else if 0x500100 ≤ o ∧ o < 0x500180 then s.boxStates ((o - 0x500100) / 8)
  else if o = 0x10000 then s.rd STK_STATUS
  else if o = 0x10008 then s.now
  else if o = 0x10010 then s.rd STK_PHASE
  else if 0x20000 ≤ o ∧ o < 0x28000 then SMap.get msixDefault s.host.msix ((o - 0x20000) / 8)
  else if 0x28000 ≤ o ∧ o < 0x28100 then
    BitVec.ofNat 64 ((s.host.pend.filter fun v => v / 64 == (o - 0x28000) / 8).foldl (fun w v => w ||| 2 ^ (v % 64)) 0)
  else if 0x1000000 ≤ o ∧ o < 0x2000000 then s.telemWord ((o - 0x1000000) / 0x100000) (o % 0x100000)
  else if o = 0x500008 ∨ o = 0x500010 then 0
  else s.rd (bar0Base + o)

/-- A word or half word of a doubleword: n bytes at offset o. -/
def part (w : Word) (o n : Nat) : Nat := w.toNat / 256 ^ (o % 8) % 256 ^ n

/-- R300: naturally aligned accesses of 4 or 8 bytes. -/
def aligned48 (o n : Nat) : Bool := (n == 4 || n == 8) && o % n == 0

-- log 43: DEDUCED, unsafe.
/-- A read of n bytes at offset o of BAR0: the state after, and the bytes or Unsupported Request. -/
def State.bar0Read (s : State) (o n : Nat) : State × Option Nat :=
  match boxOf o with
  | some (m, i) => (s, some ((List.range n).foldl (fun v k => v + (SMap.get noByte s.cox.mail (m * 8192 + i + k)).toNat * 256 ^ k) 0))
  | none =>
    if !aligned48 o n then (s, none)
    else if o / 8 * 8 = 0x500000 then
      if n = 8 then let q := s.claim; (q.1, some q.2.toNat) else (s, none)
    else (s, some (part (s.bar0Word (o / 8 * 8)) o n))

/-- Vector v is unmasked or may be sent: a pending vector is sent once (R308). -/
def State.sendPending (s : State) (v : Nat) : State :=
  if s.host.pend.contains v then
    ({ s with host := { s.host with pend := s.host.pend.filter fun u => u ≠ v } }).raiseVec v
  else s

/-- A write to HOST_INT_MASK: clearing a mask bit whose cause is set raises vector 0. -/
def State.maskWrite (s : State) (v : Word) : State :=
  if rsvBad HOST_INT_MASK v then s
  else
    let freed := s.rd HOST_INT_MASK &&& ~~~ v &&& s.rd HOST_INT_CAUSE
    let s := s.put HOST_INT_MASK v
    if freed &&& 0xF ≠ 0 then s.raiseVec 0 else s

/-- A write of doubleword k of the MSI-X table. -/
def State.msixWrite (s : State) (k : Nat) (v : Word) : State :=
  let s := { s with host := { s.host with msix := SMap.set msixDefault s.host.msix k v } }
  if k % 2 = 1 ∧ !v.getLsbD 32 then s.sendPending (k / 2) else s

/-- A write of doubleword v at offset o of BAR0, outside the mailboxes. -/
def State.bar0Put (s : State) (o : Nat) (v : Word) : State :=
  if o = 0x500008 then s.doorbell v
  else if o = 0x500010 then s.release v
  else if o = 0x1008 then s.maskWrite v
  else if 0x20000 ≤ o ∧ o < 0x28000 then s.msixWrite ((o - 0x20000) / 8) v
  else if o = 0x500018 ∨ o = 0x1000 ∨ o = 0x20 then
    if rsvBad (bar0Base + o) v then s else s.put (bar0Base + o) v
  else s

/-- The doubleword a 4-byte write makes (R72's rule for halves serves the RW registers; W1C bits in the other half are 0). -/
def State.halfWord (s : State) (o n v : Nat) : Word :=
  if n = 8 then BitVec.ofNat 64 v
  else
    let keep := if 0x20000 ≤ o ∧ o < 0x28000 then s.bar0Word (o / 8 * 8) else if o / 8 * 8 = 0x1008 then s.rd HOST_INT_MASK else 0
    if o % 8 = 0 then (keep &&& 0xFFFFFFFF00000000) ||| BitVec.ofNat 64 (v % 2 ^ 32)
    else (keep &&& 0xFFFFFFFF) ||| BitVec.ofNat 64 (v % 2 ^ 32 * 2 ^ 32)

-- log 43: DEDUCED, unsafe.
/-- A write of n bytes v at offset o of BAR0. Request areas accept any size in CLAIMED and DONE (R272, Table 11.2). -/
def State.bar0Write (s : State) (o n v : Nat) : State :=
  match boxOf o with
  | some (m, i) =>
    if 0x1000 ≤ i then s
    else
      let x := s.mailbox m
      if x.state = 1 ∨ x.state = 3 then
        let k := min n (0x1000 - i)
        s.setCox fun c => { c with mail := (List.range k).foldl (fun t j =>
          SMap.set noByte t (m * 8192 + i + j) (BitVec.ofNat 8 (v / 256 ^ j))) c.mail }
      else s.mbErr 3 m
  | none => if aligned48 o n then s.bar0Put (o / 8 * 8) (s.halfWord o n v) else s

/-! ### BAR2 (R302) -/

/-- The device address that BAR2 offset o reaches for a read (`w` false) or a write, if it is served. -/
def State.bar2Addr (s : State) (w : Bool) (o : Nat) : Option Nat :=
  if s.host.bar2 = 42 then
    match regionOf o with
    | .hbm _ => some o
    | .bulk _ => some o
    | .scratch _ _ => some o
    | _ => none
  else
    match (List.range 64).find? fun i =>
      let b := s.fld (PCI_WIN_W0 i) PCI_WIN_W0_BOFF * 65536
      let n := s.fld (PCI_WIN_W2 i) PCI_WIN_W2_LEN * 65536
      s.bit (PCI_WIN_W0 i) PCI_WIN_W0_V && b ≤ o && o < b + n && b + n ≤ 2 ^ s.host.bar2 with
    | some i =>
      if s.bit (PCI_WIN_W0 i) (if w then PCI_WIN_W0_W else PCI_WIN_W0_R) then
        some (s.fld (PCI_WIN_W1 i) PCI_WIN_W1_DADDR * 65536 + (o - s.fld (PCI_WIN_W0 i) PCI_WIN_W0_BOFF * 65536))
      else none
    | none => none

/-- In Easy and while a DATA_RESET runs, BAR2 accesses are answered as accesses to OFFLINE memory (R404, R441). -/
def State.planeDown (s : State) : Bool := s.bit DEV_STATUS DEV_STATUS_EASY || s.fld DEV_STATUS DEV_STATUS_STAGE == 8

/-- How a piece of a BAR2 access ends: 1 Unsupported Request, 2 Completer Abort, 0 the access waits at its home. -/
inductive HostFail where
  | unsupported (scratch : Bool)
  | abort
  | wait
  deriving DecidableEq, Repr

def pieceFail (a : Nat) (e : MemFail) : HostFail :=
  match e with
  | .uncorr => .abort
  | .held => .wait
  | .access => .unsupported (match regionOf a with | .scratch _ _ => true | _ => false)

/-- The pieces of a BAR2 read, line by line: bytes read before the first failure, their value, and the failure with its
address. -/
def State.bar2Read (s : State) : List (Nat × Nat × Nat) → State × Nat × Nat × Option (HostFail × Nat)
  | [] => (s, 0, 0, none)
  | (l, o, k) :: ps =>
    match s.bar2Addr false (l + o) with
    | none => (s, 0, 0, some (.unsupported false, 0))
    | some a =>
      if s.planeDown ∨ !s.reach 8 (dieOf a) then (s, 0, 0, some (.abort, a))
      else if s.holds 8 (dieOf a) then (s, 0, 0, some (.wait, a))
      else match s.pieceRead .host a k with
        | (s, .error e) => (s, 0, 0, some (pieceFail a e, a))
        | (s, .ok v) =>
          let r := State.bar2Read s ps
          (r.1, k + r.2.1, v + r.2.2.1 * 256 ^ k, r.2.2.2)

/-- k bytes v at BAR2 offset o, inside one line, are written. -/
def State.bar2Put (s : State) (o k v : Nat) : State × Option (HostFail × Nat) :=
  match s.bar2Addr true o with
  | none => (s, some (.unsupported false, 0))
  | some a =>
    if s.planeDown ∨ !s.reach 8 (dieOf a) then (s, some (.abort, a))
    else if s.holds 8 (dieOf a) then (s, some (.wait, a))
    else
      let r := s.pieceWrite .host 0 a k v
      (r.1, r.2.map fun e => (pieceFail a e, a))

/-- The pieces of a BAR2 write, line by line, up to one that waits: a piece that fails is discarded, the others are performed.
The first failure, and the bytes before the piece that waits. -/
def State.bar2Write (s : State) (v : Nat) : List (Nat × Nat × Nat) → State × Option (HostFail × Nat) × Nat
  | [] => (s, none, 0)
  | (l, o, k) :: ps =>
    match s.bar2Put (l + o) k (v % 256 ^ k) with
    | (s, some (.wait, _)) => (s, none, 0)
    | (s, f) =>
      let r := State.bar2Write s (v / 256 ^ k) ps
      (r.1, (match f with | some f => some f | none => r.2.1), k + r.2.2)

/-! ### BAR4 -/

/-- The ring whose doorbell page covers BAR4 offset o. -/
def State.doorOf (s : State) (o : Nat) : Option (Nat × Ring) := s.cox.rings.find? fun q => q.2.door ≤ o && o < q.2.door + 4096

def State.bar4Byte (s : State) (o : Nat) : Nat := (SMap.get noByte s.host.bar4 o).toNat

-- log 43: DEDUCED, unsafe.
def State.bar4Read (s : State) (o n : Nat) : Option Nat :=
  match s.doorOf o with
  | some (_, r) =>
    if !aligned48 o n then none
    else
      let w : Word := match o % 4096 / 8 with
        | 1 => BitVec.ofNat 64 r.head
        | 2 => BitVec.ofNat 64 (r.state * 2 ^ 62 + r.err * 2 ^ 48 + r.notify)
        | _ => 0
      some (part w o n)
  | none => some ((List.range n).foldl (fun v k => v + s.bar4Byte (o + k) * 256 ^ k) 0)

-- log 43: DEDUCED, unsafe.
def State.bar4Write (s : State) (o n v : Nat) : State :=
  match s.doorOf o with
  | some (i, _) =>
    if !aligned48 o n ∨ o % 8 ≠ 0 then s
    else match o % 4096 / 8 with
      | 0 => s.tailWrite i (BitVec.ofNat 64 v)
      | 3 => s.notifyWrite i
      | 4 => s.restartWrite i (BitVec.ofNat 64 v)
      | _ => s
  | none =>
    { s with host := { s.host with bar4 := (List.range n).foldl (fun t j =>
      SMap.set noByte t (o + j) (BitVec.ofNat 8 (v / 256 ^ j))) s.host.bar4 } }

/-! ### Requests -/

/-- Bytes that BAR b decodes. -/
def State.barSize (s : State) (b : Nat) : Nat := match b with | 0 => 0x4000000 | 2 => 2 ^ s.host.bar2 | 4 => 0x1000000 | _ => 0

/-- A failed piece of a posted write is recorded (R306). -/
def State.writeFailed (s : State) : HostFail × Nat → State
  | (.unsupported sc, a) => ((s.aerSet aerUnsupported).aerCorr 13).inErr sc 0 a
  | (_, a) => s.inErr true 0 a

/-- R305: the first posted write is performed, up to a piece that waits: what is left of it. -/
def State.hostPerform (s : State) (w : HostWr) : State × Option HostWr :=
  if w.bar = 0 then (s.bar0Write w.off w.len w.value, none)
  else if w.bar = 4 then (s.bar4Write w.off w.len w.value, none)
  else
    let r := s.bar2Write w.value (linesOf (w.len / 128 + 2) w.off w.len)
    let s := match r.2.1 with | some f => if w.failed then r.1 else r.1.writeFailed f | none => r.1
    let k := r.2.2
    (s, if w.len ≤ k then none
      else some { w with off := w.off + k, len := w.len - k, value := w.value / 256 ^ k, failed := w.failed || r.2.1.isSome })

/-- The first line of the first posted write is left out. -/
def State.hostSkip (s : State) : State :=
  match s.host.posted with
  | [] => s
  | w :: ws =>
    let k := min w.len (128 - w.off % 128)
    if w.len ≤ k then
      { s with host := { s.host with posted := ws, reads := s.host.reads.map fun r => { r with behind := r.behind - 1 } } }
    else
      { s with host := { s.host with
          posted := { w with off := w.off + k, len := w.len - k, value := w.value / 256 ^ k } :: ws } }

-- log 31: DESIGN CHOICE, safe.
/-- R305: posted writes are performed in order, at most n of them, until one waits. -/
def State.hostServe (s : State) : Nat → State
  | 0 => s
  | n + 1 =>
    match s.host.posted with
    | [] => s
    | w :: ws =>
      match s.hostPerform w with
      | (s, some w) => { s with host := { s.host with posted := w :: ws } }
      | (s, none) =>
        State.hostServe { s with host := { s.host with
          posted := ws, reads := s.host.reads.map fun r => { r with behind := r.behind - 1 } } } n

-- log 40: DEDUCED, unsafe.
/-- R305 to R307: the answer to a read of the host; none while it waits at a home or on its way. -/
def State.hostAnswer (s : State) (q : HostRd) : Option State :=
  if q.bar = 0 then
    match s.bar0Read q.off q.len with
    | (s, some v) => some (s.complete q.tag 0 q.len v)
    | (s, none) => some (s.complete q.tag 1 0 0)
  else if q.bar = 4 then
    match s.bar4Read q.off q.len with
    | some v => some (s.complete q.tag 0 q.len v)
    | none => some (s.complete q.tag 1 0 0)
  else
    let r := s.bar2Read (linesOf (q.len / 128 + 2) q.off q.len)
    let begun := if r.2.1 = 0 then r.1 else r.1.complete q.tag 0 r.2.1 r.2.2.1
    match r.2.2.2 with
    | some (.wait, _) => none
    | none => some (r.1.complete q.tag 0 q.len r.2.2.1)
    | some (.unsupported sc, a) => some (((begun.complete q.tag 1 0 0).aerSet aerUnsupported).inErr sc 1 a)
    | some (.abort, a) => some (((begun.complete q.tag 2 0 0).aerSet aerAbort).inErr true 2 a)

-- log 31: DESIGN CHOICE, safe.
/-- R305: the hub performs the host's posted writes in order, then answers the reads that no earlier write holds back. -/
def State.hostGo (s : State) : State :=
  let s := s.hostServe s.host.posted.length
  s.host.reads.foldl (fun s q =>
    if 0 < q.behind then s
    else match s.hostAnswer q with
      | none => s
      | some t => { t with host := { t.host with reads := t.host.reads.erase q } }) s

/-- A posted write of n bytes v at offset o of a BAR arrives. -/
def State.hostPut (s : State) (bar o n v : Nat) : State :=
  ({ s with host := { s.host with posted := s.host.posted ++ [HostWr.mk bar o n v false] } }).hostGo

/-- A read of n bytes at offset o of a BAR arrives. -/
def State.hostGet (s : State) (bar o n tag : Nat) : State :=
  ({ s with host := { s.host with reads := s.host.reads ++ [HostRd.mk bar o n tag s.host.posted.length] } }).hostGo

-- log 40: DEDUCED, unsafe.
/-- HOST_READ (R305 to R307): n bytes at offset o of a BAR. -/
def execHostRead (bar : BitVec 3) (o : BitVec 42) (n : BitVec 13) (tag : BitVec 14) (s : State) : Outcome :=
  .next (if !s.hostOpen ∨ n = 0 ∨ s.barSize bar.toNat < o.toNat + n.toNat then s
    else s.hostGet bar.toNat o.toNat n.toNat tag.toNat)

-- log 40: DEDUCED, unsafe.
/-- HOST_WRITE (R305, R306): a posted write of n bytes v at offset o of a BAR; `ep` is the poisoned bit. -/
def execHostWrite (bar : BitVec 3) (o : BitVec 42) (n : BitVec 10) (v : BitVec 4096) (ep : Bool) (s : State) : Outcome :=
  .next (if !s.hostOpen ∨ n = 0 ∨ s.barSize bar.toNat < o.toNat + n.toNat then s
    else if ep then (s.aerSet aerPoisoned).inErr true 0 0
    else s.hostPut bar.toNat o.toNat n.toNat v.toNat)

/-- MB_CLAIM (R273): a read of the register. -/
def execMbClaim (tag : BitVec 14) (s : State) : Outcome := .next (if s.hostOpen then s.hostGet 0 0x500000 8 tag.toNat else s)
/-- MB_DOORBELL, MB_RELEASE (R272). -/
def execMbDoorbell (v : Word) (s : State) : Outcome := .next (if s.hostOpen then s.hostPut 0 0x500008 8 v.toNat else s)
def execMbRelease (v : Word) (s : State) : Outcome := .next (if s.hostOpen then s.hostPut 0 0x500010 8 v.toNat else s)

/-- The host writes doubleword j of the doorbell page of ring n. -/
def State.doorPut (s : State) (n j : Nat) (v : Word) : State :=
  match s.ring n with
  | some r => if s.hostOpen then s.hostPut 4 (r.door + 8 * j) 8 v.toNat else s
  | none => s

/-- RING_TAIL, RING_RESTART (R291, R294). -/
def execRingTail (n : BitVec 6) (v : Word) (s : State) : Outcome := .next (s.doorPut n.toNat 0 v)
def execRingRestart (n : BitVec 6) (v : Word) (s : State) : Outcome := .next (s.doorPut n.toNat 4 v)

/-- RING_NOTIFY: by the host through the doorbell page, or by a tile supervisor at the control-space alias (R294). -/
def execRingNotify (m : Master) (n : BitVec 6) (s : State) : Outcome :=
  .next (match m with
    | .host => s.doorPut n.toNat 3 0
    | .tile _ => s.notifyWrite n.toNat
    | .cox => s)

/-- UNSUPPORTED_REQUEST (R297): an AtomicOp or other request the device does not support. -/
def execUnsupportedRequest (tag : BitVec 14) (posted : Bool) (s : State) : Outcome :=
  .next (if s.bit PCI_STATUS PCI_STATUS_FRST then s
    else (if posted then s else s.complete tag.toNat 1 0 0).aerSet aerUnsupported)

def execHostIntMaskWrite (v : Word) (s : State) : Outcome := .next (if s.hostOpen then s.hostPut 0 0x1008 8 v.toNat else s)

/-- MSIX_UNMASK (R308): the host clears the mask bit of vector v. -/
def execMsixUnmask (v : BitVec 11) (s : State) : Outcome :=
  let w := SMap.get msixDefault s.host.msix (2 * v.toNat + 1) &&& 0xFFFFFFFEFFFFFFFF
  .next (if s.hostOpen then s.hostPut 0 (0x20008 + 16 * v.toNat) 8 w.toNat else s)

/-! ### Configuration space -/

/-- The identity registers of Table 12.2, and the Device Serial Number of Table 12.1. -/
inductive CfgReg where
  | vendor | device | classCode | revision | subsysVendor | subsys | interruptPin | serial
  deriving DecidableEq, Repr

/-- R296, R298: what configuration space identifies the function with. -/
def State.cfg (s : State) : CfgReg → Nat
  | .vendor => s.fld DEV_IDENT DEV_IDENT_VENDOR
  | .device => s.fld DEV_IDENT DEV_IDENT_DEVICE
  | .classCode => 0x120000
  | .revision => s.fld DEV_IDENT DEV_IDENT_REV
  | .subsysVendor => 0x1F3C
  | .subsys => s.fld DEV_IDENT DEV_IDENT_SUBSYS
  | .interruptPin => 0
  | .serial => s.fuses.serial

/-- R299: the BARs that are prefetchable (Table 12.3). -/
def barPrefetch (b : Nat) : Bool := b == 2

/-- BAR2_RESIZE (R304, Table 12.1): log2 of the new size, 30 to 42. -/
def execBar2Resize (log2 : BitVec 6) (s : State) : Outcome :=
  .next (if s.bit PCI_STATUS PCI_STATUS_FRST ∨ log2.toNat < 30 ∨ 42 < log2.toNat then s
    else { s with host := { s.host with bar2 := log2.toNat } })

-- log 164: PRESUMED, unsafe.
/-- CONFIGURATION_WRITE (R296, R299, R308, R309): Memory Space Enable, Bus Master Enable, MSI-X Enable and Function Mask, and
the power state D0 or D3hot. The vectors that were pending for it are sent. -/
def execConfigurationWrite (mse bme : Bool) (c : CfgWrite) (s : State) : Outcome :=
  .next (if s.bit PCI_STATUS PCI_STATUS_FRST then s
    else
      let s := s.setf PCI_STATUS PCI_STATUS_MSE (if mse then 1 else 0)
      let s := s.setf PCI_STATUS PCI_STATUS_BME (if bme then 1 else 0)
      let s := { s with host := { s.host with msixOn := c.msix, fmask := c.fmask, d3 := c.d3 } }
      s.host.pend.foldl (fun s v => s.sendPending v) s)

/-! ### Windows (R303, R304) -/

-- log 70: DEDUCED, unsafe.
/-- WIN_MAP: BAR2 offset, device address, length, attributes (bit 2 W, bit 1 R, as Table 12.7 places them). -/
def execWinMap (s : State) : Outcome :=
  coxCmd 0x0038 1 false false (fun s r x =>
    let b := r.w 0
    let a := r.w 1
    let n := r.w 2
    let at_ := r.w 3
    let overlap := (List.range 64).any fun i =>
      let c := s.fld (PCI_WIN_W0 i) PCI_WIN_W0_BOFF * 65536
      s.bit (PCI_WIN_W0 i) PCI_WIN_W0_V && c < b + n && b < c + s.fld (PCI_WIN_W2 i) PCI_WIN_W2_LEN * 65536
    let whole := a + n ≤ 0x00C000000000 || (0x010000000000 ≤ a && a + n ≤ 0x028000000000) || (0x030000000000 ≤ a && a + n ≤ 0x030040000000)
    checked s r 32
      [(b % 65536 != 0 || 2 ^ s.host.bar2 < b + n || overlap || s.host.bar2 == 42, 4, 0), (a % 65536 != 0 || !whole, 4, 8),
       (n % 65536 != 0 || n == 0 || 67108864 * 65536 < n, 4, 16), (at_ &&& (2 ^ 64 - 1 - 6) != 0, 7, 24)]
      (match (List.range 64).find? fun i => !s.bit (PCI_WIN_W0 i) PCI_WIN_W0_V with
       | none => (s, Ans.err 0x0C)
       | some i =>
         let s := s.wr (PCI_WIN_W1 i) (BitVec.ofNat 64 a)
         let s := s.wr (PCI_WIN_W2 i) (BitVec.ofNat 64 (n / 65536))
         ((s.wr (PCI_WIN_W0 i) (BitVec.ofNat 64 (b + at_ % 8 + 1))).own 1 i x, Ans.ok [BitVec.ofNat 64 i]))) s

def State.winFree (s : State) (i : Nat) : State :=
  (((s.wr (PCI_WIN_W0 i) 0).wr (PCI_WIN_W1 i) 0).wr (PCI_WIN_W2 i) 0).disown 1 i

def execWinUnmap (s : State) : Outcome :=
  coxCmd 0x0039 1 false false (fun s r x =>
    let i := r.w 0
    checked s r 8 [(64 ≤ i || !s.bit (PCI_WIN_W0 i) PCI_WIN_W0_V, 4, 0)]
      (if s.otherOwns 1 i x then (s, Ans.err 6) else (s.winFree i, Ans.ok []))) s

/-! ### Outbound requests (R310, R311) -/

-- log 72: DEDUCED, unsafe.
/-- How the host answered the oldest outstanding read request of slot k: 0 data, 1 Unsupported Request or Completer Abort, 2
poisoned. The last read of R310 ends the descriptor; the last request of a unit lets the units go on. -/
def State.moverReply (s : State) (t k how v : Nat) : State :=
  match s.slot t k with
  | none => s
  | some q =>
    if q.asked ≤ q.answered ∨ s.stilled t ∨ (q.closing ∧ !s.bkReady t q.entry.words) then s
    else
      let reqs := s.hostReads t q
      let at_ := (reqs.getD q.answered (0, 0)).1
      if q.closing then
        let first := match q.host with | some h => h.1 | none => q.next
        match how with
        | 0 => match q.ending with
          | some (st, c, sub, i, a) => s.dmFinish t q.entry st c sub 0 i a
          | none => s.dmFinish t q.entry 0 0 0 0 (dmCount q.entry.words) 0
        | 1 => s.dmFinish t q.entry 1 exLoadAccess 1 0 first at_
        | _ => s.dmFinish t q.entry 2 exMemUncorr 1 0 first at_
      else match how with
        | 0 =>
          let before := ((reqs.take q.answered).map (·.2)).sum
          let n := (reqs.getD q.answered (0, 0)).2
          let s := s.putSlot t { q with answered := q.answered + 1, brought := q.brought + v % 256 ^ n * 256 ^ before }
          (s.dmGo t k (dmCount q.entry.words + 1)).askHost t k
        | 1 => (s.dmEnd t q 1 exLoadAccess 0 q.next at_).askHost t k
        | _ => (s.dmEnd t q 2 exMemUncorr 0 q.next at_).askHost t k

/-- Bytes as a little-endian number. -/
def leBytes : List Byte → Nat
  | [] => 0
  | b :: bs => b.toNat + 256 * leBytes bs

/-- R422: 64 KiB of the image, or what is left of it, reach staging SRAM, or the source could not be read. -/
def State.stageReply (s : State) (h how : Nat) (data : List Byte) : State :=
  match s.sec.stage, s.lop h with
  | some (g, _, len), some l =>
    if g ≠ h ∨ l.state ≠ 1 then s
    else if how ≠ 0 then ({ s with sec := { s.sec with stage := none, staged := [] } }).lopFail h 9
    else if data.length ≠ min 65536 (len - s.sec.staged.length) then s
    else
      let all := s.sec.staged ++ data
      ({ s with sec := { s.sec with staged := all } }).putLop { l with progress := all.length }
  | _, _ => s

/-- OUTBOUND_COMPLETION (R311): a completion for an outbound read: 0 data, 1 Unsupported Request or Completer Abort, 2
poisoned. -/
def execOutboundCompletion (r : OutReq) (how : BitVec 2) (data : List Byte) (s : State) : Outcome :=
  .next (if s.hostDown ∨ how = 3 then s
    else match r with
      | .mover t k => s.moverReply t.toNat k.toNat how.toNat (leBytes data)
      | .stage h => s.stageReply h.toNat how.toNat data)

/-- OUTBOUND_TIMEOUT (R311): 50 ms without a completion. -/
def execOutboundTimeout (r : OutReq) (s : State) : Outcome :=
  let t := match r with
    | .mover t k => s.moverReply t.toNat k.toNat 1 0
    | .stage h => s.stageReply h.toNat 1 []
  .next (if s.hostDown ∨ t = s then s else t.aerSet aerTimeout)

/-! ### Resets of the function (R312, R430) -/

-- log 72: DEDUCED, unsafe.
/-- R182: every active descriptor whose host transaction has not finished ends with ABORTED_HOST. -/
def State.abortHost (s : State) (t : Nat) : State :=
  (s.tile t).dmSlots.foldl (fun s q =>
    match s.slot t q.entry.ticket with
    | none => s
    | some q =>
      match q.host with
      | some (first, _) => s.dmFinish t q.entry 4 0 0 0 first 0
      | none =>
        if q.gated ∨ dmOp q.entry.words = 5 ∨ dmCount q.entry.words ≤ q.next then s
        else
          let u := unitAddrs q.entry.words q.next ((s.unitIndex t q.entry q.next).2.toOption.getD 0)
          let hosts (side : Side) (k : Acc) (a : Nat) : Bool :=
            match s.dmSide t q.entry.user side k (pagePieces (u.2.2 / 65536 + 2) a u.2.2) with
            | .ok ps => ps.any fun p => isHost p.1
            | .error f => f == (4, 0, 0, 0)
          if hosts (srcSide (dmOp q.entry.words)) .load u.1 || hosts (dstSide (dmOp q.entry.words)) .store u.2.1 then
            s.dmFinish t q.entry 4 0 0 0 q.next 0
          else s) s

/-- R274: CLAIMED and DONE mailboxes become FREE; those in COX become FREE at completion. -/
def State.resetBoxes (s : State) : State :=
  (s.cox.mailboxes.map (·.1)).foldl (fun s m =>
    let x := s.mailbox m
    if x.state = 2 then s.setMailbox m { x with freeAtEnd := true } else s.setMailbox m Mailbox.free) s

/-- What Table 12.8 lists as reset. -/
def State.resetFunction (s : State) : State :=
  let s := (s.tiles.map (·.1)).foldl (fun s t => s.abortHost t) s
  let s := match s.sec.stage with
    | some (h, _, _) => s.stageReply h 1 []
    | none => s
  let s := (s.setf PCI_STATUS PCI_STATUS_MSE 0).setf PCI_STATUS PCI_STATUS_BME 0
  let s := (s.wr HOST_INT_CAUSE (regReset HOST_INT_CAUSE)).wr HOST_INT_MASK (regReset HOST_INT_MASK)
  let s := { s with host := { s.host with msix := [], pend := [], msixOn := false, fmask := false, d3 := false } }
  let s := { s with host := { s.host with reads := [], bar2 := 36 } }
  if s.bit DEV_STATUS DEV_STATUS_COX_RST then s.setCox fun c => { c with resetOwed := true } else s.resetBoxes

/-- FUNCTION_LEVEL_RESET (R312, R431): the link stays trained. -/
def execFunctionLevelReset (s : State) : Outcome :=
  .next (if s.bit PCI_STATUS PCI_STATUS_FRST then s else (s.resetFunction.setf RESET_CAUSE RESET_CAUSE_FLR 1).openEvent 12)

-- log 73: DEDUCED, unsafe.
/-- HOST_FUNCTION_RESET (R430, R431): 0 PERST_N falls, 1 hot reset, 2 the link is lost. The function is in reset until
PERST_N rises or the link is up again. -/
def execHostFunctionReset (kind : BitVec 2) (s : State) : Outcome :=
  .next (if kind = 3 then s
    else
      let s := s.resetFunction
      let s := (s.setf PCI_STATUS PCI_STATUS_FRST 1).setf PCI_STATUS PCI_STATUS_UP 0
      let s := (s.setf PCI_STATUS PCI_STATUS_SPEED 0).setf PCI_STATUS PCI_STATUS_WIDTH 0
      let s := (s.setf RESET_CAUSE RESET_CAUSE_PERST 1).openEvent 12
      if kind = 0 then { s with host := { s.host with perst := true } } else s)

-- log 73: DEDUCED, unsafe.
/-- PERST_N_RELEASE (R430): PERST_N rises; the function answers once VHUB is good. -/
def execPerstNRelease (s : State) : Outcome :=
  .next (if !s.host.perst then s
    else
      let s := { s with host := { s.host with perst := false } }
      if 4 ≤ s.boot.rails then s.setf PCI_STATUS PCI_STATUS_FRST 0 else s)

-- log 73: DEDUCED, unsafe.
/-- PCIE_LINK_CHANGE (R296, R435): the link trains at a speed (1 to 7) and a width, or meets an error that AER reports. It
trains while VHUB is good and PERST_N high. -/
def execPcieLinkChange (speed : BitVec 3) (width : BitVec 5) (err : Bool) (s : State) : Outcome :=
  let w := width.toNat
  .next (if s.boot.rails < 4 ∨ s.host.perst ∨ speed = 0 ∨ !(w == 1 || w == 4 || w == 8 || w == 16) then s
    else
      let was := s.bit PCI_STATUS PCI_STATUS_UP
      let narrower : Bool := was && decide (w < s.fld PCI_STATUS PCI_STATUS_WIDTH)
      let s := (s.setf PCI_STATUS PCI_STATUS_UP 1).setf PCI_STATUS PCI_STATUS_FRST 0
      let s := (s.setf PCI_STATUS PCI_STATUS_SPEED speed.toNat).setf PCI_STATUS PCI_STATUS_WIDTH w
      let s := if err then s.aerCorr 0 else s
      if narrower then s.rasEvent 8 0x21 4 0 0 0 else if was || err then s.rasEvent 8 0x21 1 0 0 0 else s)

/-! ### Commands about the device -/

/-- TELEM_SNAP (R301). -/
def execTelemSnap (s : State) : Outcome :=
  coxCmd 0x0021 0 false true (fun s r _ =>
    checked s r 8 [(16 ≤ r.w 0, 4, 0)] (s.telemSnap (r.w 0), Ans.ok [s.now])) s

/-- The sum over the dies of a counter of tag g, saturating at its width (R289). -/
def State.watchSum (s : State) (reg : Nat → Nat → Nat) (f : Fld) (g : Nat) : Word :=
  BitVec.ofNat 64 (min (2 ^ f.len - 1) ((List.range 8).foldl (fun v d => v + s.fld (reg d g) f) 0))

/-- NWT_SUM. -/
def execNwtSum (s : State) : Outcome :=
  coxCmd 0x0022 0 false false (fun s r _ =>
    let g := r.w 0
    let n := r.w 1
    checked s r 16 [(g == 0 || 255 < g, 4, 0), (n == 0 || 100 < n || 256 < g + n, 4, 8)]
      (s, Ans.ok ((List.range n).flatMap fun i =>
        [s.watchSum NWT_SEEN NWT_SEEN_COUNT (g + i), s.watchSum NWT_ZS NWT_ZS_ZERO (g + i),
         s.watchSum NWT_ZS NWT_ZS_SAT (g + i), s.watchSum NWT_NF NWT_NF_NONFIN (g + i)]))) s

-- log 71: DEDUCED, unsafe.
/-- The identity, ordering code, FW_IFACE_VER, spare tiles left of each die and states of the memories. -/
def State.devInfo (s : State) : List Word :=
  [s.rd DEV_IDENT, BitVec.ofNat 64 (s.fld DEV_IDENT DEV_IDENT_SUBSYS), s.rd FW_IFACE_VER] ++
  ((List.range 8).map fun d => BitVec.ofNat 64 (s.fld (TRM_STATUS d) TRM_STATUS_SPARES)) ++
  ((List.range 64).map fun m => BitVec.ofNat 64 (s.fld (HBM_STATE m) HBM_STATE_TSTATE))

def execDevInfo (s : State) : Outcome :=
  coxCmd 0x0020 0 false true (fun s r _ => checked s r 0 [] (s, Ans.ok s.devInfo)) s

end Sys2Proof.Machine
end

