-- ==== Sys2Proof/Machine/Commands.lean ====
section
/-!
DEFINITION. Short commands of the Cox: tiles (R295, R74), catch events for the host, the stroke (R28, R54), logs (R381,
R468) and the retire list (R378).
-/
namespace Sys2Proof.Machine

/-! ### Tiles -/

/-- A live TILE_RESET names tile t. -/
def State.tileHeld (s : State) (t : Nat) : Bool :=
  s.cox.lops.any fun l => l.live && l.cmd == 0x42 && l.args.getD 0 0 ≤ t && t < l.args.getD 0 0 + l.args.getD 1 0

/-- The tiles a command names: `first` and `count`. -/
def tilesOf (first count : Nat) : List Nat := (List.range count).map (first + ·)
/-- A range of tiles that is empty or passes 255. -/
def tilesBad (first count : Nat) : Bool := count == 0 || 256 < first + count

-- log 38: DESIGN CHOICE, unsafe.
/-- Why a command on tiles cannot run: Easy or a TILE_RESET (BUSY), a tile that is not hosted (HW_ERROR). -/
def State.tilesStop (s : State) (ts : List Nat) : Option Ans :=
  if s.bit DEV_STATUS DEV_STATUS_EASY ∨ ts.any s.tileHeld then some (Ans.err 2)
  else if ts.any s.placement.unhosted.contains then some (Ans.err 0x0F)
  else none

/-- The start parameters of R295: tbase, fsp, fsl, entry0 to entry3, start pc, PRIV; they are in the request's doublewords
2 to 10. -/
def startChecks (r : CoxReq) : List (Bool × Nat × Nat) :=
  [(r.w 2 % 512 != 0 || 2 ^ 48 ≤ r.w 2, 4, 16), (r.w 3 % 256 != 0 || 2 ^ 48 ≤ r.w 3, 4, 24), (r.w 4 % 256 != 0 || 2 ^ 48 ≤ r.w 4, 4, 32)] ++
  ((List.range 4).map fun i => (r.w (5 + i) % 4 != 0 || 2 ^ 48 ≤ r.w (5 + i), 4, 40 + 8 * i)) ++
  [(r.w 9 % 4 != 0 || 2 ^ 48 ≤ r.w 9, 4, 72), (2 ≤ r.w 10, 4, 80)]

/-- R295: tile t is loaded and runs. -/
def State.startTile (s : State) (r : CoxReq) (t : Nat) : State :=
  let x := s.tile t
  let x := ((x.setC csrTbase (r.words.getD 2 0)).setC csrFsp (r.words.getD 3 0)).setC csrFsl (r.words.getD 4 0)
  let x := (List.range 4).foldl (fun x i => x.setC (csrEntry i) (r.words.getD (5 + i) 0)) x
  let x := ((x.setC csrCause 0).setC csrEpc 0).setC csrTval 0
  let x := x.setC csrStatus (stPriv.put (x.c csrStatus) (r.w 10))
  s.setTile t { x with mode := .running, pc := BitVec.ofNat 48 (r.w 9), pcHigh := 0, traceStopped := false }

-- log 9: DEDUCED, unsafe.
/-- TILE_START: idle, hosted tiles start. -/
def execTileStart (s : State) : Outcome :=
  coxCmd 0x0040 1 false false (fun s r _ =>
    let ts := tilesOf (r.w 0) (r.w 1)
    checked s r 88 ((tilesBad (r.w 0) (r.w 1), 4, 0) :: startChecks r)
      (match s.tilesStop ts with
       | some a => (s, a)
       | none =>
         if ts.any fun t => (s.tile t).mode != .idle then (s, Ans.err 2)
         else (ts.foldl (fun s t => s.startTile r t) s, Ans.ok []))) s

/-- TILE_RESTART: escalated tiles start; TIL_ESC of each before clearing. -/
def execTileRestart (s : State) : Outcome :=
  coxCmd 0x0041 1 false false (fun s r _ =>
    let ts := tilesOf (r.w 0) (r.w 1)
    checked s r 88 ((tilesBad (r.w 0) (r.w 1), 4, 0) :: startChecks r)
      (match s.tilesStop ts with
       | some a => (s, a)
       | none =>
         if ts.any fun t => !s.bit (TIL_ESC t) TIL_ESC_VALID then (s, Ans.err 2)
         else
           let out := ts.map fun t => s.rd (TIL_ESC t)
           (ts.foldl (fun s t => (s.startTile r t).setf (TIL_ESC t) TIL_ESC_VALID 0) s, Ans.ok out))) s

/-- TILE_HALT: debug halt, interrupt code 0x07, becomes pending in each tile (R74). -/
def execTileHalt (s : State) : Outcome :=
  coxCmd 0x0043 1 false false (fun s r _ =>
    let ts := tilesOf (r.w 0) (r.w 1)
    checked s r 16 [(tilesBad (r.w 0) (r.w 1), 4, 0)]
      (match s.tilesStop ts with
       | some a => (s, a)
       | none => (ts.foldl (fun s t => s.latchIrq t 7) s, Ans.ok []))) s

/-- TILE_NOTE: the note is written to each tile; the tiles whose OVR is then set are returned (R74). -/
def execTileNote (s : State) : Outcome :=
  coxCmd 0x0044 1 false false (fun s r _ =>
    let ts := tilesOf (r.w 0) (r.w 1)
    checked s r 24 [(tilesBad (r.w 0) (r.w 1), 4, 0), (2 ^ 48 ≤ r.w 2, 4, 16)]
      (match s.tilesStop ts with
       | some a => (s, a)
       | none =>
         let s := ts.foldl (fun s t => s.noteWrite .cox t (BitVec.ofNat 64 (r.w 2))) s
         (s, Ans.ok ((ts.filter fun t => s.bit (TIL_COX_NOTE t) TIL_COX_NOTE_OVR).map (BitVec.ofNat 64))))) s

/-! ### Catch events for the host -/

-- log 9: DEDUCED, unsafe.
/-- EVENT_ARM: doublewords 0 to 2 of Table 2.5; KIND 0x5, 0x6 or 0x7. -/
def execEventArm (s : State) : Outcome :=
  coxCmd 0x0048 1 false false (fun s r x =>
    let w1 := r.words.getD 1 0
    let w2 := r.words.getD 2 0
    let k := STK_EVT_W1_KIND.get w1
    let bad := k < 5 || 7 < k || !evtRange k (STK_EVT_W1_TARGET.get w1) (STK_EVT_W1_ARG.get w1)
    checked s r 24 [(rsvBad (STK_EVT_W1 0) w1 || STK_EVT_W1_VER.get w1 != 0, 7, 8), (bad, 4, 8), (rsvBad (STK_EVT_W2 0) w2, 7, 16)]
      (match s.freeEntry with
       | none => (s, Ans.err 0x0C)
       | some i => ((s.coxArm i (r.words.getD 0 0) (STK_EVT_W1_PHASE.get w1) k (STK_EVT_W1_TARGET.get w1) (STK_EVT_W1_ARG.get w1)
           w2.toNat).own 2 i x, Ans.ok [BitVec.ofNat 64 i]))) s

/-- EVENT_FREE: an entry that EVENT_ARM armed is freed; its final STATE, FIRE_CNT and LATE. -/
def execEventFree (s : State) : Outcome :=
  coxCmd 0x0049 1 false false (fun s r x =>
    let i := r.w 0
    checked s r 8 [((s.owned 2 i).isNone, 4, 0)]
      (if s.otherOwns 2 i x then (s, Ans.err 6)
       else if s.firesNow i then (s, Ans.err 2)
       else
         let w := s.rd (STK_EVT_W3 i)
         ((s.coxFree i).disown 2 i, Ans.ok [BitVec.ofNat 64 (STK_EVT_W3_STATE.get w), BitVec.ofNat 64 (STK_EVT_W3_FIRE_CNT.get w),
           BitVec.ofNat 64 (STK_EVT_W3_LATE.get w)]))) s

/-! ### The stroke -/

-- log 9: DEDUCED, unsafe.
/-- STROKE_CFG: SRC, STEP_OK, OUT_EN, PERIOD, IN_COMP, EPOCH, PTP port, domain, transport and two doublewords of addresses.
A new period is written with the source deselected (R38). -/
def execStrokeCfg (s : State) : Outcome :=
  coxCmd 0x0050 2 false false (fun s r _ =>
    checked s r 88
      [(3 ≤ r.w 0, 4, 0), (2 ≤ r.w 1, 4, 8), (2 ≤ r.w 2, 4, 16), (r.w 3 < 2000 || 100000 < r.w 3, 4, 24), (4096 ≤ r.w 4, 4, 32),
       (8 ≤ r.w 6, 4, 48), (128 ≤ r.w 7, 4, 56), (3 ≤ r.w 8, 4, 64)]
      (let s := if r.w 3 = s.fld STK_PERIOD STK_PERIOD_PERIOD_NS then s
         else (if s.src = 0 then s else s.stkWrite .cox 0 (STK_CTRL_SRC.put (s.rd STK_CTRL) 0)).stkWrite .cox 0x10 (BitVec.ofNat 64 (r.w 3))
       let s := (s.stkWrite .cox 0x38 (BitVec.ofNat 64 (r.w 4))).stkWrite .cox 0x30 (r.words.getD 5 0)
       let s := s.strk fun k => { k with ptp := [r.w 7, r.w 8, r.w 9, r.w 10] }
       let v := STK_CTRL_PTP_PORT.put (STK_CTRL_SRC.put (s.rd STK_CTRL) (r.w 0)) (r.w 6)
       let s := s.stkWrite .cox 0 (STK_CTRL_OUT_EN.put (STK_CTRL_STEP_OK.put v (r.w 1)) (r.w 2))
       (s, Ans.ok [s.rd STK_STATUS]))) s

/-- STROKE_LOAD (R28): NUM_HI; a load with the 1588 source is out of range. -/
def execStrokeLoad (s : State) : Outcome :=
  coxCmd 0x0051 2 false false (fun s r _ =>
    checked s r 8 [(2 ^ 48 ≤ r.w 0 || s.src == 2, 4, 0)]
      (s.stkWrite .cox 0x28 (BitVec.ofNat 64 (r.w 0 * 65536)), Ans.ok [])) s

/-! ### Logs -/

/-- A log record (Table 15.6). -/
def logWords (q : Nat × RasRec) : List Word :=
  [BitVec.ofNat 64 q.1, BitVec.ofNat 64 (q.2.stroke % 2 ^ 32 * 2 ^ 32 + q.2.tick % 2 ^ 32),
   BitVec.ofNat 64 (q.2.source * 2 ^ 56 + q.2.sev * 2 ^ 52 + q.2.die * 2 ^ 48 + q.2.unit % 256 * 2 ^ 40 + q.2.detail % 256 * 2 ^ 32 +
     q.2.count % 2 ^ 32),
   BitVec.ofNat 64 (if q.2.source = 7 then q.2.addr % 65536 * 2 ^ 48 else q.2.addr % 2 ^ 48)]

-- log 39: DEDUCED, unsafe.
/-- A Cox log record (Table 20.3); ARG and TEXT of another client's record read zero while debug is locked (R468). -/
def coxLogWords (hide : Bool) (q : CoxLog) : List Word :=
  [BitVec.ofNat 64 q.seq, BitVec.ofNat 64 (q.tick * 2 ^ 32 + q.stroke),
   BitVec.ofNat 64 (q.kind * 2 ^ 56 + q.status * 2 ^ 48 + q.session * 2 ^ 32 + q.cmd * 2 ^ 16), if hide then 0 else BitVec.ofNat 64 q.arg] ++
  (List.range 4).map fun i => if hide then 0 else Config.logText q.seq i

-- log 32: DESIGN CHOICE, safe.
/-- n free values. -/
def State.freshes (s : State) : Nat → State × List Word
  | 0 => (s, [])
  | n + 1 => let r := s.fresh; let q := r.2.freshes n; (q.1, r.1 :: q.2)

-- log 32: DESIGN CHOICE, safe.
/-- LOG_READ (R381, R468): records from a SEQ on, after a header of 32 bytes whose contents are open (log 32). -/
def execLogRead (s : State) : Outcome :=
  coxCmd 0x0023 0 false true (fun s r x =>
    checked s r 16 [(2 ≤ r.w 0, 4, 0)]
      (let h := s.freshes 4
       if r.w 0 = 0 then (h.1, Ans.ok (h.2 ++ ((s.ras.log.filter fun q => r.w 1 ≤ q.1).take 125).flatMap logWords))
       else
         let locked := s.fld SEC_DEBUG SEC_DEBUG_LEVEL == 0
         (h.1, Ans.ok (h.2 ++ ((s.cox.log.filter fun q => r.w 1 ≤ q.seq).take 62).flatMap fun q =>
           coxLogWords (locked && !(q.party == x.party && q.client == x.client)) q)))) s

/-- A retire-list entry (Table 15.3). -/
def RetireRec.words (r : RetireRec) : List Word :=
  [BitVec.ofNat 64 (r.kind * 2 ^ 56 + r.cause * 2 ^ 48 + r.addr % 2 ^ 48),
   BitVec.ofNat 64 (r.stroke % 2 ^ 32 * 2 ^ 32 + (if r.image then 2 ^ 31 else 0) + r.unit % 2 ^ 16)]

/-- RETIRE_READ (R378): up to 250 entries from an index. -/
def execRetireRead (s : State) : Outcome :=
  coxCmd 0x0024 0 false true (fun s r _ =>
    checked s r 8 [] (s, Ans.ok (((s.ras.retired.drop (r.w 0)).take 250).flatMap RetireRec.words))) s

end Sys2Proof.Machine
end

