-- ==== Sys2Proof/Machine/Power.lean ====
section
/-!
DEFINITION. Power, trim loops, placement, temperature, Easy and patina (chapter 16).
-/
namespace Sys2Proof.Machine

def State.pow (s : State) (f : Power → Power) : State := { s with power := f s.power }

-- log 33: DEDUCED, unsafe.
/-- An event of kind 4 that no memory raised: STATUS 1 a die, 2 the coolant flow, 3 the inlet (log 33). -/
def State.heatEvent (s : State) (what state object : Nat) : State := s.notify PWR_STATUS 0 (some ⟨4, what, state, object⟩)

/-! ### Ceilings -/

def State.fcap (s : State) : Nat := s.fld PWR_CAP PWR_CAP_FCAP
-- log 101: DEDUCED, unsafe.
def clampF (f : Nat) : Nat := max 1200 (min 2400 f)

-- log 101: DEDUCED, unsafe.
/-- The frequency target of die d (Table 16.4). -/
def State.freqTarget (s : State) (d : Nat) : Nat := clampF (min s.fcap (s.fld (THM_DIE d) THM_DIE_FTHM))

/-- Every tile of die d runs at most at its target (R389, R399). -/
def State.ceilDie (s : State) (d : Nat) : State :=
  let f := s.freqTarget d
  (List.range 34).foldl (fun s i => if f < s.fld (TRM_TILE_W0 d i) TRM_TILE_W0_FREQ then s.setf (TRM_TILE_W0 d i) TRM_TILE_W0_FREQ f else s) s
def State.ceilings (s : State) : State := (List.range 8).foldl (fun s d => s.ceilDie d) s

/-- FCAP becomes f for every tile at once (R389). -/
def State.setFcap (s : State) (f : Nat) : State := if s.fcap = f then s else (s.setf PWR_CAP PWR_CAP_FCAP f).ceilings

/-! ### The power-cap loop (R387 to R391) -/

/-- The drain of CAP_EN ends once every step that had fired before is applied (R391). -/
def State.capSettle (s : State) : State :=
  if s.power.steps.any (· < 16) then s else s.endDrain .cap PWR_CTRL PWR_CTRL_CAP_EN PWR_STATUS PWR_STATUS_ACTIVE

-- log 100: DEDUCED, unsafe.
/-- R388: the step of slot k is applied: cap, FCAP (at the wake while in Easy, R404), V. -/
def State.stepApply (s : State) (k : Nat) : State :=
  let w := s.rd (PWR_SLOT k)
  if PWR_SLOT_V.get w = 0 then s.setf PWR_STATUS PWR_STATUS_STEP_REJ 1
  else
    let s := (s.setf PWR_CAP PWR_CAP_CAP_W (PWR_SLOT_CAP_W.get w)).setf PWR_CAP PWR_CAP_SLOT k
    let s := (s.setf (PWR_SLOT k) PWR_SLOT_V 0).pow fun p => { p with low := 0 }
    if s.easy then s.pow fun p => { p with easyF := PWR_SLOT_FSTART.get w } else s.setFcap (PWR_SLOT_FSTART.get w)

-- log 99: DEDUCED, unsafe.
/-- R388, R391: a power step of slot k fires: applied at this catch, or recorded. -/
def State.powerStep (s : State) (k : Nat) : State :=
  if !s.bit (PWR_SLOT k) PWR_SLOT_V then s.setf PWR_STATUS PWR_STATUS_STEP_REJ 1
  else if !s.bit PWR_CTRL PWR_CTRL_CAP_EN then s.pow fun p => { p with steps := p.steps ++ [k + 16] }
  else if s.stkPhase = 0 then s.stepApply k
  else s.pow fun p => { p with steps := p.steps ++ [k] }

-- log 99: DEDUCED, unsafe.
/-- A power step of a full slot fires at this catch (R388: no comparison is then made). -/
def State.stepDue (s : State) : Bool :=
  s.bit STK_CTRL STK_CTRL_EVT_EN && s.bit PWR_CTRL PWR_CTRL_CAP_EN && (List.range 512).any fun i =>
    s.evtState i == 1 && s.evtKind i == 3 && s.bit (PWR_SLOT (s.evtArg i)) PWR_SLOT_V &&
      ((s.evtDue i == s.now && s.evtPhase i == 0) || after s.now (s.evtDue i))

/-- R389, R391: the effective cap in mW; the input voltage counts in 10 mV. -/
def State.capC (s : State) : Nat :=
  let fixed := min 5200000 (788 * s.fld PWR_MEAS PWR_MEAS_VIN)
  if s.bit PWR_CTRL PWR_CTRL_CAP_EN then min fixed (1000 * s.fld PWR_CAP PWR_CAP_CAP_W) else fixed

/-- R389: the comparison at a catch. -/
def State.capCompare (s : State) : State :=
  let p := 1000 * s.fld PWR_MEAS PWR_MEAS_PIN
  let c := s.capC
  let f := s.fcap
  let low := if 100 * p < 97 * c then s.power.low + 1 else 0
  let s := if c < p ∧ f ≤ 1200 then s.setf PWR_STATUS PWR_STATUS_FLOOR 1 else s
  let s := s.pow fun q => { q with low := if 4 ≤ low then 0 else low }
  if 105 * c < 100 * p then s.setFcap (max 1200 (f - 100))
  else if c < p then s.setFcap (max 1200 (f - 25))
  else if 4 ≤ low then s.setFcap (min 2400 (f + 25))
  else s

-- log 99: DEDUCED, unsafe; log 100: DEDUCED, unsafe.
/-- The power-cap loop at a catch, once the stroke that ended has been measured. -/
def State.capCatch (s : State) : State :=
  let on := s.bit PWR_CTRL PWR_CTRL_CAP_EN
  let ready := s.power.steps.filter fun k => on || k < 16
  if ready ≠ [] then
    let s := s.pow fun p => { p with steps := p.steps.filter fun k => !(on || k < 16) }
    (ready.foldl (fun s k => s.stepApply (k % 16)) s).capSettle
  else if s.stepDue ∨ s.easy then s.capSettle
  else s.capCompare.capSettle

/-- EMERGENCY_CLAMP (R390). -/
def execEmergencyClamp (s : State) : Outcome :=
  .next (((s.setFcap 1200).setf PWR_STATUS PWR_STATUS_CLAMP 1).stick PWR_CNT_CLAMP PWR_CNT_CLAMP_COUNT 1)

/-- POWER_CAP (R387). -/
def execPowerCap (s : State) : Outcome :=
  coxCmd 0x0090 2 false false (fun s r _ =>
    checked s r 16 [(r.w 0 < 2600 || 5200 < r.w 0, 4, 0)]
      (match (List.range 16).find? fun k => !s.bit (PWR_SLOT k) PWR_SLOT_V,
             (List.range 32).find? fun i => s.evtState i == 0 && s.evtOwner i == 0 with
       | some k, some i =>
         let v := BitVec.ofNat 64 (2 ^ 63 + r.w 0 * 2 ^ 32 + clampF (Config.fstart (r.w 0) / 25 * 25) * 2 ^ 20)
         let due := if r.w 1 = 0 then s.now + 1 else r.words.getD 1 0
         ((s.wr (PWR_SLOT k) v).coxArm i due 0 3 0 k 0, Ans.ok [BitVec.ofNat 64 k])
       | _, _ => (s, Ans.err 0x0C))) s

/-! ### Tile trim loops (R392, R394) -/

/-- The guaranteed clock of the module (R393). -/
def State.fg (s : State) : Nat := if s.fuses.fast then 2400 else 2100
/-- VPLAN(f) in effect for physical tile p, in mV. -/
def State.vplanOf (s : State) (p f : Nat) : Nat := Config.vplan p (SMap.get noNat s.power.planOn p) f

-- log 100: DEDUCED, unsafe; log 102: DEDUCED, unsafe.
/-- TRIM_LOOP: the trim loop of slot i of die d reads its monitors: the slack is short (0), holds (1), or allows (2). -/
def execTrimLoop (d : BitVec 3) (i : BitVec 6) (slack : BitVec 2) (s : State) : Outcome :=
  let n := d.toNat
  let k := i.toNat
  let p := 34 * n + k
  let a := TRM_TILE_W0 n k
  .next (if 34 ≤ k ∨ s.easy then s
    else
      let target := s.freqTarget n
      let f := min target (max 1200 (s.fld a TRM_TILE_W0_FREQ))
      let add := SMap.get noNat s.power.add p
      let room := min 50 (950 - s.vplanOf p f)
      let q := match slack.toNat with
        | 0 => if 5 * (add + 1) ≤ 2 * room then (f, add + 1) else (max 1200 (f - 25), add)
        | 2 => if f < target then (min target (f + 25), add) else (f, add - 1)
        | _ => (f, add)
      let s := s.pow fun x => { x with add := SMap.set noNat x.add p q.2 }
      let volt := max 550 (min 950 (s.vplanOf p q.1 + 5 * q.2 / 2))
      let s := (s.setf a TRM_TILE_W0_FREQ q.1).setf a TRM_TILE_W0_VOLT volt
      let s := s.setf a TRM_TILE_W0_ADD (5 * q.2 / 2)
      s.setf (TRM_TILE_W1 n k) TRM_TILE_W1_FMAXT (if slack = 0 ∧ q.2 = add then q.1 else target))

/-- SUPPLY_DROOP: the clock of a tile stretches; no work is lost and no register shows it (Table 16.4). -/
def execSupplyDroop (_d : BitVec 3) (_i : BitVec 6) (s : State) : Outcome := .next s

/-- The hosted logical tiles of die d. -/
def State.tilesOn (s : State) (d : Nat) : List Nat :=
  ((List.range 32).map fun i => 32 * d + i).filter fun t => !s.placement.unhosted.contains t
/-- Doubleword 0 of TRM_TILE of the physical tile that hosts t. -/
def State.trmOf (s : State) (t : Nat) : Nat := TRM_TILE_W0 (s.physOf t / 34) (s.physOf t % 34)

/-- R394: the median of a list, its 16th value in ascending order. -/
def median16 (l : List Nat) : Nat :=
  (l.find? fun v => (l.filter (· < v)).length ≤ 15 && 15 < (l.filter (· ≤ v)).length).getD 0

/-- R394: the trim block of die d at a catch. -/
def State.slowCatch (s : State) (d : Nat) : State :=
  let ts := s.tilesOn d
  let m := median16 (ts.map fun t => s.fld (s.trmOf t) TRM_TILE_W0_FREQ)
  let s := if s.fld (TRM_STATUS d) TRM_STATUS_MEDIAN = m then s else s.setf (TRM_STATUS d) TRM_STATUS_MEDIAN m
  ts.foldl (fun s t =>
    let a := s.trmOf t
    if 100 * s.fld a TRM_TILE_W0_FREQ < 92 * m then s.stick a TRM_TILE_W0_SLOW_CNT 1
    else if s.fld a TRM_TILE_W0_SLOW_CNT = 0 then s else s.setf a TRM_TILE_W0_SLOW_CNT 0) s

/-! ### The placement loop (R395 to R397) -/

/-- The logical tile that physical tile p hosts. -/
def State.logicalOf (s : State) (p : Nat) : Option Nat := (s.tilesOn (p / 34)).find? fun t => s.physOf t == p
-- log 115: DEDUCED, unsafe.
/-- ROLE of physical tile p (Table 16.7). -/
def State.roleOf (s : State) (p : Nat) : Nat :=
  match s.placement.setAside.find? (·.1 == p) with
  | some q => q.2
  | none => if (s.logicalOf p).isSome then 0 else 1
/-- The free spare slots of die d, in ascending order. -/
def State.sparesOf (s : State) (d : Nat) : List Nat :=
  (List.range 34).filter fun i => s.roleOf (34 * d + i) == 1 && !s.placement.moves.any fun m => m.1 == d && m.2.2.1 == i

/-- TRM_TILE and SPARES of die d show its placement. -/
def State.trmShow (s : State) (d : Nat) : State :=
  let s := s.setf (TRM_STATUS d) TRM_STATUS_SPARES (s.sparesOf d).length
  (List.range 34).foldl (fun s i =>
    let p := 34 * d + i
    let a := TRM_TILE_W1 d i
    let s := (s.setf a TRM_TILE_W1_ROLE (s.roleOf p)).setf a TRM_TILE_W1_LV (if (s.logicalOf p).isSome then 1 else 0)
    s.setf a TRM_TILE_W1_LOGICAL ((s.logicalOf p).getD 0)) s

/-- Logical tile t is due to move: slow for 1,000 catches, or marked (R395). -/
def State.moveDue (s : State) (t : Nat) : Bool :=
  1000 ≤ s.fld (s.trmOf t) TRM_TILE_W0_SLOW_CNT || s.ras.marked.contains (s.physOf t)

-- log 107: DEDUCED, unsafe.
/-- R86, R116, R147, R196: tile t can move: it is not halted and its K-stream unit is idle or paused. -/
def State.canMove (s : State) (t : Nat) : Bool :=
  let x := s.tile t
  x.mode != .frozen && (!x.kUnit.any (·.started) || (match x.kPause with | .paused _ => true | _ => false))

/-- S of R395, in strokes. -/
def State.moveStrokes (s : State) : Nat :=
  let p := max 1 (s.fld STK_PERIOD STK_PERIOD_PERIOD_NS)
  max 3 ((60000 + p - 1) / p)

-- log 100: DEDUCED, unsafe; log 107: DEDUCED, unsafe.
/-- PLACEMENT_MOVE: at a catch, the lowest due tile of die d that may move starts for the lowest free spare (R395), or none
is free (R396). -/
def execPlacementMove (d : BitVec 3) (s : State) : Outcome :=
  let n := d.toNat
  .next (if s.stkPhase ≠ 0 ∨ s.easy ∨ s.placement.moves.any (·.1 == n) then s
    else
      match (s.tilesOn n).find? fun t => s.moveDue t && s.canMove t && !(s.sparesOf n = [] && s.placement.noted.contains t) with
      | none => s
      | some t =>
        match s.sparesOf n with
        | [] =>
          let s := s.setf (TRM_STATUS n) TRM_STATUS_NOSPARE 1
          ({ s with placement := { s.placement with noted := s.placement.noted ++ [t] } }).showDegraded.rasEvent n 0x16 4 (t % 256) 0 0
        | k :: _ =>
          if !s.bit (TRM_CTRL n) TRM_CTRL_PLACE_EN then s
          else
            let role := if s.ras.marked.contains (s.physOf t) then 3 else 2
            let e := s.now + BitVec.ofNat 64 s.moveStrokes
            let s := { s with placement := { s.placement with moves := s.placement.moves ++ [(n, t, k, role, e)] } }
            let s := (s.setf (TRM_STATUS n) TRM_STATUS_MV 1).setf (TRM_STATUS n) TRM_STATUS_MOVING t
            s.setf (TRM_STATUS n) TRM_STATUS_SPARES (s.sparesOf n).length)

-- log 107: DEDUCED, unsafe.
/-- PLACEMENT_MOVE_END: at the catch that ends the move of die d, the spare runs as the logical tile (R395); the
substitution enters the retire list and the log. -/
def execPlacementMoveEnd (d : BitVec 3) (s : State) : Outcome :=
  let n := d.toNat
  .next (match s.placement.moves.find? (·.1 == n) with
    | none => s
    | some (_, t, k, role, e) =>
      if after e s.now then s
      else
        let old := s.physOf t
        let p := s.placement
        let s := { s with placement := { p with
          place := SMap.set homeSlot p.place t (34 * n + k), setAside := p.setAside ++ [(old, role)], moves := p.moves.filter (·.1 ≠ n) } }
        let s := s.unpark t
        let s := { s with ras := { s.ras with marked := s.ras.marked.filter (· ≠ old) } }
        let s := (s.setf (TRM_STATUS n) TRM_STATUS_MV 0).setf (TRM_STATUS n) TRM_STATUS_MOVED 1
        let s := s.setf (TRM_TILE_W0 n (old % 34)) TRM_TILE_W0_SLOW_CNT 0
        let s := (s.trmShow n).rasEvent n 0x16 4 (t % 256) 0 0
        let s := s.retire n { kind := 6, cause := 0x16, addr := 0, stroke := s.now.toNat % 2 ^ 32, image := false, unit := old }
        s.endDrain (.placement n) (TRM_CTRL n) TRM_CTRL_PLACE_EN (TRM_STATUS n) TRM_STATUS_ACTIVE)

/-! ### Temperature and coolant (R399 to R401) -/

-- log 101: DEDUCED, unsafe.
/-- R399: FTHM of die d at a catch. -/
def State.fthmCatch (s : State) (d : Nat) : State :=
  let t := (BitVec.ofNat 8 (s.fld (THM_DIE d) THM_DIE_TEMP)).toInt
  let throt : Int := s.fld THM_THR THM_THR_THROT
  let f := s.fld (THM_DIE d) THM_DIE_FTHM
  if throt ≤ t then s.setf (THM_DIE d) THM_DIE_FTHM (clampF (f - 25))
  else if t < throt - 3 then (if f = 2400 then s else s.setf (THM_DIE d) THM_DIE_FTHM (clampF (f + 25)))
  else s

/-- Temperature c of die d is sampled: its state, and the events of R399. -/
def State.dieTemp (s : State) (d : Nat) (c : Int) : State :=
  let st := if (s.fld THM_THR THM_THR_THROT : Int) ≤ c then 2 else if (s.fld THM_THR THM_THR_WARN : Int) ≤ c then 1 else 0
  let was := s.fld (THM_DIE d) THM_DIE_STATE
  let s := (s.setf (THM_DIE d) THM_DIE_TEMP (BitVec.ofInt 8 c).toNat).setf (THM_DIE d) THM_DIE_STATE st
  let s := if was < 1 ∧ 1 ≤ st then (s.setf PWR_STATUS PWR_STATUS_THM_WARN 1).heatEvent 1 1 d else s
  if was < 2 ∧ st = 2 then (s.setf PWR_STATUS PWR_STATUS_THM_THROT 1).heatEvent 1 2 d else s

-- log 105: DESIGN CHOICE, safe.
/-- R401: Cox firmware's estimate of the flow, in 0.01 L/min; with no rise of temperature it is a free value. -/
def State.coolTick (s : State) (inlet outlet : BitVec 8) : State :=
  let dt := outlet.toNat - inlet.toNat
  let q := if dt = 0 then s.fresh else (BitVec.ofNat 64 (min 65535 (s.fld PWR_MEAS PWR_MEAS_PIN * 1000 / (697 * dt))), s)
  let flow := q.1.toNat % 65536
  let s := q.2.wr THM_COOL (BitVec.ofNat 64 (inlet.toNat * 2 ^ 40 + outlet.toNat * 2 ^ 32 + flow * 65536))
  let s := s.pow fun p => { p with flowLow := if flow < 200 then p.flowLow + 1 else 0 }
  if 40 < inlet.toNat ∧ !s.bit PWR_STATUS PWR_STATUS_INLET_HIGH then (s.setf PWR_STATUS PWR_STATUS_INLET_HIGH 1).heatEvent 3 0 0 else s

/-- COOLANT_FLOW_LOW (R401). -/
def execCoolantFlowLow (s : State) : Outcome :=
  .next (if s.power.flowLow < 1000 ∨ s.bit PWR_STATUS PWR_STATUS_FLOW_LOW then s
    else (s.setf PWR_STATUS PWR_STATUS_FLOW_LOW 1).heatEvent 2 0 0)

/-! ### Easy (R402 to R405) -/

-- log 106: DEDUCED, unsafe.
/-- R402: the data plane is quiescent. -/
def State.quiescent (s : State) : Bool :=
  (s.tiles.all fun q =>
    let x := q.2
    (x.mode == .idle || x.mode == .frozen || (x.mode == .wfi && s.ipend q.1 == 0)) && x.dmQueue.isEmpty && x.dmSlots.isEmpty &&
      x.kUnit.isEmpty && x.dUnit.isEmpty) &&
    s.fld CRW_STATUS CRW_STATUS_QCOUNT == 0 && s.mirror.ckpt.isNone && s.mirror.copying.isEmpty && s.placement.moves.isEmpty &&
    (List.range 256).all fun t => !s.moveDue t || s.placement.unhosted.contains t || s.placement.noted.contains t

-- log 106: DEDUCED, unsafe.
/-- EASY_ENTER (R402). -/
def execEasyEnter (s : State) : Outcome :=
  coxCmd 0x0091 2 false false (fun s r x =>
    checked s r 8 []
      (if s.easy ∨ (s.liveOf 0xA0).isSome ∨ (s.liveOf 0xA1).isSome ∨ (s.liveOf 0xB0).isSome then (s, Ans.err 2)
       else s.lopNew r x [r.w 0])) s

-- log 106: DEDUCED, unsafe.
/-- EASY_ENTRY (R403): the operation enters Easy at a catch at which the data plane is quiescent. With no free entry for the
wake it fails. -/
def execEasyEntry (s : State) : Outcome :=
  .next (match s.cox.lops.find? fun l => l.cmd == 0x91 && l.state == 1 with
    | none => s
    | some l =>
      if s.stkPhase ≠ 0 ∨ s.easy ∨ l.cancel ∨ !s.quiescent then s
      else
        let w := BitVec.ofNat 64 (l.args.getD 0 0)
        match s.freeEntry with
        | none => if w = 0 then (s.pow fun p => { p with easyF := s.fcap, wake := none }).setf DEV_STATUS DEV_STATUS_EASY 1 |>.lopDone l.handle [s.now]
                  else s.lopFail l.handle 0x0C
        | some i =>
          let s := (s.pow fun p => { p with easyF := s.fcap, wake := none }).setf DEV_STATUS DEV_STATUS_EASY 1
          let s := if w = 0 then s else s.coxArm i w 0 6 0 0 0
          s.lopDone l.handle [s.now])

/-- A trigger of R405: the data plane resumes W strokes later. Further triggers have no effect. -/
def State.wakeUp (s : State) : State :=
  if !s.easy ∨ s.power.wake.isSome then s
  else
    let p := max 1 (s.fld STK_PERIOD STK_PERIOD_PERIOD_NS)
    s.pow fun q => { q with wake := some (s.now + BitVec.ofNat 64 ((500000 + p - 1) / p)) }

/-- EASY_WAKE_N held low for at least 1 µs. -/
def execEasyWakeN (s : State) : Outcome := .next s.wakeUp

-- log 106: DEDUCED, unsafe.
/-- EASY_RESUME (R405): at the catch of stroke n + W. -/
def execEasyResume (s : State) : Outcome :=
  .next (match s.power.wake with
    | none => s
    | some w =>
      if after w s.now ∨ s.stkPhase ≠ 0 then s
      else
        let s := (s.setf DEV_STATUS DEV_STATUS_EASY 0).pow fun p => { p with wake := none }
        s.setFcap s.power.easyF)

/-! ### Patina (R406 to R409) -/

/-- The MARGIN of physical tile p under re-plan n, in mV (R406). -/
def State.marginOf (s : State) (p n : Nat) : Int := 950 - (Config.vplan p n s.fg : Int)

-- log 108: DEDUCED, unsafe.
/-- A re-plan with serial n processes physical tile p (R406, R409). -/
def State.planTile (s : State) (n p : Nat) : State :=
  let d := p / 34
  let i := p % 34
  let s := (s.wr (PAT_MON_W0 d i) (Config.patina p n 0)).wr (PAT_MON_W1 d i)
    (PAT_MON_W1_TEMP.put (Config.patina p n 1 &&& 0xFFFFFFFF00000000) (s.fld (PAT_MON_W1 d i) PAT_MON_W1_TEMP))
  let m := s.marginOf p n
  let s := s.setf (TRM_TILE_W1 d i) TRM_TILE_W1_MARGIN (BitVec.ofInt 16 m).toNat
  let s := s.pow fun q => { q with plan := SMap.set noNat q.plan p n, planTick := SMap.set noNat q.planTick p s.tick32
                                   planDies := if i = 33 then q.planDies ++ [d] else q.planDies }
  if (s.logicalOf p).isSome ∧ m < 10 then s.markTile p else s

/-- At a catch, the VPLAN of a die whose last tile has been processed takes effect (R406). -/
def State.planCatch (s : State) : State :=
  let on := s.power.planDies.foldl (fun t d =>
    (List.range 34).foldl (fun t i => SMap.set noNat t (34 * d + i) (SMap.get noNat s.power.plan (34 * d + i))) t) s.power.planOn
  s.pow fun p => { p with planOn := on, planDies := [] }

/-- The physical tiles that a re-plan over a mask of dies processes, in order. -/
def planTiles (mask : Nat) : List Nat :=
  ((List.range 8).filter fun d => mask.testBit d).flatMap fun d => (List.range 34).map fun i => 34 * d + i

/-- The live re-plan l processes its next tile. -/
def State.planStep (s : State) (l : Lop) : State :=
  match (planTiles (l.args.getD 0 0))[l.progress]? with
  | some p => (s.planTile (l.args.getD 1 0) p).putLop { l with progress := l.progress + 1 }
  | none => s

-- log 106: DEDUCED, unsafe.
/-- MARGIN_REPLAN (R407): starts a re-plan, or adopts the live one. -/
def execMarginReplan (s : State) : Outcome :=
  coxCmd 0x0092 2 false false (fun s r x =>
    checked s r 8 [(r.w 0 % 256 == 0 || 256 ≤ r.w 0, 4, 0)]
      (if s.easy then (s, Ans.err 2)
       else match s.liveOf 0x92 with
       | some l =>
         (s.putLop { l with session := x.num, party := x.party, client := x.client, detach := r.detach },
          { status := 1, handle := l.handle, off := 0, payload := [] })
       | none => s.lopNew r x [r.w 0, 0])) s

-- log 108: DEDUCED, unsafe.
/-- DAILY_REPLAN (R407): Cox firmware starts a re-plan of all eight dies, which it owns (party 3). -/
def execDailyReplan (s : State) : Outcome :=
  .next (if s.stroke.ticks < s.cox.lastReplan + 86400000 ∨ (s.liveOf 0x92).isSome ∨ s.lopsFull ∨ s.easy ∨ s.coxIdle ∨ !s.bit DEV_STATUS DEV_STATUS_READY then s
    else
      let l : Lop := { handle := s.newHandle, cmd := 0x92, state := 0, status := 0, progress := 0, total := 0, startTick := 0, endTick := 0
                       cause := 0, session := 0, party := 3, client := 0, detach := true, suspend := false, cancel := false
                       args := [255, 0], result := [] }
      (s.lopAdd l).setCox fun c => { c with lastReplan := s.stroke.ticks })

-- log 108: DEDUCED, unsafe.
/-- A patina row (Table 16.7). -/
def State.patinaRow (s : State) (p : Nat) : List Word :=
  let n := SMap.get noNat s.power.plan p
  let l := s.logicalOf p
  [BitVec.ofNat 64 (p * 2 ^ 55 + (if l.isSome then 2 ^ 54 else 0) + l.getD 0 * 2 ^ 46 + s.roleOf p * 2 ^ 43 +
     SMap.get noNat s.power.planTick p),
   BitVec.ofNat 64 (Config.vplan p n s.fg % 65536 * 2 ^ 48 + (BitVec.ofInt 16 (s.marginOf p n)).toNat * 2 ^ 32 +
     Config.hoursLeft p n % 2 ^ 32),
   BitVec.ofNat 64 (min (s.power.age / 3600000) 0xFFFFFFFF * 2 ^ 32), 0]

/-- PATINA_READ (R408). -/
def execPatinaRead (s : State) : Outcome :=
  coxCmd 0x0093 0 false false (fun s r _ =>
    checked s r 16 [(271 < r.w 0, 4, 0), (r.w 1 == 0 || 126 < r.w 1 || 272 < r.w 0 + r.w 1, 4, 8)]
      (s, Ans.ok ((List.range (r.w 1)).flatMap fun i => s.patinaRow (r.w 0 + i)))) s

/-! ### Registers (R410) -/

-- log 104: DEDUCED, unsafe.
/-- A write of v at offset o of the PWR_ and THM_ block. -/
def State.pwrWrite (s : State) (m : Master) (o : Nat) (v : Word) : State :=
  let a := PWR_CTRL + o
  let argErr := s.setf PWR_STATUS PWR_STATUS_ARG_ERR 1
  if !isCox m then s.setf PWR_STATUS PWR_STATUS_PERM_ERR 1
  else if rsvBad a v then s.setf PWR_STATUS PWR_STATUS_VER_ERR 1
  else if o = 0 then
    (s.writeEnable .cap PWR_CTRL PWR_CTRL_CAP_EN PWR_STATUS PWR_STATUS_ACTIVE (PWR_CTRL_CAP_EN.get v = 1)).capSettle
  else if 0x100 ≤ o ∧ o < 0x180 then
    let w := PWR_SLOT_CAP_W.get v
    let f := PWR_SLOT_FSTART.get v
    if PWR_SLOT_V.get v = 1 ∧ (w < 2600 ∨ 5200 < w ∨ f < 1200 ∨ 2400 < f ∨ f % 25 ≠ 0) then argErr else s.put a v
  else if o = 0x1000 then
    if 105 < THM_THR_THROT.get v ∨ THM_THR_THROT.get v ≤ THM_THR_WARN.get v then argErr else s.put a v
  else s.put a v

/-- A write of v at offset o of the TRM_ and PAT_ block of die d. -/
def State.trmWrite (s : State) (m : Master) (d o : Nat) (v : Word) : State :=
  let a := TRM_CTRL d + o
  if !isCox m then s.setf (TRM_STATUS d) TRM_STATUS_PERM_ERR 1
  else if rsvBad a v then s.setf (TRM_STATUS d) TRM_STATUS_VER_ERR 1
  else if o = 0 then
    let s := s.writeEnable (.placement d) a TRM_CTRL_PLACE_EN (TRM_STATUS d) TRM_STATUS_ACTIVE (TRM_CTRL_PLACE_EN.get v = 1)
    if s.placement.moves.any (·.1 == d) then s
    else s.endDrain (.placement d) a TRM_CTRL_PLACE_EN (TRM_STATUS d) TRM_STATUS_ACTIVE
  else s.put a v

/-- CAP_EN: a write of PWR_CTRL. -/
def execCapEn (m : Master) (v : Word) (s : State) : Outcome := .next (s.pwrWrite m 0 v)
/-- PLACE_EN: a write of TRM_CTRL. -/
def execPlaceEn (m : Master) (d : BitVec 3) (v : Word) (s : State) : Outcome := .next (s.trmWrite m d.toNat 0 v)

end Sys2Proof.Machine
end

