-- ==== Sys2Proof/Machine/Security.lean ====
section
/-!
DEFINITION. Images and their verification (R411 to R415), keys and measurements (R417 to R421), firmware update (R422 to R425,
R363), Cox restarts (R285), debug unlock (R426, R427) and the SEC_ registers.
-/
namespace Sys2Proof.Machine

def State.setSec (s : State) (f : Sec → Sec) : State := { s with sec := f s.sec }

/-! ### Images -/

/-- n bytes from offset o, and doubleword at offset o, of a list of bytes that reads 0 beyond its end. -/
def cut (l : List Byte) (o n : Nat) : List Byte := (List.range n).map fun i => l.getD (o + i) 0
def dword (l : List Byte) (o : Nat) : Nat := leBytes (cut l o 8)
def allZero (l : List Byte) (o n : Nat) : Bool := (cut l o n).all (· == 0)

def imgField (img : List Byte) (o hi lo : Nat) : Nat := dword img o / 2 ^ lo % 2 ^ (hi + 1 - lo)
def imgSlot (img : List Byte) : Nat := imgField img 8 41 40
def imgSvn (img : List Byte) : Nat := imgField img 8 39 32
def imgMajor (img : List Byte) : Nat := imgField img 8 31 24
def imgMinor (img : List Byte) : Nat := imgField img 8 23 16

/-- R412: the public key is accepted for a slot. -/
def State.keyOk (s : State) (slot : Nat) (pub : List Byte) : Bool :=
  s.fuses.keys[slot]? == some (Keccak.shake256 pub) && s.fld SEC_FUSE SEC_FUSE_REVOKED / 2 ^ slot % 2 == 0

-- log 111: DESIGN CHOICE, safe.
/-- R414: the cause with which verification of an image of the given bytes fails, 0 for none; `iface` asks for step 8. -/
def State.verifyImage (s : State) (img : List Byte) (iface : Bool) : Nat :=
  let body := dword img 0x10 % 2 ^ 32
  let entry := dword img 0x10 / 2 ^ 32
  if dword img 0 ≠ 0x0000385746475248 then 1
  else if imgField img 8 63 60 ≠ 0 ∨ imgField img 8 59 52 ≠ 0 ∨ imgField img 8 46 42 ≠ 0 ∨ imgField img 8 15 0 ≠ 0 ∨
      !allZero img 0x60 0xA0 ∨ !allZero img 0x801 0xFF ∨ !allZero img 0xE00 0x200 then 2
  else if body % 4096 ≠ 0 ∨ body < 4096 ∨ 3145728 < body ∨ entry % 4 ≠ 0 ∨ body ≤ entry ∨ img.length ≠ 4096 + body then 3
  else if 1 < imgSlot img ∨ !s.keyOk (imgSlot img) (cut img 0x100 1793) then 4
  else if imgSvn img < s.fld SEC_FUSE SEC_FUSE_SVN then 5
  else if !Config.falconVerify (cut img 0x100 1793) (Keccak.shake256 (cut img 0 0x900)) (cut img 0x900 1280) then 6
  else if Keccak.shake256 (img.drop 4096) ≠ cut img 0x20 64 then 7
  else if iface && imgMajor img != s.fld FW_IFACE_VER FW_IFACE_VER_MAJOR then 8
  else 0

/-- The image is started: its header runs, and the registers show it. -/
def State.runImage (s : State) (img : List Byte) (recov : Bool) : State :=
  let s := s.setSec fun x => { x with running := cut img 0 4096 }
  let s := (s.setf SEC_STATUS SEC_STATUS_BOOT_SLOT (imgSlot img)).setf SEC_STATUS SEC_STATUS_RECOV (if recov then 1 else 0)
  (s.setf FW_IFACE_VER FW_IFACE_VER_MAJOR (imgMajor img)).setf FW_IFACE_VER FW_IFACE_VER_MINOR (imgMinor img)

-- log 109: DEDUCED, unsafe.
/-- R415: ADVANCE applies the running header. -/
def State.advance (s : State) : State :=
  let h := s.sec.running
  let f := s.fld SEC_FUSE SEC_FUSE_SVN
  if imgField h 8 47 47 = 1 ∧ f < imgSvn h then
    let revoke := ((List.range 4).filter fun i => imgField h 8 51 48 / 2 ^ i % 2 == 1 && i != imgSlot h).foldl (fun v i => v ||| 2 ^ i)
      (s.fld SEC_FUSE SEC_FUSE_REVOKED)
    (s.setf SEC_FUSE SEC_FUSE_SVN (min 64 (imgSvn h))).setf SEC_FUSE SEC_FUSE_REVOKED revoke
  else s.setf SEC_STATUS SEC_STATUS_ADV_REJ 1

/-! ### Keys and measurements -/

def asciiBytes (n : List Nat) : List Byte := n.map (BitVec.ofNat 8)
/-- "ESURA-BRAND" and "ESURA-ALIAS". -/
def textBrand : List Byte := asciiBytes [69, 83, 85, 82, 65, 45, 66, 82, 65, 78, 68]
def textAlias : List Byte := asciiBytes [69, 83, 85, 82, 65, 45, 65, 76, 73, 65, 83]

-- log 34: DEDUCED, unsafe.
/-- The 64 bytes of measurement index i (Table 17.4; the layout of 3, 4 and 5 is log 34). -/
def State.measure (s : State) (i : Nat) : List Byte :=
  let pad (l : List Nat) : List Byte := cut (asciiBytes l) 0 64
  let f := s.fld SEC_FUSE SEC_FUSE_SVN
  match i with
  | 1 => Keccak.shake256 Config.bootRom
  | 2 => Keccak.shake256 (cut s.sec.running 0 0x900)
  | 3 => pad [imgSvn s.sec.running, f, s.fld SEC_FUSE SEC_FUSE_REVOKED]
  | 4 => pad [if s.fuses.fast then 1 else 0, s.fld ESURA_LEVEL ESURA_LEVEL_LEVEL, s.fld FW_IFACE_VER FW_IFACE_VER_MAJOR,
      s.fld FW_IFACE_VER FW_IFACE_VER_MINOR]
  | 5 => pad [s.fld SEC_DEBUG SEC_DEBUG_LEVEL, s.fld SEC_DEBUG SEC_DEBUG_MAXLVL]
  | 6 => Keccak.shake256 Config.brandCert
  | _ => []

/-- The seeds of the Brand and alias key pairs (R418, R419). -/
def State.brandSeed (s : State) : List Byte := (Keccak.shake256 (s.fuses.seed ++ textBrand)).take 48
def State.aliasSeed (s : State) : List Byte :=
  (Keccak.shake256 (s.fuses.seed ++ textAlias ++ s.measure 1 ++ s.measure 2 ++ asciiBytes [s.fld SEC_FUSE SEC_FUSE_SVN])).take 48
/-- The certificate chain of slot 0: root, intermediate, Brand, alias (R419). -/
def State.chain (s : State) : List Byte :=
  Config.issuedChain ++ Config.aliasCert s.brandSeed (Config.falconKey s.aliasSeed)

/-! ### SEC_ registers -/

/-- A read of the SEC_ block at offset o by the Cox. -/
def State.secRead (s : State) (o : Nat) : Word :=
  if 0x140 ≤ o ∧ o < 0x2C0 then BitVec.ofNat 64 (dword (s.measure ((o - 0x100) / 0x40)) (o % 0x40))
  else s.rd (SEC_STATUS + o)

/-- A write of v at offset o of the SEC_ block, which only the Cox reaches (R270). -/
def State.secWrite (s : State) (m : Master) (o : Nat) (v : Word) : State :=
  if m ≠ .cox then s
  else if rsvBad (SEC_STATUS + o) v then s.setf SEC_STATUS SEC_STATUS_VER_ERR 1
  else if o = 0x18 then (if v.getLsbD 0 then s.advance else s)
  else s.put (SEC_STATUS + o) v

/-- ADVANCE: a write of 1 to SEC_CTRL.ADVANCE. -/
def execAdvance (m : Master) (s : State) : Outcome := .next (s.secWrite m 0x18 1)

/-! ### Debug unlock (R426, R427) -/

/-- n free bytes, 8 to a free value. -/
def State.freshBytes (s : State) (n : Nat) : State × List Byte :=
  let r := s.freshes (n / 8)
  (r.1, r.2.flatMap fun w => (List.range 8).map fun k => BitVec.ofNat 8 (w.toNat / 256 ^ k))

/-- A nonce is issued and replaces the one before. -/
def State.newNonce (s : State) : State × List Byte :=
  let r := s.freshBytes 32
  ((r.1.setSec fun x => { x with nonce := some (r.2, s.stroke.ticks) }).setf SEC_DEBUG SEC_DEBUG_NONCE_V 1, r.2)

-- log 110: DEDUCED, unsafe.
/-- A token is presented: 0 accepted, 6 DENIED, 7 VERSION, which has no effect. -/
def State.present (s : State) (t : List Byte) : State × Nat :=
  if imgField t 0 63 60 ≠ 0 ∨ imgField t 0 55 0 ≠ 0 ∨ !allZero t 0x30 0x10 ∨ !allZero t 0x741 0xBF then (s, 7)
  else
    let slot := imgField t 0 57 56
    let level := imgField t 0 59 58
    let fresh : Bool := match s.sec.nonce with
      | some (n, at_) => n == cut t 0x10 32 && decide (s.stroke.ticks < at_ + 60000)
      | none => false
    let s1 := (s.setSec fun x => { x with nonce := none }).setf SEC_DEBUG SEC_DEBUG_NONCE_V 0
    if fresh && dword t 8 == s.fuses.serial && 2 ≤ slot && s.keyOk slot (cut t 0x40 1793) &&
        Config.falconVerify (cut t 0x40 1793) (Keccak.shake256 (cut t 0 0x800)) (cut t 0x800 1280) then
      ((s1.setf SEC_DEBUG SEC_DEBUG_LEVEL level).setf SEC_DEBUG SEC_DEBUG_MAXLVL (max level (s.fld SEC_DEBUG SEC_DEBUG_MAXLVL)), 0)
    else (s1, 6)

/-- The bytes of doublewords, and the doublewords of bytes. -/
def wordsBytes (ws : List Word) : List Byte := ws.flatMap fun w => (List.range 8).map fun k => BitVec.ofNat 8 (w.toNat / 256 ^ k)
def bytesWords (l : List Byte) : List Word := (List.range (l.length / 8)).map fun i => BitVec.ofNat 64 (dword l (8 * i))

-- log 110: DEDUCED, unsafe.
/-- DEBUG_UNLOCK (R426). -/
def execDebugUnlock (s : State) : Outcome :=
  coxCmd 0x00A2 2 false true (fun s r _ =>
    if r.len = 0 then
      let n := s.newNonce
      (n.1, Ans.ok (bytesWords n.2 ++ [BitVec.ofNat 64 s.fuses.serial, BitVec.ofNat 64 (s.fld SEC_DEBUG SEC_DEBUG_LEVEL)]))
    else
      checked s r 3328 []
        (let p := s.present (wordsBytes r.words)
         if p.2 = 0 then (p.1, Ans.ok [BitVec.ofNat 64 (p.1.fld SEC_DEBUG SEC_DEBUG_LEVEL)])
         else if p.2 = 7 then (p.1, Ans.at 7 0) else (p.1, Ans.err 6))) s

/-- NONCE_EXPIRY (R426). -/
def execNonceExpiry (s : State) : Outcome :=
  .next (match s.sec.nonce with
    | some (_, at_) =>
      if s.stroke.ticks < at_ + 60000 then s else (s.setSec fun x => { x with nonce := none }).setf SEC_DEBUG SEC_DEBUG_NONCE_V 0
    | none => s)

/-! ### Firmware update (R422, R423) -/

-- log 112: DEDUCED, unsafe.
/-- An FW_STAGE, FW_ACTIVATE, DATA_RESET or PLDM update is live (R289, R425). -/
def State.fwBusy (s : State) : Bool :=
  (s.liveOf 0xA0).isSome || (s.liveOf 0xA1).isSome || (s.liveOf 0xB0).isSome || s.sec.pldm != 0

/-- FW_STAGE. -/
def execFwStage (s : State) : Outcome :=
  coxCmd 0x00A0 2 false true (fun s r x =>
    checked s r 16 [] (if s.fwBusy then (s, Ans.err 2) else s.lopNew r x [r.w 0, r.w 1])) s

-- log 112: DEDUCED, unsafe.
/-- FW_ACTIVATE. -/
def execFwActivate (s : State) : Outcome :=
  coxCmd 0x00A1 2 false true (fun s r x =>
    checked s r 0 []
      (if !s.bit SEC_STATUS SEC_STATUS_STAGED then (s, Ans.at 4 0xFFFF)
       else if s.fwBusy ∨ (s.pstate ≠ 0 ∧ s.mirror.partnerActv) then (s, Ans.err 2)
       else s.lopNew r x [])) s

/-! ### Cox restarts (R285, R363, R424) -/

-- log 135: DEDUCED, unsafe.
/-- A Cox log record of firmware's own (Table 20.3). -/
def State.coxNote (s : State) (kind arg : Nat) : State := s.coxLog kind 0 0 0 arg 3 0

/-- The restart that an activation makes is due (R423 step 4). -/
def State.activating (s : State) : Bool :=
  s.sec.pldm == 6 || match s.liveOf 0xA1 with | some l => l.state == 1 && l.progress == 2 | none => false

-- log 113: DEDUCED, unsafe.
/-- A Cox restart begins or ends: DEV_STATUS shows it, and the host hears of it (Table 12.5). -/
def State.coxRst (s : State) (on : Bool) : State :=
  if s.bit DEV_STATUS DEV_STATUS_COX_RST = on then s
  else (s.setf DEV_STATUS DEV_STATUS_COX_RST on.toNat).hostCause HOST_INT_CAUSE_COX_RST

-- log 10: DEDUCED, safe.
/-- R285: a free value says whether the short command at the head of the queue was executing: it ends ABORTED. -/
def State.abortShort (s : State) : State :=
  match s.cox.queue with
  | [] => s
  | q :: _ =>
    let r := s.fresh
    if r.1.getLsbD 0 && !longCodes.contains q.cmd then r.2.coxPop.coxAnswer q (Ans.err 0x0A) else r.2

/-- COX_RESTART: a lockstep mismatch, or the activation of a staged image. -/
def execCoxRestart (activation : Bool) (s : State) : Outcome :=
  .next (if s.cox.restart.isSome ∨ s.coxIdle ∨ (activation ∧ !s.activating) then s
    else
      let s := if activation then s else s.rasEvent 8 0x24 1 0 0 0
      ((s.abortShort.setCox fun c => { c with restart := some (activation, s.stroke.ticks) }).coxRst true).coxNote 5 0)

/-! ### SPDM (R420, R421): message codes of the SPDM specification (log 35) -/

def State.spdmSend (s : State) (who code : Nat) (fields : List Nat) : State := s.emit (.management (0x500 + code) (who :: fields))
def nats (l : List Byte) : List Nat := l.map BitVec.toNat

/-- A signature of the alias key over the transcript (a free value, Config.spdmTranscript). -/
def State.spdmSign (s : State) : State × List Byte :=
  ({ s with free := s.free + 1 }, Config.falconSign s.aliasSeed (Config.spdmTranscript s.free))

-- log 35: PRESUMED, unsafe.
/-- The responder answers a request: its code, then its fields. -/
def State.spdmAnswer (s : State) (q : SpdmReq) : State :=
  let f (i : Nat) : Nat := q.fields.getD i 0
  let err (e : Nat) : State := s.spdmSend q.who 0x7F [e]
  match q.code with
  | 0x84 => s.spdmSend q.who 0x04 [0x12, 0x13]
  | 0xE1 => s.spdmSend q.who 0x61 [0x16]
  | 0xE3 => if f 0 = 1 ∧ f 1 = 1 then s.spdmSend q.who 0x63 [0x1F3C, 1, 0x1F3C, 2] else err 0x01
  | 0x81 => s.spdmSend q.who 0x01 (1 :: nats (Keccak.shake256 s.chain))
  | 0x82 =>
    if f 0 ≠ 0 ∨ s.chain.length < f 1 then err 0x01
    else
      let n := min (f 2) (s.chain.length - f 1)
      s.spdmSend q.who 0x02 ([0, n, s.chain.length - f 1 - n] ++ nats (cut s.chain (f 1) n))
  | 0x83 =>
    if f 0 ≠ 0 then err 0x01
    else
      let n := s.freshBytes 32
      let g := n.1.spdmSign
      g.1.spdmSend q.who 0x03 (nats (Keccak.shake256 s.chain) ++ nats n.2 ++ nats g.2)
  | _ =>
    let idx := if f 0 = 0xFF then [1, 2, 3, 4, 5, 6] else if 1 ≤ f 0 ∧ f 0 ≤ 6 then [f 0] else []
    if f 0 ≠ 0 ∧ idx = [] then err 0x01
    else
      let body := (if f 0 = 0 then 6 else idx.length) :: idx.flatMap fun i => i :: nats (s.measure i)
      if f 1 = 0 then s.spdmSend q.who 0x60 body
      else
        let n := s.freshBytes 32
        let g := n.1.spdmSign
        g.1.spdmSend q.who 0x60 (body ++ nats n.2 ++ nats g.2)

/-- A request of requester `who`: answered, or latched during a restart. -/
def State.spdm (s : State) (who : BitVec 8) (code : Nat) (fields : List Nat) : State :=
  let q : SpdmReq := { who := who.toNat, code := code, fields := fields }
  if s.coxIdle then s.setSec fun x => { x with latched := x.latched ++ [q] } else s.spdmAnswer q

/-- R421: the latched requests are served; the first of each requester is answered RequestResynch. -/
def State.spdmResume (s : State) (resynch : Bool) : State :=
  let qs := s.sec.latched
  let s := s.setSec fun x => { x with latched := [] }
  (qs.foldl (fun (b : State × List Nat) q =>
    if resynch && !b.2.contains q.who then (b.1.spdmSend q.who 0x7F [0x43], q.who :: b.2) else (b.1.spdmAnswer q, b.2)) (s, [])).1

def execGetVersion (who : BitVec 8) (s : State) : Outcome := .next (s.spdm who 0x84 [])
def execGetCapabilities (who : BitVec 8) (s : State) : Outcome := .next (s.spdm who 0xE1 [])
/-- NEGOTIATE_ALGORITHMS: whether the requester offers the signature and the hash of Table 17.3. -/
def execNegotiateAlgorithms (who : BitVec 8) (sig hash : Bool) (s : State) : Outcome := .next (s.spdm who 0xE3 [sig.toNat, hash.toNat])
def execGetDigests (who : BitVec 8) (s : State) : Outcome := .next (s.spdm who 0x81 [])
def execGetCertificate (who slot : BitVec 8) (off len : BitVec 16) (s : State) : Outcome :=
  .next (s.spdm who 0x82 [slot.toNat, off.toNat, len.toNat])
def execChallenge (who slot : BitVec 8) (s : State) : Outcome := .next (s.spdm who 0x83 [slot.toNat])
/-- GET_MEASUREMENTS: an index, 0 for their number or 0xFF for all, and whether a quote is asked for. -/
def execGetMeasurements (who index : BitVec 8) (sign : Bool) (s : State) : Outcome :=
  .next (s.spdm who 0xE0 [index.toNat, sign.toNat])

/-- COX_RESTART_END (R285, R423 step 5): the Cox serves again, in the staged image after an activation. -/
def execCoxRestartEnd (s : State) : Outcome :=
  .next (match s.cox.restart with
    | none => s
    | some (act, _) =>
      let s := (s.setCox fun c => { c with restart := none }).coxRst false
      let s := if act then
          let s := s.runImage s.sec.staged false
          let s := (s.mir fun m => { m with actv := false }).setSec fun x => { x with pldm := 0, applied := false }
          let s := s.openEvent 11
          match s.liveOf 0xA1 with | some l => s.lopDone l.handle [s.rd FW_IFACE_VER] | none => s
        else s
      let s := if s.cox.resetOwed then (s.setCox fun c => { c with resetOwed := false }).resetBoxes else s
      let s := s.spdmResume true
      s.coxFlush s.cox.queue.length)

-- log 113: DEDUCED, unsafe.
/-- R424: the boot ROM enters recovery, and awaits an image. -/
def State.enterRecovery (s : State) : State :=
  let s := (s.setCox fun c => { c with restart := none }).coxRst false
  (s.setf DEV_STATUS DEV_STATUS_STAGE 0xE).setSec fun x => { x with pldm := 0, pldmData := [], applied := false, chunks := [] }

-- log 36: DEDUCED, unsafe.
/-- R424: the boot ROM starts a recovery image on a module whose data plane runs: firmware of the same interface major
resumes the retained state, any other finds none (log 36). -/
def State.startRecovered (s : State) (img : List Byte) : State :=
  let same := imgMajor img = s.fld FW_IFACE_VER FW_IFACE_VER_MAJOR
  let s := (s.runImage img true).setSec fun x => { x with flash := img, pldm := 0, pldmData := [], applied := false, chunks := [] }
  let s := s.setf SEC_STATUS SEC_STATUS_BOOT_CAUSE 0
  let s := if same then s else s.setCox fun c => { Cox.init with log := c.log, logSeq := c.logSeq, lastReplan := c.lastReplan }
  let ready := s.bit DEV_STATUS DEV_STATUS_READY
  let s := (s.setCox fun c => { c with restart := none }).coxRst false
  let s := s.setf DEV_STATUS DEV_STATUS_STAGE (if ready then 7 else 2)
  let s := { s with boot := { s.boot with stageDone := false, stageTick := s.stroke.ticks } }
  if ready then (s.spdmResume true).coxFlush s.cox.queue.length else s

/-- The live FW_ACTIVATE ends FAILED with a cause, and ACTV clears. -/
def State.activateFail (s : State) (cause : Nat) : State :=
  let s := s.mir fun m => { m with actv := false }
  match s.liveOf 0xA1 with | some l => s.lopFail l.handle cause | none => s

/-- COX_UP_TIMEOUT (R363, R424): new firmware has not set COX_UP within 1,000 ticks: a paired module asks its partner for
its image, any other enters recovery. -/
def execCoxUpTimeout (s : State) : Outcome :=
  .next (match s.cox.restart with
    | some (true, t) =>
      if s.stroke.ticks < t + 1000 then s
      else if s.pstate = 3 ∧ !s.pairUp.isEmpty then
        if s.mirror.imageWanted then s
        else ((s.mir fun m => { m with imageWanted := true }).setSec fun x => { x with chunks := [] }).pairSend 8 []
      else (s.activateFail 0x0B).enterRecovery
    | _ => s)

/-- The bytes that chunks hold without a gap from offset 0, in the order of their offsets. -/
def joinChunks (cs : List (Nat × List Byte)) (at_ : Nat) : Nat → List Byte
  | 0 => []
  | n + 1 => match cs.find? (·.1 == at_) with
    | some c => if c.2 = [] then [] else c.2 ++ joinChunks cs (at_ + c.2.length) n
    | none => []

-- log 37: DEDUCED, unsafe; log 112: DEDUCED, unsafe.
/-- IMAGE (R363): a chunk of the partner's image; without data, the partner's request for this module's (log 37). -/
def execImage (p : BitVec 1) (h : Hdr) (off : BitVec 32) (data : List Byte) (s : State) : Outcome :=
  let r := s.pairRx p.toNat h 8
  let s := r.1
  .next (if !r.2 ∨ 4096 < data.length then s
    else if data = [] then
      if s.coxIdle then s
      else (List.range ((s.sec.flash.length + 4095) / 4096)).foldl (fun s i =>
        s.pairSend 8 (4096 * i :: nats ((s.sec.flash.drop (4096 * i)).take 4096))) s
    else if !s.mirror.imageWanted then s
    else
      let s := s.setSec fun x => { x with chunks := x.chunks ++ [(off.toNat, data)] }
      let img := joinChunks s.sec.chunks 0 s.sec.chunks.length
      if img.length < 4096 ∨ img.length < 4096 + dword img 0x10 % 2 ^ 32 then s
      else
        let s := s.mir fun m => { m with imageWanted := false }
        let cause := s.verifyImage img false
        let s := s.activateFail 0x0B
        if cause = 0 then s.startRecovered img
        else (s.setf SEC_STATUS SEC_STATUS_BOOT_CAUSE cause).enterRecovery)

/-! ### PLDM firmware update (R425): commands and codes of DSP0267 (log 35) -/

-- log 35: PRESUMED, unsafe.
def State.pldmSend (s : State) (who : BitVec 8) (cmd code : Nat) : State := s.emit (.management (0x100 + cmd) [who.toNat, code])
/-- The device's PLDM side serves: the Cox runs, or the boot ROM awaits an image. -/
def State.pldmUp (s : State) : Bool := s.fld DEV_STATUS DEV_STATUS_STAGE == 0xE || !s.coxIdle
def State.recovering (s : State) : Bool := s.fld DEV_STATUS DEV_STATUS_STAGE == 0xE

/-- REQUEST_UPDATE: 0x81 while an update, FW_STAGE, FW_ACTIVATE or DATA_RESET is live. -/
def execRequestUpdate (who : BitVec 8) (s : State) : Outcome :=
  .next (if !s.pldmUp then s
    else if s.sec.pldm ≠ 0 ∨ (!s.recovering ∧ s.fwBusy) then s.pldmSend who 0x10 0x81
    else (s.setSec fun x => { x with pldm := 1, pldmData := [], applied := false }).pldmSend who 0x10 0)

-- log 35: PRESUMED, unsafe.
/-- A command that the update takes in one state only; 0x84 in any other. -/
def State.pldmStep (s : State) (who : BitVec 8) (cmd need : Nat) (f : Sec → Sec) : State :=
  if !s.pldmUp then s else if s.sec.pldm ≠ need then s.pldmSend who cmd 0x84 else (s.setSec f).pldmSend who cmd 0

def execPassComponentTable (who : BitVec 8) (s : State) : Outcome := .next (s.pldmStep who 0x13 1 fun x => { x with pldm := 2 })

/-- UPDATE_COMPONENT: the transfer of an image of `len` bytes into staging SRAM begins, and discards what was staged. -/
def execUpdateComponent (who : BitVec 8) (len : BitVec 32) (s : State) : Outcome :=
  .next (if s.sec.pldm = 2 ∧ s.pldmUp then
      (s.setf SEC_STATUS SEC_STATUS_STAGED 0).pldmStep who 0x14 2 fun x =>
        { x with pldm := 3, pldmLen := len.toNat, pldmData := [], staged := [], applied := false }
    else s.pldmStep who 0x14 2 id)

/-- REQUEST_FIRMWARE_DATA: the data returned for the device's request. -/
def execRequestFirmwareData (data : List Byte) (s : State) : Outcome :=
  .next (if !s.pldmUp ∨ s.sec.pldm ≠ 3 ∨ s.sec.pldmLen < s.sec.pldmData.length + data.length ∨ 4194304 < s.sec.pldmLen then s
    else s.setSec fun x => { x with pldmData := x.pldmData ++ data })

/-- TRANSFER_COMPLETE: the device has every byte. -/
def execTransferComplete (who : BitVec 8) (s : State) : Outcome :=
  .next (if s.pldmUp ∧ s.sec.pldm = 3 ∧ s.sec.pldmData.length = s.sec.pldmLen then
      (s.setSec fun x => { x with pldm := 4 }).pldmSend who 0x16 0 else s)

/-- VERIFY_COMPLETE: the device reports the cause of Table 17.2, 0 for none. In recovery the boot ROM does not check step 8. -/
def execVerifyComplete (who : BitVec 8) (s : State) : Outcome :=
  .next (if !s.pldmUp ∨ s.sec.pldm ≠ 4 then s
    else
      let cause := s.verifyImage s.sec.pldmData (!s.recovering)
      (s.setSec fun x => { x with pldm := if cause = 0 then 5 else 2 }).pldmSend who 0x17 cause)

/-- APPLY_COMPLETE: the image has been written to the flash (`ok`, read back and equal) or not; in recovery the boot ROM then
starts it. -/
def execApplyComplete (who : BitVec 8) (ok : Bool) (s : State) : Outcome :=
  .next (if !s.pldmUp ∨ s.sec.pldm ≠ 5 then s
    else if !ok then ((s.setSec fun x => { x with pldm := 2 }).mir fun m => { m with actv := false }).pldmSend who 0x18 0x0A
    else
      let img := s.sec.pldmData
      let s := s.pldmSend who 0x18 0
      if s.recovering then s.startRecovered img
      else (s.setSec fun x => { x with pldm := 2, applied := true, flash := img, staged := img }).setf SEC_STATUS SEC_STATUS_STAGED 1)

/-- ACTIVATE_FIRMWARE: R423 steps 2 to 5 follow; the flash holds the image already. -/
def execActivateFirmware (who : BitVec 8) (s : State) : Outcome :=
  .next (if !s.pldmUp then s
    else if s.sec.pldm ≠ 2 ∨ !s.sec.applied then s.pldmSend who 0x1A 0x84
    else if s.pstate ≠ 0 ∧ s.mirror.partnerActv then s.pldmSend who 0x1A 0x81
    else ((s.setSec fun x => { x with pldm := 6 }).mir fun m => { m with actv := true }).pldmSend who 0x1A 0)

def execGetStatus (who : BitVec 8) (s : State) : Outcome := .next (if s.pldmUp then s.pldmSend who 0x1B s.sec.pldm else s)

/-- CANCEL_UPDATE: the update ends; its data are discarded. -/
def execCancelUpdate (who : BitVec 8) (s : State) : Outcome :=
  .next (if !s.pldmUp then s
    else if s.sec.pldm = 0 ∨ s.sec.pldm = 6 then s.pldmSend who 0x1D 0x80
    else (s.setSec fun x => { x with pldm := 0, pldmData := [], applied := false }).pldmSend who 0x1D 0)

end Sys2Proof.Machine
end

