-- ==== Sys2Proof/Machine/Messages.lean ====
section
/-!
DEFINITION. Messages (R184 to R187) and the buckle instructions with the events that answer them (R188 to R192).
-/
namespace Sys2Proof.Machine

/-! ### Messages -/

def execMsend (t : BitVec 8) (rt rs : BitVec 5) (n : BitVec 3) (tag : BitVec 11) (s : State) : Outcome :=
  let k := n.toNat
  onTile t (.s rt.toNat :: (List.range (k + 1)).map fun i => .s (rs.toNat + i)) s fun i x =>
    let word := wordE 0xA (rt.toNat * 2 ^ 19 + rs.toNat * 2 ^ 14 + k * 2 ^ 11 + tag.toNat)
    let target := x.rs rt.toNat
    if 31 < rs.toNat + k then s.exc i exIllegal 0 word
    else if 255 < target.toNat then s.exc i exMsgTarget 0 target
    else if 8 ≤ x.outbox.length then s
    else
      let m : Msg := { who := target.toNat, tag := tag.toNat, payload := (List.range (k + 1)).map fun j => x.rs (rs.toNat + j) }
      (s.setTile i { x with outbox := x.outbox ++ [m] }).retire1 i

/-- R185, R187: the head of tile t's outbound queue is offered to its target: stored, or refused and counted. Without a
path to the target it ends in the log (R265, R266). -/
def State.offerMsg (s : State) (t : Nat) : State :=
  let x := s.tile t
  match x.outbox with
  | [] => s
  | m :: rest =>
    let u := m.who
    if s.stilled t ∨ s.stilled u ∨ s.holds (t / 32) (u / 32) then s
    else if !s.reach (t / 32) (u / 32) then
      (s.setTile t { x with outbox := rest, refused := false }).rasEvent (t / 32) 0x14 3 (t % 32) 0 u
    else
    let full := 64 ≤ (s.tile u).inbox.length || !s.bit (TIL_MSG_CTRL u) TIL_MSG_CTRL_EN
    if full then
      (s.setTile t { x with refused := true }).stick (TIL_MSG_CNT_FULL t) TIL_MSG_CNT_FULL_COUNT 1
    else
      let s := s.setTile t { x with outbox := rest, refused := false }
      let y := s.tile u
      let got : Msg := { who := t, tag := m.tag, payload := m.payload }
      (s.setTile u { y with inbox := y.inbox ++ [got] }).inboxSettle u

/-- MSG: the message at the head of tile t's outbound queue reaches its target. -/
def execMsg (t : BitVec 8) (s : State) : Outcome :=
  .next (if (s.tile t.toNat).refused then s else s.offerMsg t.toNat)

def execMessageRefusalRetry (t : BitVec 8) (s : State) : Outcome :=
  .next (if (s.tile t.toNat).refused then s.offerMsg t.toNat else s)

/-- The header of a message (R186). -/
def msgHeader (m : Msg) : Word := BitVec.ofNat 64 (m.tag * 2 ^ 21 + (m.payload.length - 1) * 2 ^ 18 + m.who)

/-- A list of doublewords as little-endian bytes. -/
def wordsNat : List Word → Nat
  | [] => 0
  | w :: ws => w.toNat + 2 ^ 64 * wordsNat ws

def execMrecv (t : BitVec 8) (rd rsDst : BitVec 5) (s : State) : Outcome :=
  onTile t [.s rsDst.toNat] s fun n x =>
    let va := (x.rs rsDst.toNat).toNat
    if va % 64 ≠ 0 then s.exc n exStoreAccess 0 (BitVec.ofNat 64 va)
    else match s.ownAccess n .store va 64 with
      | .error e => s.exc n e.code e.sub (BitVec.ofNat 64 e.addr)
      | .ok a =>
        match x.inbox with
        | [] => s.finS n rd.toNat allOnes
        | m :: rest =>
          let s := (s.setTile n { x with inbox := rest }).storeWrite a 64 (wordsNat m.payload)
          s.finS n rd.toNat (msgHeader m)

def execMcount (t : BitVec 8) (rd : BitVec 5) (s : State) : Outcome :=
  onTile t [] s fun n x => s.finS n rd.toNat (BitVec.ofNat 64 x.inbox.length)

/-- TIL_MSG_EN: a write of TIL_MSG_CTRL (R187). -/
def execTilMsgEn (m : Master) (t : BitVec 8) (v : Word) (s : State) : Outcome := .next (s.tilWrite m t.toNat 0x200 v)

-- log 56: DEDUCED, unsafe.
/-- MSG_DRAIN_LIMIT: at the second catch, senders discard every message they still hold for the inbox (R11, R187). -/
def execMsgDrainLimit (t : BitVec 8) (s : State) : Outcome :=
  let n := t.toNat
  .next (if !s.drainExpired (.inbox n) 1 then s
    else
      let senders := (s.tiles.filter fun p => p.2.outbox.any fun m => m.who == n).map (·.1)
      let s := senders.foldl (fun s u =>
        let x := s.tile u
        let head := x.outbox.head?.any fun m => m.who == n
        let s := s.setTile u { x with outbox := x.outbox.filter fun m => m.who != n, refused := x.refused && !head }
        let s := s.setf (TIL_MSG_STATUS u) TIL_MSG_STATUS_ABORT 1
        s.setf (TIL_MSG_STATUS u) TIL_MSG_STATUS_ABORT_TILE n) s
      s.endDrain (.inbox n) (TIL_MSG_CTRL n) TIL_MSG_CTRL_EN (TIL_MSG_STATUS n) TIL_MSG_STATUS_ACTIVE)

/-! ### Buckle instructions (R188 to R192) -/

/-- A buckle operation on the buckle that s(rs_b) holds. -/
def buckleOp (t : BitVec 8) (rb : BitVec 5) (reads : List ParReg) (s : State) (k : Nat → Tile → Nat → State) : Outcome :=
  onTile t (.s rb.toNat :: reads) s fun n x =>
    let b := (x.rs rb.toNat).toNat
    match s.bkRange n x.user b with
    | some sub => s.exc n exBuckleRange sub (BitVec.ofNat 64 b)
    | none => k n x b

/-- The operation leaves for the buckle's home. -/
def State.sendBk (s : State) (t b : Nat) (k : BkKind) : State :=
  { s with links := { s.links with ops := s.links.ops ++ [BkOp.mk t b k] } }

def low32 (w : Word) : Nat := w.toNat % 2 ^ 32

def execBsig (t : BitVec 8) (rb rn : BitVec 5) (s : State) : Outcome :=
  buckleOp t rb [.s rn.toNat] s fun n x b => (s.sendBk n b (.add (low32 (x.rs rn.toNat)))).retire1 n

def execBset (t : BitVec 8) (rb rn : BitVec 5) (s : State) : Outcome :=
  buckleOp t rb [.s rn.toNat] s fun n x b => (s.sendBk n b (.put (low32 (x.rs rn.toNat)))).retire1 n

/-- bsigi: buckle and count - 1 in the instruction. -/
def execBsigi (t : BitVec 8) (b : BitVec 14) (count : BitVec 10) (s : State) : Outcome :=
  onTile t [] s fun n x =>
    match s.bkRange n x.user b.toNat with
    | some sub => s.exc n exBuckleRange sub (b.setWidth 64)
    | none => (s.sendBk n b.toNat (.add (count.toNat + 1))).retire1 n

/-- bwait: a ninth outstanding wait stalls (R191). -/
def execBwait (t : BitVec 8) (rb rn : BitVec 5) (irq : Bool) (s : State) : Outcome :=
  buckleOp t rb [.s rn.toNat] s fun n x b =>
    if 8 ≤ x.waits then s
    else ((s.setTile n { x with waits := x.waits + 1 }).sendBk n b (.wait (low32 (x.rs rn.toNat)) irq)).retire1 n

/-- bread: the core waits for the count (R192). -/
def execBread (t : BitVec 8) (rd rb : BitVec 5) (s : State) : Outcome :=
  buckleOp t rb [] s fun n x b => (s.setTile n { x with mode := .bread rd.toNat }).sendBk n b .read

def execBreadResult (t : BitVec 8) (s : State) : Outcome :=
  let n := t.toNat
  .next (if s.stilled n ∨ s.holds (SMap.get (fun _ => n / 32) s.links.readHome n) (n / 32) then s else
    match (s.tile n).mode, s.links.reads.find? fun r => r.1 == n with
    | .bread rd, some r =>
      (({ s with links := { s.links with reads := s.links.reads.erase r } }).setTile n { s.tile n with mode := .running }).finS n rd
        (BitVec.ofNat 64 r.2)
    | _, _ => s)

/-- WAIT_COMPLETE: a satisfied bwait reaches its tile (R191). -/
def execWaitComplete (t : BitVec 8) (irq : Bool) (s : State) : Outcome :=
  let n := t.toNat
  let w := WaitWho.tile n irq
  let home := match s.links.homesOf w with | q :: _ => q.2 | [] => n / 32
  .next (if s.links.done.contains w ∧ !s.stilled n ∧ !s.holds home (n / 32) then
      let s := { s with links := { s.links with done := s.links.done.erase w } }
      let x := s.tile n
      let s := s.setTile n { x with waits := x.waits - 1 }
      if irq then s.setf (TIL_BKL_EVT n) TIL_BKL_EVT_WAIT_DONE 1 else s
    else s)

/-- TIL_BKL_WRITE: a write of a TIL_BKL COUNT acts as bset at the home (R192). -/
def execTilBklWrite (m : Master) (t : BitVec 8) (i : BitVec 6) (v : Word) (s : State) : Outcome :=
  .next (s.tilWrite m t.toNat (0x8000 + 16 * i.toNat) v)

-- log 69: DEDUCED, unsafe.
/-- R265, R266: a buckle operation that finds no path, or whose link fails, ends: a bread with the uncorrectable-error
response, the others in the log. -/
def State.loseBk (s : State) (o : BkOp) : State :=
  match o.kind, (s.tile o.tile).mode with
  | .read, .bread _ =>
    (s.setTile o.tile { s.tile o.tile with mode := .running }).exc o.tile exMemUncorr 0 (BitVec.ofNat 64 o.buckle)
  | .read, _ => s
  | _, _ => s.rasEvent (o.tile / 32) 0x14 3 (o.tile % 32) 0 o.buckle

/-- BKL: the oldest buckle operation of tile t to home tile h reaches it (R188, R193), once those it sent earlier to that die
have (R262). -/
def execBkl (t h : BitVec 8) (s : State) : Outcome :=
  let a := t.toNat / 32
  let b := h.toNat / 32
  .next (if s.stilled h.toNat then s else
    match s.links.ops.find? fun o => o.tile == t.toNat && (o.buckle / 64 == h.toNat || a != b && o.buckle / 2048 == b) with
    | none => s
    | some o =>
      if o.buckle / 64 ≠ h.toNat ∨ (s.holds a b && !s.vekin.old.any (·.ops.contains o)) then s else
      let s := { s with links := { s.links with ops := s.links.ops.erase o } }
      if !s.reach (o.tile / 32) (o.buckle / 2048) then s.loseBk o else
      match o.kind with
      | .add n => s.bkAdd o.buckle n
      | .put n => s.bkSet o.buckle n
      | .wait n irq => s.bkWait o.buckle n (.tile o.tile irq)
      | .take n w => s.bkWait o.buckle n w
      | .read => { s with links := { s.links with reads := s.links.reads ++ [(o.tile, (s.buckle o.buckle).count)]
                                                  readHome := SMap.set (fun t => t / 32) s.links.readHome o.tile (o.buckle / 2048) } })

end Sys2Proof.Machine
end

