-- ==== Sys2Proof/Machine/Vekin.lean ====
section
/-!
DEFINITION. The Vekin links: flits, recovery, training, routes (R254 to R269), and the memory messages they carry.
-/
namespace Sys2Proof.Machine

/-! ### Ports, links and routes -/

def noPort : Nat → Port := fun _ => Port.init
def State.port (s : State) (k p : Nat) : Port := SMap.get noPort s.vekin.ports (k * 8 + p)
def State.setPort (s : State) (k p : Nat) (x : Port) : State :=
  { s with vekin := { s.vekin with ports := SMap.set noPort s.vekin.ports (k * 8 + p) x } }

/-- The port at the other end of the link (Table 10.1). -/
def peerOf (k p : Nat) : Nat × Nat :=
  if k = 8 then (p, 2)
  else match p with
    | 0 => ((k + 7) % 8, 1)
    | 1 => ((k + 1) % 8, 0)
    | _ => (8, k)
/-- Links by number: r for the ring link between Cr and the next die, 8 + d for the inner link of Cd. -/
def linkOf (k p : Nat) : Nat := if k = 8 then 8 + p else match p with | 0 => (k + 7) % 8 | 1 => k | _ => 8 + k
/-- Modules of a port at full width (Table 10.2). -/
def fullWidth (k p : Nat) : Nat := if k < 8 ∧ p < 2 then 8 else 4

/-- The port carries traffic, or holds it in RECOVERY, and is enabled. -/
def State.portUp (s : State) (k p : Nat) : Bool :=
  let st := s.portState k p
  (st == 2 || st == 3 || st == 4) && s.bit (VKN_PCTRL k p) VKN_PCTRL_EN

/-- Both ports of a link carry traffic. -/
def State.linkUp (s : State) (l : Nat) : Bool :=
  if l < 8 then s.portUp l 1 && s.portUp ((l + 1) % 8) 0 else s.portUp (l - 8) 2 && s.portUp 8 (l - 8)

/-- R261, R266: the route code of VKN_ROUTE from a to b (8 is H), 15 where there is no path. -/
def State.routeOf (s : State) (a b : Nat) : Nat :=
  if a = b then 0
  else if a < 8 ∧ b < 8 then
    let asc := (ringPath a b).all s.linkUp
    let desc := (ringPath b a).all s.linkUp
    let n := (b + 8 - a) % 8
    let first := if n < 4 then 1 else if 4 < n then 2 else if a % 2 = 0 then 1 else 2
    if first = 1 then (if asc then 1 else if desc then 2 else 15) else (if desc then 2 else if asc then 1 else 15)
  else
    let d := if a = 8 then b else a
    if s.linkUp (8 + d) then 3
    else if s.linkUp (8 + (d + 1) % 8) && s.linkUp d then 4
    else if s.linkUp (8 + (d + 7) % 8) && s.linkUp ((d + 7) % 8) then 5
    else 15

/-- VKN_ROUTE and REACH of block k as the ports stand; a changed route sets ROUTE_CHG, a die without a path is logged when it
is lost, or when bring-up finds it so (R266). -/
def State.rerouteOne (up : Bool) (s : State) (k : Nat) : State :=
  let codes := (List.range 9).map (s.routeOf k)
  let word := codes.reverse.foldl (fun n c => n * 16 + c) 0
  let was := s.routeCode k
  let old := (List.range 9).map was
  let s := s.wr (VKN_ROUTE k) (BitVec.ofNat 64 word)
  let reach := (List.range 9).foldl (fun n b => if codes.getD b 15 = 15 then n else n + 2 ^ b) 0
  let s := s.setf (VKN_STATUS k) VKN_STATUS_REACH reach
  (List.range 9).foldl (fun s b =>
    let c := codes.getD b 15
    let w := old.getD b 15
    let s := if w = 15 ∨ w = c then s else s.setf (VKN_STATUS k) VKN_STATUS_ROUTE_CHG 1
    if c = 15 ∧ (up ∨ w ≠ 15) then s.rasEvent k 0x15 4 b 0 0 else s) s

def State.reroute (s : State) : State := (List.range 9).foldl (State.rerouteOne false) s

/-- The routes that bring-up finds. -/
def State.routeUp (s : State) : State := (List.range 9).foldl (State.rerouteOne true) s

/-! ### Messages that end with a failed link (R265) -/

/-- A message from a to b crosses link l on its present route. -/
def State.crosses (s : State) (l a b : Nat) : Bool := (linksOf a b (s.routeCode a b)).contains l

/-- The messages on their way over link l. -/
def State.onLink (s : State) (l : Nat) : OnWay :=
  { link := l
    stores := s.store.outStores.filter fun o => s.crosses l (o.tile / 32) (dieOf o.addr)
    ops := s.links.ops.filter fun o => s.crosses l (o.tile / 32) (o.buckle / 2048)
    events := s.stroke.inFlight.filter fun e => s.crosses l 8 e.die
    ctls := s.links.ctlReads.filter fun r => s.crosses l (r.tile / 32) (dieOf r.addr)
    notes := s.links.notes.filter fun i => s.crosses l ((i.reg - dieBase 0) / 0x02000000) 8
    rsps := s.vekin.rsp.filter fun r => s.crosses l r.src r.dst }

/-- The ARG of an ERR: an exception code for a tile, a completion status for the others (Table 10.6). -/
def errArg (c : Cls) (write : Bool) : MemFail → Nat
  | .uncorr => match c with | .scalar => exMemUncorr | _ => 2
  | .access => match c with | .scalar => if write then exStoreAccess else exLoadAccess | _ => 1
  | .held => 0

-- log 50: DESIGN CHOICE, safe.
/-- R265: a store that ends may have taken effect: a free value decides. -/
def State.endStore (s : State) (o : OutStore) : State :=
  let r := s.fresh
  let s := if r.1.getLsbD 0 && !o.ctl then (r.2.memWrite .scalar o.tile o.addr o.width o.value).1 else r.2
  s.rasEvent (o.tile / 32) 0x14 3 (o.tile % 32) 0 o.addr

-- log 50: DESIGN CHOICE, safe.
/-- R265: for each message of a list a free value says whether the far receiver had acknowledged it: it is delivered then, and
ended by `f` otherwise. -/
def State.endEach {α : Type} (f : State → α → State) (s : State) (l : List α) : State :=
  l.foldl (fun s m => let r := s.fresh; if r.1.getLsbD 0 then r.2 else f r.2 m) s

/-- A load of control space, or a bread, of tile t ends with the uncorrectable response. -/
def State.endLoad (s : State) (t : Nat) (a : Word) : State :=
  (s.setTile t { s.tile t with mode := TileMode.running }).exc t exMemUncorr 0 a

-- log 22: DEDUCED, unsafe; log 50: DESIGN CHOICE, safe.
/-- R265: the messages of w end at their senders: loads and reads with the uncorrectable response, what has no response in the
log; where a port was disabled, a class that has such a status is told ABORTED_DISABLE (R267). -/
def State.endOnWay (s : State) (disabled : Bool) (w : OnWay) : State :=
  let lose (s : State) (d unit addr : Nat) : State := s.rasEvent d 0x14 3 unit 0 addr
  let s := s.endEach (fun s o => ({ s with store := { s.store with outStores := s.store.outStores.erase o } }).endStore o) w.stores
  let s := s.endEach (fun s o => ({ s with links := { s.links with ops := s.links.ops.erase o } }).loseBk o) w.ops
  let s := s.endEach (fun s e => lose { s with stroke := { s.stroke with inFlight := s.stroke.inFlight.erase e } } 8 0 e.target) w.events
  let s := s.endEach (fun s r =>
    ({ s with links := { s.links with ctlReads := s.links.ctlReads.erase r } }).endLoad r.tile (BitVec.ofNat 64 r.addr)) w.ctls
  let s := s.endEach (fun s i =>
    lose { s with links := { s.links with notes := s.links.notes.erase i } } ((i.reg - dieBase 0) / 0x02000000) 0 i.reg) w.notes
  s.endEach (fun s r =>
    let told := if disabled && r.cls != .scalar then 3 else errArg r.cls false .uncorr
    let bad := { r with err := some (r.err.getD told), data := none }
    { s with vekin := { s.vekin with rsp := s.vekin.rsp.replace r bad } }) w.rsps

-- log 50: DESIGN CHOICE, safe.
/-- R265: answers of buckles on their way over link l end: a bread with the uncorrectable response, a completed wait in the
log. -/
def State.endAnswers (s : State) (l : Nat) : State :=
  let s := s.endEach (fun s q =>
      ({ s with links := { s.links with reads := s.links.reads.erase q } }).endLoad q.1 0)
    (s.links.reads.filter fun q => s.crosses l (SMap.get (fun t => t / 32) s.links.readHome q.1) (q.1 / 32))
  let die : WaitWho → Nat | .tile t _ => t / 32 | .gate t _ => t / 32 | .ring t => t / 32 | .launch _ => 8
  s.endEach (fun s w =>
      ({ s with links := { s.links with done := s.links.done.erase w } }).rasEvent (die w) 0x14 3 0 0 0)
    (s.links.done.filter fun w => (s.links.homesOf w).any fun q => s.crosses l q.2 (die w))

/-- The device address of the first line of n bytes at BAR2 offset o whose way to its home crosses link l and waits there. -/
def State.hostOn (s : State) (l : Nat) (w : Bool) (o n : Nat) : Option Nat :=
  ((linesOf (n / 128 + 2) o n).filterMap fun p => s.bar2Addr w (p.1 + p.2.1)).find? fun a =>
    s.crosses l 8 (dieOf a) && s.holds 8 (dieOf a)

-- log 50: DESIGN CHOICE, safe.
/-- R306: accesses of the host on their way over link l: a read ends with Completer Abort; the line of a posted write may have
taken effect. -/
def State.endHost (s : State) (l : Nat) : State :=
  let s := s.endEach (fun s q =>
    let s := { s with host := { s.host with reads := s.host.reads.erase q } }
    ((s.complete q.tag 2 0 0).aerSet aerAbort).inErr true 2 ((s.hostOn l false q.off q.len).getD 0))
    (s.host.reads.filter fun q => q.bar == 2 && q.behind == 0 && (s.hostOn l false q.off q.len).isSome)
  s.endEach (fun s w =>
    let k := min w.len (128 - w.off % 128)
    let a := (s.bar2Addr true w.off).getD 0
    let r := s.fresh
    let s := match if r.1.getLsbD 0 then r.2.pieceWrite .host 0 a k (w.value % 256 ^ k) else (r.2, some .uncorr) with
      | (s, none) => s
      | _ => r.2
    s.hostSkip.inErr true 0 a)
    ((s.host.posted.take 1).filter fun w => w.bar == 2 && (s.hostOn l true w.off (min w.len (128 - w.off % 128))).isSome)

/-- R265: what is on its way over link l ends, or is delivered where it had been acknowledged. -/
def State.endCrossing (s : State) (l : Nat) : State := ((s.endOnWay false (s.onLink l)).endAnswers l).endHost l

/-! ### States of a port -/

/-- The port's WIDTH follows its modules in service; a port below full width is DEGRADED, one without modules FAILED
(R263 to R265). A width that fell is logged. -/
def State.portSettle (s : State) (k p : Nat) : State :=
  let out (m : Nat) := (s.rd (VKN_PLANES k p)).getLsbD (4 * m + 3)
  let mods := ((List.range (fullWidth k p)).filter fun m => !out m).length
  let w := if 8 ≤ mods then 8 else if 4 ≤ mods then 4 else if 2 ≤ mods then 2 else mods
  let a := VKN_PSTATUS k p
  let was := s.fld a VKN_PSTATUS_WIDTH
  let was := if was = 0 then fullWidth k p else was
  let st := if w = 0 then 5 else if w < fullWidth k p then 3 else 2
  let s := ((s.setf a VKN_PSTATUS_MODS mods).setf a VKN_PSTATUS_WIDTH w).setf a VKN_PSTATUS_STATE st
  (if st = 5 then (s.setf a VKN_PSTATUS_FAIL 1).rasEvent k 0x13 4 p 0 0
   else if w < was then (s.setf a VKN_PSTATUS_DEGRADE 1).rasEvent k 0x13 4 p 0 0
   else s).showDegraded

/-- The port enters FAILED: what crosses its link ends, and traffic is routed again (R265, R266). -/
def State.portFail (s : State) (k p : Nat) : State :=
  let s := s.endCrossing (linkOf k p)
  let s := (s.setf (VKN_PSTATUS k p) VKN_PSTATUS_STATE 5).setf (VKN_PSTATUS k p) VKN_PSTATUS_FAIL 1
  ((s.setPort k p { s.port k p with unacked := [], replay := 0 }).rasEvent k 0x13 4 p 0 0).showDegraded.reroute

/-- R258: the port enters RECOVERY. -/
def State.portRecover (s : State) (k p : Nat) : State :=
  if s.portState k p = 2 ∨ s.portState k p = 3 then
    let s := s.setf (VKN_PSTATUS k p) VKN_PSTATUS_STATE 4
    let s := s.stick (VKN_CNT_RECOV k p) VKN_CNT_RECOV_COUNT 1
    (s.setPort k p { s.port k p with fails := 0, rejRun := 0 }).rasEvent k 0x13 1 p 0 0
  else s

/-- A module m of a port goes out of service: the retire list names it (Tables 15.2 and 15.3). -/
def State.moduleOut (s : State) (k p m : Nat) : State :=
  let s := s.wr (VKN_PLANES k p) (s.rd (VKN_PLANES k p) ||| BitVec.ofNat 64 (8 * 16 ^ m))
  s.retire k { kind := 7, cause := 0x13, addr := 0, stroke := s.now.toNat % 2 ^ 32, image := false, unit := k * 32 + p * 8 + m }

/-- R263: a port trains; `bad` lists, for each module in order, its failing data or parity lanes and its failing spare lanes.
Credits are full and sequences start again at the end of training (R259). -/
def State.trainPort (s : State) (k p : Nat) (bad : List (Nat × Nat)) : State :=
  let s := (s.wr (VKN_PLANES k p) 0).setf (VKN_PSTATUS k p) VKN_PSTATUS_WIDTH 0
  let s := (List.range (fullWidth k p)).foldl (fun s m =>
    let n := bad.getD m (0, 0)
    if 4 < n.1 + n.2 then s.moduleOut k p m
    else s.wr (VKN_PLANES k p) (s.rd (VKN_PLANES k p) ||| BitVec.ofNat 64 (n.1 * 16 ^ m))) s
  (s.setPort k p { Port.init with deadSpares := bad.map (·.2) }).portSettle k p

/-- Module m of a port uses n more spares; where they do not suffice for failing lanes it goes out of service, and weak lanes
stay (R263). -/
def State.useSpares (s : State) (k p m n : Nat) (weak : Bool) : State :=
  let f : Fld := ⟨4 * m, 3⟩
  let used := s.fld (VKN_PLANES k p) f + n
  if (s.rd (VKN_PLANES k p)).getLsbD (4 * m + 3) then s
  else if used + (s.port k p).deadSpares.getD m 0 ≤ 4 then s.setf (VKN_PLANES k p) f used
  else if weak then s else s.moduleOut k p m

/-- RECOVERY_END: a recovery ends: it failed, or its lane test found so many lanes that newly fail in each module; then spares replace
them and the weak lanes (R263), and the port replays from ACK + 1; the third failure in a row makes it FAILED. -/
def execRecoveryEnd (k : BitVec 4) (p : BitVec 3) (tested : Option (List Nat)) (s : State) : Outcome :=
  let n := k.toNat
  let q := p.toNat
  .next (if !isPort n q || s.portState n q ≠ 4 then s
    else match tested with
    | some bad =>
      let s := bad.zipIdx.foldl (fun s b => if b.1 = 0 then s else s.useSpares n q b.2 b.1 false) s
      let s := (s.port n q).weak.foldl (fun s m => s.useSpares n q m 1 true) s
      let x := s.port n q
      let s := s.setPort n q { x with weak := [], fails := 0, rejRun := 0, replay := x.unacked.length }
      let s := if x.unacked = [] then s else s.stick (VKN_CNT_REPLAY n q) VKN_CNT_REPLAY_COUNT 1
      (s.portSettle n q).reroute
    | none =>
      let x := s.port n q
      if 2 ≤ x.fails then s.portFail n q else s.setPort n q { x with fails := x.fails + 1 })

/-! ### Flits (R255 to R261) -/

/-- One bit of the CRC-64 of R255. -/
def crcBit (c : Word) (b : Bool) : Word :=
  let top := c.getLsbD 63 != b
  let c := c <<< 1
  if top then c ^^^ 0x42F0E1EBA9EA3693 else c

def crcByte (c : Word) (b : Nat) : Word := (List.range 8).foldl (fun c i => crcBit c (b.testBit (7 - i))) c

/-- The CRC of a flit over bytes 0x00 to 0xEF and 0xF8 to 0xFF. -/
def flitCrc (f : BitVec 2048) : Word :=
  let bytes := (List.range 240) ++ (List.range 8).map (· + 248)
  (bytes.foldl (fun c i => crcByte c (f.extractLsb' (8 * i) 8).toNat) (BitVec.allOnes 64)) ^^^ BitVec.allOnes 64

/-- Doubleword at byte o of a flit. -/
def flitW (f : BitVec 2048) (o : Nat) : Nat := (f.extractLsb' (8 * o) 64).toNat
def bitsAt (v lo n : Nat) : Nat := v / 2 ^ lo % 2 ^ n

/-- The MAP code of chunk c. -/
def flitMap (f : BitVec 2048) (c : Nat) : Nat := bitsAt (flitW f 8) (36 + 2 * c) 2
/-- The head chunks of a flit: their first and second doubleword. -/
def flitHeads (f : BitVec 2048) : List (Nat × Nat) :=
  ((List.range 14).filter fun c => flitMap f c == 1).map fun c => (flitW f (16 + 16 * c), flitW f (24 + 16 * c))

/-- The types of Table 10.6. -/
def msgType (t : Nat) : Bool := [1, 2, 3, 4, 5, 6, 8, 9, 10, 16, 17, 18, 19].contains t

/-- A growth field is nonzero, MAP holds code 3, or a head has a reserved TYPE or a growth field (R256, Table 10.6). -/
def flitGrowth (f : BitVec 2048) : Bool :=
  let w := flitW f 0
  bitsAt w 60 4 ≠ 0 || bitsAt w 28 5 ≠ 0 || bitsAt (flitW f 8) 0 36 ≠ 0 || flitW f 0xF8 ≠ 0 ||
  (List.range 14).any (fun c => flitMap f c == 3) ||
  (flitHeads f).any fun h => !msgType (bitsAt h.1 59 5) || bitsAt h.2 56 8 ≠ 0

/-- Byte b of a flit. -/
def flitByte (f : BitVec 2048) (b : Nat) : Nat := (f.extractLsb' (8 * b) 8).toNat

/-- The odd-parity bits of a flit, bit b for byte b, which parity lane b mod 8 of a module carries (R255). -/
def flitParity (f : BitVec 2048) : BitVec 256 :=
  BitVec.ofNat 256 ((List.range 256).foldl (fun n b =>
    if ((List.range 8).filter fun i => (flitByte f b).testBit i).length % 2 = 0 then n + 2 ^ b else n) 0)

/-- VC and possible DCHUNKS of a message type (Table 10.6). -/
def msgShape (typ : Nat) : Nat × List Nat :=
  match typ with
  | 1 => (0, [0]) | 2 => (0, [8]) | 3 => (0, [9]) | 4 => (1, [8]) | 5 => (1, [0]) | 6 => (1, [0])
  | 8 => (2, [0]) | 9 => (2, [1, 2, 3, 4]) | 10 => (2, [1]) | 16 => (3, [0]) | _ => (3, [1])

/-- R261, R266: the dateline class on link l of a message from a to b whose route has this code. -/
def dateline (a b code l : Nat) : Nat :=
  let way := linksOf a b code
  if code = 4 ∨ code = 5 ∨ (way.takeWhile (· != l) ++ [l]).contains 7 then 1 else 0

/-- The head of a message that block k may send over link l: its type, VC and DCHUNKS agree, its route takes the link, and DCL
is that of R261. -/
def State.headOk (s : State) (l : Nat) (h : Nat × Nat) : Bool :=
  let a := bitsAt h.1 48 4
  let b := bitsAt h.1 52 4
  let code := s.routeCode a b
  let shape := msgShape (bitsAt h.1 59 5)
  msgType (bitsAt h.1 59 5) && bitsAt h.1 57 2 == shape.1 && shape.2.contains (bitsAt h.2 52 4) && a < 9 && b < 9 &&
  (linksOf a b code).contains l && bitsAt h.1 56 1 == dateline a b code l

-- log 163: DEDUCED, safe.
/-- R260: a port may send a chunk of this VC now; `ready` holds the VCs that have credit and chunks waiting. -/
def Port.mayCarry (x : Port) (ready : BitVec 4) (vc : Nat) (head : Bool) : Bool :=
  let data := ready.getLsbD 0 || ready.getLsbD 1
  let urgent := ready.getLsbD 2 || ready.getLsbD 3
  let share := ((x.recent.take 63).filter id).length
  let first := urgent && !(data && 16 ≤ share)
  ready.getLsbD vc && (decide (2 ≤ vc) == first) &&
    (2 ≤ vc || !head || (!x.sending.any (fun m => m.1 < 4) && !(ready.getLsbD 0 && ready.getLsbD 1 && vc == x.lastVc)))

/-- The port has sent a body chunk of this VC. -/
def Port.carried (x : Port) (vc : Nat) : Port := { x with recent := (decide (2 ≤ vc) :: x.recent).take 64 }

-- log 163: DEDUCED, safe.
/-- Chunk c of flit f leaves over link l (R259 to R261): none where the port may not send it. A data chunk belongs to the latest
head that still lacks one. -/
def State.sendChunk (s : State) (l : Nat) (f : BitVec 2048) (ready : List (BitVec 4)) (x : Port) (c : Nat) : Option Port :=
  let can := ready.getD c 0
  match flitMap f c with
  | 0 => some x
  | 1 =>
    let h := (flitW f (16 + 16 * c), flitW f (24 + 16 * c))
    let vc := bitsAt h.1 57 2
    let cls := 2 * vc + bitsAt h.1 56 1
    let n := bitsAt h.2 52 4
    if !s.headOk l h || !x.mayCarry can vc true || x.credits.getD cls 0 < 1 + n || x.sending.any (·.1 == cls) then none
    else
      let y := { x with credits := x.credits.set cls (x.credits.getD cls 0 - (1 + n)), lastVc := if vc < 2 then vc else x.lastVc }
      some (({ y with sending := if n = 0 then y.sending else (cls, n) :: y.sending } : Port).carried vc)
  | _ =>
    match x.sending with
    | [] => none
    | (cls, n) :: r =>
      if !x.mayCarry can (cls / 2) false then none
      else some (({ x with sending := if n = 1 then r else (cls, n - 1) :: r } : Port).carried (cls / 2))

/-- Credits that a flit returns: class and count, twice. -/
def flitCredits (f : BitVec 2048) : List (Nat × Nat) :=
  let w := flitW f 0
  [(bitsAt w 25 3, bitsAt w 14 11), (bitsAt w 11 3, bitsAt w 0 11)]

-- log 163: DEDUCED, safe.
/-- A new flit f leaves port p of block k: none where the port would not send it (R255 to R260). -/
def State.sendFlit (s : State) (k p : Nat) (f : BitVec 2048) (ready : List (BitVec 4)) : Option State :=
  let x := s.port k p
  let w := flitW f 0
  let idle := w.testBit 33
  let ackV := w.testBit 35
  let back := flitCredits f
  let room (c : Nat) : Bool := ((back.filter fun q => q.1 == c).map (·.2)).sum ≤ x.owed.getD c 0
  if flitGrowth f || flitCrc f != BitVec.ofNat 64 (flitW f 0xF0) || x.replay != 0 ||
    (ackV && bitsAt w 36 12 != (x.expect + 4095) % 4096) || (31 ≤ x.sinceAck && !ackV) ||
    w.testBit 34 != x.nak || (x.nak && !ackV) || !(List.range 8).all room then none
  else
    let x := { x with nak := false, sinceAck := if ackV then 0 else x.sinceAck + 1
                      owed := back.foldl (fun o q => o.set q.1 (o.getD q.1 0 - q.2)) x.owed }
    if idle then (if (List.range 14).all fun c => flitMap f c == 0 then some (s.setPort k p x) else none)
    else if bitsAt w 48 12 != x.nextSeq || 512 ≤ x.unacked.length then none
    else match (List.range 14).foldlM (s.sendChunk (linkOf k p) f ready) x with
      | none => none
      | some x =>
        some ((s.setPort k p { x with nextSeq := (x.nextSeq + 1) % 4096, unacked := x.unacked ++ [f] }).wrap
          (VKN_CNT_FLIT k p) VKN_CNT_FLIT_VALUE 1 (VKN_STATUS k) VKN_STATUS_FLIT_OVF)

/-- The next flit of a replay (R257). -/
def State.replayFlit (s : State) (k p : Nat) : Option (State × BitVec 2048) :=
  let x := s.port k p
  if x.replay = 0 then none
  else (x.unacked[x.unacked.length - x.replay]?).map fun f => (s.setPort k p { x with replay := x.replay - 1 }, f)

/-- A rejected flit: the receiver owes a NAK and waits for the replayed flit (R256). Eight attempts at one SEQ in a row, or 256
rejections in a stroke, start a recovery (R258). -/
def State.flitReject (s : State) (k p : Nat) (seq : Option Nat) : State :=
  let x := s.port k p
  let c := if x.rejStroke = s.now then x.rejCount + 1 else 1
  let run := if seq = some x.expect then x.rejRun + 1 else x.rejRun
  let s := s.setPort k p { x with rejRun := run, rejStroke := s.now, rejCount := c, nak := true, waits := true }
  let s := s.rasEvent k 0x12 1 p 0 0
  if 8 ≤ run ∨ 256 ≤ c then s.portRecover k p else s

/-- Credit returned by a flit (R259): more than was advertised starts a recovery (R258). -/
def State.flitCredit (s : State) (k p cls n : Nat) : State :=
  let x := s.port k p
  let c := x.credits.getD cls 0 + n
  let s := s.setPort k p { x with credits := x.credits.set cls (min c (portBuffers.getD cls 0)) }
  if portBuffers.getD cls 0 < c then s.portRecover k p else s

-- log 163: DEDUCED, safe.
/-- An accepted chunk owes its credit once it is forwarded or consumed, at once in the model. -/
def Port.takeChunk (f : BitVec 2048) (x : Port) (c : Nat) : Port :=
  let owe (cls : Nat) (x : Port) : Port := { x with owed := x.owed.set cls (x.owed.getD cls 0 + 1) }
  match flitMap f c with
  | 0 => x
  | 1 =>
    let h := (flitW f (16 + 16 * c), flitW f (24 + 16 * c))
    let cls := 2 * bitsAt h.1 57 2 + bitsAt h.1 56 1
    let n := bitsAt h.2 52 4
    owe cls { x with taking := if n = 0 then x.taking else (cls, n) :: x.taking }
  | _ =>
    match x.taking with
    | [] => x
    | (cls, n) :: r => owe cls { x with taking := if n = 1 then r else (cls, n - 1) :: r }

/-- An accepted flit: its chunks are taken, and its ACK, NAK and credits act on the port's own sending side (R257, R259). -/
def State.flitAccept (s : State) (k p : Nat) (f : BitVec 2048) : State :=
  let w := flitW f 0
  let idle := w.testBit 33
  let x := s.port k p
  let left := (x.nextSeq + 4095 - bitsAt w 36 12) % 4096
  let x := if w.testBit 35 && left ≤ x.unacked.length then
      { x with unacked := x.unacked.drop (x.unacked.length - left), replay := min x.replay left } else x
  let x := if idle then x
    else (List.range 14).foldl (Port.takeChunk f) { x with expect := (x.expect + 1) % 4096, rejRun := 0, waits := false }
  let x := if w.testBit 34 then { x with replay := x.unacked.length } else x
  let s := s.setPort k p x
  let s := if w.testBit 34 then s.stick (VKN_CNT_REPLAY k p) VKN_CNT_REPLAY_COUNT 1 else s
  (flitCredits f).foldl (fun s q => s.flitCredit k p q.1 q.2) s

-- log 52: DEDUCED, unsafe.
/-- R256: flit f arrives at port p of block k with parity bits `par`; `seq` is the SEQ its sender gave it, none for an idle
flit. -/
def State.flitArrive (s : State) (k p : Nat) (f : BitVec 2048) (par : BitVec 256) (seq : Option Nat) : State :=
  let idle := (flitW f 0).testBit 33
  let x := s.port k p
  if flitParity f != par || flitCrc f != BitVec.ofNat 64 (flitW f 0xF0) then
    (s.stick (VKN_CNT_CRC k p) VKN_CNT_CRC_COUNT 1).flitReject k p seq
  else if flitGrowth f then (s.setf (VKN_PSTATUS k p) VKN_PSTATUS_FLIT_VER 1).flitReject k p seq
  else if idle then (if x.waits then s else s.flitAccept k p f)
  else if bitsAt (flitW f 0) 48 12 ≠ x.expect then s.flitReject k p seq
  else s.flitAccept k p f

def flitSeq (f : BitVec 2048) : Option Nat := if (flitW f 0).testBit 33 then none else some (bitsAt (flitW f 0) 48 12)

-- log 11: DEDUCED, safe; log 163: DEDUCED, safe.
/-- FLIT: a flit crosses a link to port p of block k: the new flit f of the sender, or where `send.again` the next one of its
replay. `err` says which bits change on the way (R256), `send.ready` for each chunk which VCs have credit and chunks waiting
(R260). Ports in RECOVERY hold their flits (R258); a flit that the sender would not send has no
effect. -/
def execFlit (k : BitVec 4) (p : BitVec 3) (f : BitVec 2048) (err : FlitErr) (send : FlitSend) (s : State) : Outcome :=
  let n := k.toNat
  let q := p.toNat
  let peer := peerOf n q
  let runs (k p : Nat) : Bool := s.portState k p == 2 || s.portState k p == 3
  .next (if !isPort n q || !runs n q || !runs peer.1 peer.2 then s
    else
      match if send.again then s.replayFlit peer.1 peer.2 else (s.sendFlit peer.1 peer.2 f send.ready).map fun t => (t, f) with
      | none => s
      | some (t, g) => t.flitArrive n q (g ^^^ err.bits) (flitParity g ^^^ err.parity) (flitSeq g))

/-! ### Registers -/

/-- PCTRL.EN has taken effect: a port that idles starts training (R267). -/
def State.portStart (s : State) (k p : Nat) : State :=
  if s.bit (VKN_PCTRL k p) VKN_PCTRL_EN && s.portState k p == 0 then s.setf (VKN_PSTATUS k p) VKN_PSTATUS_STATE 1 else s

/-- The drain of a port ends: the port idles, and a held write of 1 starts its training. -/
def State.portDrained (s : State) (k p : Nat) : State :=
  match s.drain? (.rigger k p) with
  | none => s
  | some _ =>
    let s := s.setf (VKN_PSTATUS k p) VKN_PSTATUS_STATE 0
    (s.endDrain (.rigger k p) (VKN_PCTRL k p) VKN_PCTRL_EN (VKN_PSTATUS k p) VKN_PSTATUS_ACTIVE).portStart k p

-- log 22: DEDUCED, unsafe.
/-- The messages that a link took before its port was disabled, still to be delivered (R262, R267). -/
def State.keepOld (s : State) (l : Nat) : State := { s with vekin := { s.vekin with old := s.vekin.old ++ [s.onLink l] } }

-- log 22: DEDUCED, unsafe.
/-- A write of v at offset o of the VKN_ block k (R258, R267, R269). -/
def State.vknWrite (s : State) (m : Master) (k o : Nat) (v : Word) : State :=
  let a := VKN_STATUS k + o
  let p := (o - 0x1000) / 0x100
  if !isCox m then s.setf (VKN_STATUS k) VKN_STATUS_PERM_ERR 1
  else if rsvBad a v then s.setf (VKN_STATUS k) VKN_STATUS_VER_ERR 1
  else if 0x1000 ≤ o ∧ o % 0x100 = 0 ∧ isPort k p then
    let was := s.bit a VKN_PCTRL_EN
    let s := s.writeEnable (.rigger k p) a VKN_PCTRL_EN (VKN_PSTATUS k p) VKN_PSTATUS_ACTIVE (v.getLsbD 0)
    let s := if was && !s.bit a VKN_PCTRL_EN then (s.keepOld (linkOf k p)).reroute else s.portStart k p
    if v.getLsbD 1 then s.portRecover k p else s
  else s.put a v

/-- VKN_PORT_EN: a write of PCTRL of a port. -/
def execVknPortEn (m : Master) (k : BitVec 4) (p : BitVec 3) (v : Word) (s : State) : Outcome :=
  .next (if isPort k.toNat p.toNat then s.vknWrite m k.toNat (0x1000 + 0x100 * p.toNat) (v &&& ~~~ 2) else s)
/-- RECOV: a write of 1 to PCTRL.RECOV, EN as it stands. -/
def execRecov (m : Master) (k : BitVec 4) (p : BitVec 3) (s : State) : Outcome :=
  .next (if isPort k.toNat p.toNat then
    s.vknWrite m k.toNat (0x1000 + 0x100 * p.toNat) (s.rd (VKN_PCTRL k.toNat p.toNat) &&& 1 ||| 2) else s)

/-- The drain of a port has nothing left: no flit to be acknowledged, no message sent before (R267). -/
def State.portEmpty (s : State) (k p : Nat) : Bool :=
  (s.port k p).unacked.isEmpty && s.vekin.old.all fun w => w.link != linkOf k p || (s.stillOn w).pairs.isEmpty

/-- The record of link l's old messages is dropped. -/
def State.dropOld (s : State) (l : Nat) : State := { s with vekin := { s.vekin with old := s.vekin.old.filter (·.link != l) } }

/-- DRAIN_END of a port. -/
def State.portDrainEnd (s : State) (k p : Nat) : State :=
  if s.portEmpty k p then (s.dropOld (linkOf k p)).portDrained k p else s

-- log 22: DEDUCED, unsafe.
/-- VKN_DRAIN_LIMIT: the port's drain of one stroke expires: the messages it took before and that are not delivered end
(R265, R267). -/
def execVknDrainLimit (k : BitVec 4) (p : BitVec 3) (s : State) : Outcome :=
  let n := k.toNat
  let q := p.toNat
  let l := linkOf n q
  .next (if s.drainExpired (.rigger n q) 1 then
    let s := (s.vekin.old.filter (·.link == l)).foldl (fun s w => s.endOnWay true (s.stillOn w)) s
    (((s.dropOld l).setPort n q { s.port n q with unacked := [], replay := 0 }).portDrained n q) else s)

/-- VKN_PORT_TRAINED: a port that PCTRL.EN restarted finishes training. -/
def execVknPortTrained (k : BitVec 4) (p : BitVec 3) (bad : List (Nat × Nat)) (s : State) : Outcome :=
  .next (if isPort k.toNat p.toNat && s.portState k.toNat p.toNat == 1 then
    (s.trainPort k.toNat p.toNat bad).reroute else s)

/-! ### Memory messages (R197, R225, R227, R262) -/

/-- The requester classes by their bit in LLS_ALLOC. -/
def clsOf : Nat → Option Cls
  | 0 => some .scalar | 1 => some .dm | 2 => some .cxs | 3 => some .host | 4 => some .mirror | 5 => some .crew
  | _ => none

def State.respond (s : State) (r : Rsp) : State := { s with vekin := { s.vekin with rsp := s.vekin.rsp ++ [r] } }

-- log 11: DEDUCED, safe.
/-- RD: a read request of the line at a reaches its home from die src and is performed. A read that its home holds stays
(R373). -/
def execRd (cls : BitVec 3) (src : BitVec 4) (unit : BitVec 12) (tag : BitVec 16) (a : BitVec 48) (s : State) : Outcome :=
  .next (match clsOf cls.toNat with
    | none => s
    | some c =>
      let l := a.toNat / 128 * 128
      if !s.flows src.toNat (dieOf l) then s else
      let rsp (e : Option Nat) (v : Option (BitVec 1024)) : Rsp :=
        { src := dieOf l, dst := src.toNat, unit := unit.toNat, tag := tag.toNat, err := e, data := v, cls := c }
      match s.memRead c l 128 with
      | (s', .ok v) => s'.respond (rsp none (some (BitVec.ofNat 1024 v)))
      | (s', .error (.held, _)) => s'
      | (s', .error (e, _)) => s'.respond (rsp (some (errArg c false e)) none))

-- log 11: DEDUCED, safe.
/-- WR: a write of the whole line at a reaches its home. -/
def execWr (cls : BitVec 3) (src : BitVec 4) (unit : BitVec 12) (tag : BitVec 16) (a : BitVec 48) (v : BitVec 1024) (s : State) :
    Outcome :=
  .next (match clsOf cls.toNat with
    | none => s
    | some c =>
      let l := a.toNat / 128 * 128
      if !s.flows src.toNat (dieOf l) then s else
      let rsp (e : Option Nat) : Rsp :=
        { src := dieOf l, dst := src.toNat, unit := unit.toNat, tag := tag.toNat, err := e, data := none, cls := c }
      match s.memWrite c unit.toNat l 128 v.toNat with
      | (s', none) => s'.respond (rsp none)
      | (s', some (.held, _)) => s'
      | (s', some (e, _)) => s'.respond (rsp (some (errArg c true e))))

/-- WRP: the i-th scalar store on its way to memory reaches its home and is merged (R193, R225), once those its tile sent
earlier to that other die have (R262). -/
def execWrp (i : BitVec 16) (s : State) : Outcome :=
  .next (match s.store.outStores[i.toNat]? with
    | some o =>
      let first := (s.store.outStores.take i.toNat).any fun q =>
        q.tile == o.tile && !q.ctl && dieOf o.addr != o.tile / 32 && dieOf q.addr == dieOf o.addr
      if o.ctl || first then s else (s.performStore o).1
    | none => s)

/-- The oldest response to a unit leaves where it satisfies p and its way is free (R258, R262). -/
def State.takeRsp (s : State) (dst unit : Nat) (p : Rsp → Bool) : State :=
  match s.vekin.rsp.find? fun r => r.dst == dst && r.unit == unit with
  | some r => if p r && (!s.holds r.src r.dst || s.vekin.old.any (·.rsps.contains r)) then { s with vekin := { s.vekin with rsp := s.vekin.rsp.erase r } } else s
  | none => s

/-- RDATA: read data returns to its requester. -/
def execRdata (dst : BitVec 4) (unit : BitVec 12) (s : State) : Outcome :=
  .next (s.takeRsp dst.toNat unit.toNat fun r => r.data.isSome)
/-- WACK: a write acknowledgement returns to its requester. -/
def execWack (dst : BitVec 4) (unit : BitVec 12) (s : State) : Outcome :=
  .next (s.takeRsp dst.toNat unit.toNat fun r => r.data.isNone && r.err.isNone)
/-- ERR: an error response returns to its requester. -/
def execErr (dst : BitVec 4) (unit : BitVec 12) (s : State) : Outcome :=
  .next (s.takeRsp dst.toNat unit.toNat fun r => r.err.isSome)

/-- NOTE: the oldest event of a block of die d reaches the Cox (R268). -/
def execNote (d : BitVec 3) (s : State) : Outcome :=
  let mine (i : CoxIrq) : Bool := (i.reg - dieBase 0) / 0x02000000 == d.toNat
  .next (match s.links.notes.find? mine with
    | some i =>
      if s.reach d.toNat 8 && (!s.holds d.toNat 8 || s.vekin.old.any (·.notes.contains i)) then
        let s := { s with links := { s.links with notes := s.links.notes.erase i }, coxIrq := s.coxIrq ++ [i] }
        match i.ev with | some e => s.event e | none => s
      else s
    | none => s)

end Sys2Proof.Machine
end

