-- ==== Sys2Proof/Machine/Control.lean ====
section
/-!
DEFINITION. Control space as its masters reach it (R4, R7, R473, R478): the RAS_ and DBG_ blocks (R380 to R382, R467,
R469), reads and writes of any block, and what Cox firmware records of errors (R377, R381).
-/
namespace Sys2Proof.Machine

/-! ### RAS_ -/

/-- Two log records merge: same SOURCE, DIE, UNIT and ADDR, at most one tick apart (R381). -/
def mergesWith (now : Nat) (r : RasRec) (q : Nat × RasRec) : Bool :=
  q.2.source == r.source && q.2.die == r.die && q.2.unit == r.unit && q.2.addr == r.addr &&
    decide ((now + 2 ^ 32 - q.2.tick) % 2 ^ 32 ≤ 1)

/-- The latest 4,096 records. -/
def lastOf {α : Type} (n : Nat) (l : List α) : List α := l.drop (l.length - n)

-- log 92: DEDUCED, unsafe.
/-- R381: a record enters the error log: merged into the latest that it matches, or with the next SEQ; a record of SEV 4 or 5
goes to the boot flash too, where 256 are kept. -/
def State.logError (s : State) (r : RasRec) : State :=
  match s.ras.log.reverse.find? (mergesWith r.tick r) with
  | some q =>
    { s with ras := { s.ras with log := s.ras.log.map fun p =>
      if p.1 = q.1 then (p.1, { p.2 with count := min (p.2.count + r.count) (2 ^ 32 - 1) }) else p } }
  | none =>
    let e := (s.ras.nextSeq, r)
    { s with ras := { s.ras with
      log := lastOf 4096 (s.ras.log ++ [e]), nextSeq := s.ras.nextSeq + 1
      flashLog := if r.sev = 4 ∨ r.sev = 5 then lastOf 256 (s.ras.flashLog ++ [e]) else s.ras.flashLog } }

-- log 92: DEDUCED, unsafe.
/-- A write of 1 to RAS_Q_POP of block k: the head record moves to the error log. -/
def State.rasPop (s : State) (k : Nat) : State :=
  match s.rasQueue k with
  | [] => s
  | r :: q => (s.setRasQueue k q).logError r

-- log 93: DEDUCED, unsafe.
/-- The values of RAS_INJECT.SOURCE. -/
def injectSources : List Nat := [0x01, 0x02, 0x06, 0x09, 0x0A, 0x0B, 0x0C]

/-- R382: who may write offset o of RAS_ block k. -/
def rasMay (m : Master) (k o : Nat) : Bool :=
  match m with
  | .cox => true
  | .tile t => o == 0x40 && k == t / 32
  | .host => false

-- log 93: DEDUCED, unsafe; log 94: DEDUCED, unsafe.
/-- A write of v at offset o of RAS_ block k (R374, R380, R382). In the hub RAS_RMASK, RAS_RNOTE and RAS_LOSTPG are RSV. -/
def State.rasWrite (s : State) (m : Master) (k o : Nat) (v : Word) : State :=
  let a := rasBase k + o
  let hubRsv : Bool := k == 8 && (o == 0x40 || o == 0x48 || (0x100 ≤ o && o < 0x280))
  if !rasMay m k o then s.setf (RAS_STATUS k) RAS_STATUS_PERM_ERR 1
  else if rsvBad a v || (hubRsv && v != 0) then s.setf (RAS_STATUS k) RAS_STATUS_VER_ERR 1
  else if hubRsv then s
  else if o = 0x30 then (if v.getLsbD 0 then s.rasPop k else s)
  else if o = 0x50 then
    if s.fld SEC_DEBUG SEC_DEBUG_LEVEL < 2 then s.setf (RAS_STATUS k) RAS_STATUS_PERM_ERR 1
    else if !injectSources.contains (RAS_INJECT_SOURCE.get v) then s.setf (RAS_STATUS k) RAS_STATUS_VER_ERR 1
    else s.put a v
  else if 0x200 ≤ o ∧ o < 0x280 ∧ RAS_LOSTPG_V.get v = 1 ∧ s.bit a RAS_LOSTPG_V then
    (s.wr a 0).unfence k
  else s.put a v

/-- A read of RAS_ block k at offset o: RAS_Q shows the head record with SEQ zero (Table 15.6). -/
def State.rasRead (s : State) (k o : Nat) : Word :=
  if 0x10 ≤ o ∧ o ≤ 0x28 then
    match s.rasQueue k with
    | [] => 0
    | r :: _ => (logWords (0, r)).getD ((o - 0x10) / 8) 0
  else s.rd (rasBase k + o)

/-! ### DBG_ -/

/-- Two accumulator elements, 8 bytes. -/
def Tile.accPair (x : Tile) (i : Nat) : Word :=
  BitVec.ofNat 64 ((SMap.get zeroWord x.acc (2 * i)).toNat % 2 ^ 32 + (SMap.get zeroWord x.acc (2 * i + 1)).toNat % 2 ^ 32 * 2 ^ 32)

/-- Doubleword i of a vector or predicate register. -/
def laneWord (v : BitVec 16384) (i : Nat) : Word := BitVec.ofNat 64 (v.toNat / 2 ^ (64 * i))

-- log 95: DEDUCED, unsafe.
/-- R467: the doubleword that space `sp` and an index select of tile t; none out of range. -/
def State.inspect (s : State) (t sp i : Nat) : State × Option Word :=
  let x := s.tile t
  match sp with
  | 0 => (s, if i < 32 then some (x.rs i) else none)
  | 1 => (s, if i < 32 then some (x.rf i) else none)
  | 2 => if (csrDesc i).isSome then let r := s.csrValue t i; (r.1, some r.2) else (s, none)
  | 3 => (s, if i < 8192 then some (laneWord (x.rv (i / 256)) (i % 256)) else none)
  | 4 => (s, if i < 8 * 256 then some (laneWord (x.rp (i / 256)) (i % 256)) else none)
  | 5 => (s, if i < 16384 then some (x.accPair i) else none)
  | 6 => (s, if 8 * i < 0x600000 then some (BitVec.ofNat 64 (s.bytes (storeBase t + 8 * i) 8)) else none)
  | 7 => (s, if i < 2048 then some (s.rd (if i % 2 = 0 then TIL_XLAT_W0 t (i / 2) else TIL_XLAT_W1 t (i / 2))) else none)
  | 8 => (s, if i < 2048 then some (x.trace.getD i 0) else none)
  | _ => (s, none)

-- log 95: DEDUCED, unsafe.
/-- What DBG_INSP_SEL selects, if the tile may be inspected: frozen, or its tracing stopped for space 8 (R467). -/
def State.inspected (s : State) : State × Option Word :=
  let v := s.rd DBG_INSP_SEL
  let t := DBG_INSP_SEL_TILE.get v
  let sp := DBG_INSP_SEL_SPACE.get v
  let x := s.tile t
  if x.mode == TileMode.frozen || (sp == 8 && x.traceStopped) then s.inspect t sp (DBG_INSP_SEL_INDEX.get v) else (s, none)

/-- A read of the DBG_ block at offset o: beyond DBG_STATUS it needs level 1, or the Cox (R469). -/
def State.dbgRead (s : State) (m : Master) (o : Nat) : State × Word :=
  if o ≠ 0 ∧ m ≠ .cox ∧ s.fld SEC_DEBUG SEC_DEBUG_LEVEL = 0 then (s, 0)
  else if o = 0x10 then
    let q := s.inspected
    (q.1, DBG_INSP_SEL_RESULT.put (s.rd DBG_INSP_SEL) (if q.2.isSome then 0 else 3))
  else if o = 0x18 then let q := s.inspected; (q.1, q.2.getD 0)
  else (s, s.rd (DBG_STATUS + o))

/-- R464: the selected dies start their test; the results of the latest one are cleared. -/
def State.dieTest (s : State) : State :=
  let v := DBG_DIETEST_DONE.put (DBG_DIETEST_MEMFAIL.put (DBG_DIETEST_LANEFAIL.put (s.rd DBG_DIETEST) 0) 0) 0
  { s.wr DBG_DIETEST v with tap := { s.tap with testing := true } }

/-- A write of v at offset o of the DBG_ block (R469). START starts a test only while module reset is held (R464). -/
def State.dbgWrite (s : State) (m : Master) (o : Nat) (v : Word) : State :=
  let a := DBG_STATUS + o
  if m ≠ .cox then s.setf DBG_STATUS DBG_STATUS_PERM_ERR 1
  else if rsvBad a v then s.setf DBG_STATUS DBG_STATUS_VER_ERR 1
  else
    let s := s.put a v
    if o = 8 ∧ DBG_DIETEST_START.get v = 1 ∧ s.boot.held then s.dieTest else s

/-! ### Reads and writes of any block -/

/-- The offset of the NOTIFY alias of a ring, from the hub base (R294). -/
def notifyAlias (o : Nat) : Option Nat :=
  if 0x280018 ≤ o ∧ (o - 0x280018) % 0x1000 = 0 ∧ (o - 0x280018) / 0x1000 < 64 then some ((o - 0x280018) / 0x1000) else none

-- log 91: DEDUCED, unsafe.
/-- A write of doubleword v at address a, a multiple of 8, of the hub's control space. -/
def State.hubWrite (s : State) (m : Master) (a : Nat) (v : Word) : State :=
  let o := a - hubBase
  let r := o % 0x100000
  match notifyAlias o with
  | some n => (match m with | .tile _ => s.notifyWrite n | _ => s)
  | none =>
    if (descOf a).isNone then s else
    match o / 0x100000 with
    | 0 => s.stkWrite m r v
    | 2 => if m = .cox ∧ !rsvBad a v then s.put a v else s
    | 3 => s.fabWrite m r v
    | 4 => s.crwWrite m r v
    | 5 => s.mirWrite m r v
    | 6 => s.pwrWrite m r v
    | 7 => s.secWrite m r v
    | 8 => s.vknWrite m 8 r v
    | 9 => s.rasWrite m 8 r v
    | 10 => s.dbgWrite m r v
    | _ => s

-- log 91: DEDUCED, unsafe.
/-- A write of doubleword v at address a, a multiple of 8, of a compute die's control space. -/
def State.dieWrite (s : State) (m : Master) (a : Nat) (v : Word) : State :=
  let d := (a - dieBase 0) / 0x02000000
  let o := (a - dieBase 0) % 0x02000000
  let r := o % 0x100000
  if (descOf a).isNone then s
  else if o < 0x200000 then s.tilWrite m (32 * d + o / 0x10000) (o % 0x10000) v
  else match o / 0x100000 with
    | 2 => s.llsWrite m d r v
    | 3 => s.memCtlWrite m (2 * d + r / 0x40000) (r % 0x40000) v
    | 4 => s.memCtlWrite m (16 + 6 * d + r / 0x1000) (r % 0x1000) v
    | 5 => s.cxsRegWrite m d r v
    | 6 => s.vknWrite m d r v
    | 7 => s.trmWrite m d r v
    | 8 => s.rasWrite m d r v
    | 9 => s.nwtWrite m d r v
    | _ => s

/-- A write of doubleword v at control-space address a by master m (R473: nothing where no register lies). -/
def State.ctlWrite (s : State) (m : Master) (a : Nat) (v : Word) : State :=
  if a < dieBase 0 ∨ hubBase + 0x1000000 ≤ a then s
  else if hubBase ≤ a then s.hubWrite m (a / 8 * 8) v else s.dieWrite m (a / 8 * 8) v

-- log 91: DEDUCED, unsafe.
/-- A read of the doubleword at control-space address a by master m. The SEC_ and COX_ blocks read zero to all but the Cox
(R270), another tile's TIL_ block to a tile. -/
def State.ctlRead (s : State) (m : Master) (a : Nat) : State × Word :=
  let a := a / 8 * 8
  if (descOf a).isNone ∨ hubBase + 0x1000000 ≤ a then (s, 0)
  else if hubBase ≤ a then
    let o := a - hubBase
    let r := o % 0x100000
    match o / 0x100000 with
    | 7 => (s, if m = .cox then s.secRead r else 0)
    | 9 => (s, s.rasRead 8 r)
    | 10 => s.dbgRead m r
    | _ => (s, s.rd a)
  else
    let d := (a - dieBase 0) / 0x02000000
    let o := (a - dieBase 0) % 0x02000000
    if o < 0x200000 then
      let t := 32 * d + o / 0x10000
      (s, if tilMay m t then s.tilRead t (o % 0x10000) else 0)
    else if o / 0x100000 = 8 then (s, s.rasRead d (o % 0x100000))
    else (s, s.rd a)

/-! ### Commands -/

/-- REGISTER_WRITE: a master writes doubleword v at address a: control space, or BAR0 for the host. -/
def execRegisterWrite (m : Master) (a : BitVec 52) (v : Word) (s : State) : Outcome :=
  .next (match m with
    | .host => if bar0Base ≤ a.toNat ∧ s.hostOpen then s.hostPut 0 ((a.toNat - bar0Base) / 8 * 8) 8 v.toNat else s
    | .cox => s.ctlWrite .cox a.toNat v
    | .tile t => s.ctlWrite (.tile t) a.toNat v)

/-- Control accesses of tile n at a and b keep their order: they go to one block (R478), or to one other die (R262). -/
def ctlWith (n a b : Nat) : Bool := ctlBlock a == ctlBlock b || (dieOf a != n / 32 && dieOf a == dieOf b)

-- log 98: DEDUCED, unsafe; log 133: DEDUCED, safe.
/-- CWR: the first control-space store of tile t on its way to the block of address a takes effect (R478). A store whose
block cannot be reached is dropped (R266). -/
def execCwr (t : BitVec 8) (a : BitVec 48) (s : State) : Outcome :=
  let n := t.toNat
  .next (match s.store.outStores.find? fun o => o.ctl && o.tile == n && ctlWith n o.addr a.toNat with
    | none => s
    | some o =>
      if ctlBlock o.addr ≠ ctlBlock a.toNat ∨ (s.holds (n / 32) (dieOf o.addr) && !s.vekin.old.any (·.stores.contains o)) then s else
      let s := { s with store := { s.store with outStores := s.store.outStores.erase o } }
      if s.reach (n / 32) (dieOf o.addr) then
        s.ctlWrite (.tile n) o.addr (s.mergeHalf o.addr (BitVec.ofNat 64 o.value) o.width)
      else s.rasEvent (n / 32) 0x14 3 (n % 256) 0 o.addr)

-- log 98: DEDUCED, unsafe; log 133: DEDUCED, safe.
/-- CRD: the control-space load of tile t reaches its block once the tile's earlier stores to that block have taken effect
(R478). Where no path leads there, it ends with MEM_UNCORR (R266). -/
def execCrd (t : BitVec 8) (s : State) : Outcome :=
  let n := t.toNat
  .next (match s.links.ctlReads.find? fun q => q.tile == n && q.reply.isNone with
    | none => s
    | some q =>
      if s.store.outStores.any fun o => o.ctl && o.tile == n && ctlWith n o.addr q.addr then s
      else if s.holds (n / 32) (dieOf q.addr) && !s.vekin.old.any (·.ctls.contains q) then s
      else
        let rest := s.links.ctlReads.erase q
        if s.reach (n / 32) (dieOf q.addr) then
          let r := s.ctlRead (.tile n) q.addr
          let s := r.1
          { s with links := { s.links with ctlReads := rest ++ [⟨n, q.addr, q.width, some (part r.2 q.addr q.width)⟩] } }
        else if s.stilled n then s
        else
          let s := { s with links := { s.links with ctlReads := rest } }
          (s.setTile n { s.tile n with mode := .running }).exc n exMemUncorr 0 (BitVec.ofNat 64 q.addr))

-- log 133: DEDUCED, safe.
/-- CRSP: the value of a control-space load reaches tile t and the load retires. -/
def execCrsp (t : BitVec 8) (s : State) : Outcome :=
  let n := t.toNat
  .next (if s.stilled n then s else match s.links.ctlReads.find? fun q => q.tile == n && q.reply.isSome, (s.tile n).mode with
    | some q, .ctlLoad rd fp width signed =>
      if s.holds (dieOf q.addr) (n / 32) && !s.vekin.old.any (·.ctls.contains q) then s else
      let s := { s with links := { s.links with ctlReads := s.links.ctlReads.erase q } }
      (s.setTile n { s.tile n with mode := .running }).finLoad n rd fp width signed (q.reply.getD 0)
    | _, _ => s)

/-- RAS_Q_POP: a write of v to RAS_Q_POP of block k (die, or 8 for the hub). -/
def execRasQPop (m : Master) (k : BitVec 4) (v : Word) (s : State) : Outcome :=
  .next (if 8 < k.toNat then s else s.rasWrite m k.toNat 0x30 v)
/-- RAS_INJECT: a write of v to RAS_INJECT of block k. -/
def execRasInject (m : Master) (k : BitVec 4) (v : Word) (s : State) : Outcome :=
  .next (if 8 < k.toNat then s else s.rasWrite m k.toNat 0x50 v)
/-- LOST_PAGE_REMOVE: a write of 1 to V of lost-page entry e of die d. -/
def execLostPageRemove (m : Master) (d : BitVec 3) (e : BitVec 4) (s : State) : Outcome :=
  .next (s.rasWrite m d.toNat (0x200 + 8 * e.toNat) (RAS_LOSTPG_V.put 0 1))

-- log 96: DESIGN CHOICE, safe.
/-- The records that R377 wants in the flash. -/
def State.flashWanted (s : State) : List FlashRec :=
  (s.ras.retired.filter fun r => r.kind ≠ 6).map .retired ++
  (s.store.rows.filter fun q => q.2.repaired && !q.2.hard).map (fun q => .repair q.1) ++
  s.placement.place.map (fun q => .tile q.1 q.2) ++
  (s.placement.setAside.filter fun q => !s.fuses.setAside.contains q.1).map fun q => .aside q.1 q.2

-- log 96: DESIGN CHOICE, safe.
/-- RAS_FLASH_RECORD: the first record that the flash lacks is written (R377). A tile has one record, its latest. -/
def execRasFlashRecord (s : State) : Outcome :=
  .next (match s.flashWanted.find? fun r => !s.ras.flashRecs.contains r with
    | none => s
    | some r =>
      let old := s.ras.flashRecs.filter fun q => match q, r with | .tile t _, .tile u _ => t != u | _, _ => true
      { s with ras := { s.ras with flashRecs := old ++ [r] } })

end Sys2Proof.Machine
end

