-- ==== Sys2Proof/Machine/Boot.lean ====
section
/-!
DEFINITION. Power-up, trips, reset kinds and boot stages (R383 to R386, R399, R400, R428 to R439, R475), and the reach of
a data-plane reset (R441, Table 18.5).
-/
namespace Sys2Proof.Machine

def State.boots (s : State) (f : Boot → Boot) : State := { s with boot := f s.boot }
def State.bootStage (s : State) : Nat := s.fld DEV_STATUS DEV_STATUS_STAGE

/-! ### What resets keep (Table 18.1) -/

/-- The bank of a row key, as a key of Store.sparesUsed. -/
def bankKey (row : Nat) : Nat := row % 64 * 4096 + row / 64 % 4096

/-- R475: the initial placement of die d: its logical tiles in the lowest slots not set aside, as far as they reach. -/
def State.placeDie (s : State) (d : Nat) : State :=
  let slots := (List.range 34).filter fun k => !s.fuses.setAside.contains (34 * d + k)
  (List.range 32).foldl (fun s i =>
    let p := s.placement
    match slots[i]? with
    | some k => { s with placement := { p with place := SMap.set homeSlot p.place (32 * d + i) (34 * d + k) } }
    | none => { s with placement := { p with unhosted := p.unhosted ++ [32 * d + i] } }) s

-- log 115: DEDUCED, unsafe.
/-- The initial placement of power-on and module reset (R475), which goes before the records of R377. -/
def State.placeAll (s : State) : State :=
  let s := { s with placement := { Placement.init with setAside := s.fuses.setAside.map fun p => (p, 2) } }
  (List.range 8).foldl State.placeDie s

-- log 116: DEDUCED, unsafe.
/-- The state of power-on or module reset, with what both keep: fuses, the boot flash, PWR_TRIP, hard row repairs, how often
a memory failed to train, the patina history, pins, the TAP. Memory contents become u (log 4). -/
def State.wiped (s : State) : State :=
  let rows := (s.store.rows.filter fun q => q.2.hard).map fun q => (q.1, { q.2 with corrected := [] })
  let used := rows.foldl (fun t q => SMap.set noNat t (bankKey q.1) (SMap.get noNat t (bankKey q.1) + 1)) []
  let info := s.store.memInfo.foldl (fun t q => SMap.set noMemInfo t q.1 { MemInfo.init with fails := q.2.fails }) []
  let store := { Store.init with rows := rows, sparesUsed := used, memInfo := info }
  let next := s.ras.flashLog.foldl (fun n q => max n (q.1 + 1)) 0
  let r := { State.reset with
    pending := s.pending, free := s.free, fuses := s.fuses, store := store, sec := { Sec.init with flash := s.sec.flash }
    ras := { Ras.init with nextSeq := next, flashLog := s.ras.flashLog, flashRecs := s.ras.flashRecs }
    cox := { Cox.init with lastReplan := 0 }, host := { HostSide.init with perst := s.host.perst }
    power := { Power.init with planOn := s.power.planOn, plan := s.power.plan, plans := s.power.plans, age := s.power.age
                               planTick := s.power.planTick }
    boot := { Boot.init with moduleId := s.boot.moduleId }, tap := { s.tap with testing := false }, sent := s.sent }
  let r := (r.wr SEC_FUSE (s.rd SEC_FUSE)).wr PWR_TRIP (s.rd PWR_TRIP)
  (if s.fuses.fast then r.setf DEV_IDENT DEV_IDENT_SUBSYS 0x24 else r).placeAll

/-! ### Stages (R433) -/

/-- The rails, in the order of Table 16.2, that must have reached power-good for a stage (Table 18.2). -/
def railsFor : Nat → Nat
  | 1 => 3
  | 2 => 4
  | 3 => 7
  | 4 => 5
  | 5 => 6
  | _ => 8

/-- Stage n begins; from stage 0x3 on the Cox serves what was latched (R436). -/
def State.enterStage (s : State) (n : Nat) : State :=
  let s := (s.setf DEV_STATUS DEV_STATUS_STAGE n).boots fun b => { b with stageDone := false, stageTick := s.stroke.ticks }
  let s := s.coxNote 6 n
  if n = 3 then (s.spdmResume false).coxFlush s.cox.queue.length else s

/-- The next stage begins when the one before has ended and its rails are good. -/
def State.bootAdvance (s : State) : State :=
  let n := s.bootStage
  if n < 6 ∧ s.boot.stageDone ∧ railsFor (n + 1) ≤ s.boot.rails ∧ !s.boot.held then s.enterStage (n + 1) else s

-- log 121: DEDUCED, unsafe.
/-- Stage n runs: at boot, or again within a DATA_RESET (R441). -/
def State.atStage (s : State) (n : Nat) : Bool :=
  match s.boot.dataReset with
  | some (_, _, k) => k == n
  | none => s.bootStage == n && !s.boot.stageDone && !s.boot.held

/-- Stage n has ended. -/
def State.stageEnd (s : State) (n : Nat) : State :=
  match s.boot.dataReset with
  | some (h, sc, _) => s.boots fun b => { b with dataReset := some (h, sc, n + 1) }
  | none => (s.boots fun b => { b with stageDone := true }).bootAdvance

/-! ### Power, trips, module reset -/

/-- Power-on begins at stage 0x0 with RESET_CAUSE 0x01 (R431); MODULE_ID is sampled (R448). -/
def State.powerOn (s : State) (strap : Nat) : State :=
  let s := { s.wiped with tap := Tap.init }
  (s.wr RESET_CAUSE 1).boots fun b => { b with qualified := true, stageDone := true, moduleId := strap }

-- log 48: DESIGN CHOICE, unsafe; log 114: DEDUCED, unsafe.
/-- INPUT_QUALIFIED (R383, R386): the input has been above 66 V for 10 ms: the rails rise. `strap` is the level of
MODULE_ID. -/
def execInputQualified (strap : BitVec 4) (s : State) : Outcome :=
  .next (if s.boot.qualified then s else s.powerOn strap.toNat)

/-- RAIL_POWER_GOOD (R385): the next rail of Table 16.2 reports power-good. -/
def execRailPowerGood (s : State) : Outcome :=
  .next (if !s.boot.qualified ∨ 8 ≤ s.boot.rails then s
    else (s.boots fun b => { b with rails := b.rails + 1 }).bootAdvance)

-- log 121: DEDUCED, unsafe.
/-- R386: every rail falls, no state is held, and PWR_TRIP records why. -/
def State.trip (s : State) (kind which : Nat) : State :=
  let rec_ := BitVec.ofNat 64 (2 ^ 63 + kind % 256 * 2 ^ 48 + which % 256 * 2 ^ 40 + s.now.toNat % 2 ^ 32)
  let held := s.boot.held
  let s := { s.wiped with tap := Tap.init }
  (s.wr PWR_TRIP rec_).boots fun b => { b with tripped := true, held := held }

/-- TRIP: a trip of a kind of PWR_TRIP.KIND but the die thermal one; `which` is the rail, from 1, where it names one. -/
def execTrip (kind which : BitVec 8) (s : State) : Outcome :=
  .next (if !s.boot.qualified ∨ kind = 0 ∨ kind = 3 ∨ 6 < kind.toNat then s else s.trip kind.toNat which.toNat)

-- log 121: DEDUCED, unsafe.
/-- DIE_TEMPERATURE_SAMPLE (R399, R400): the sensors of die d, or of the hub, are read. A tile's reading stands in PAT_MON. -/
def execDieTemperatureSample (d : BitVec 4) (temps : List (BitVec 8)) (s : State) : Outcome :=
  let n := d.toNat
  .next (match temps with
    | [] => s
    | t :: ts =>
      if 8 < n ∨ s.boot.rails < 4 then s else
      let hot := ts.foldl (fun (m : Int) c => max m c.toInt) t.toInt
      if 115 ≤ hot then s.trip 3 n
      else
        let s := if n = 8 then s else
          ((List.range (min 34 temps.length)).foldl (fun s i => s.setf (PAT_MON_W1 n i) PAT_MON_W1_TEMP (temps.getD i 0).toNat) s)
        s.dieTemp n hot)

/-- MODULE_RESET (R428, R429): MODULE_RESET_N has been low for 10 ms. -/
def execModuleReset (s : State) : Outcome :=
  .next (if s.boot.held then s
    else if s.boot.tripped then s.boots fun b => { b with held := true }
    else if !s.boot.qualified then s
    else
      let rails := s.boot.rails
      let ready := s.bit DEV_STATUS DEV_STATUS_READY
      let s := (s.wiped.wr RESET_CAUSE 2).boots fun b => { b with qualified := true, rails := rails, held := true }
      if ready then s.hostCause HOST_INT_CAUSE_READY else s)

-- log 48: DESIGN CHOICE, unsafe.
/-- MODULE_RESET_RELEASE (R428): MODULE_RESET_N rises: boot begins at stage 0x1, or power-on after a trip. Die test results
and pin tests of the TAP end (R460, R464). -/
def execModuleResetRelease (strap : BitVec 4) (s : State) : Outcome :=
  .next (if !s.boot.held then s
    else
      let pins := s.tap.pins ≠ 0
      let s := { s with tap := { s.tap with testing := false, pins := 0, ir := if pins then 0xFF else s.tap.ir } }
      if s.boot.tripped then s.powerOn strap.toNat
      else
        let s := (s.wr DBG_DIETEST 0).boots fun b => { b with held := false, moduleId := strap.toNat, stageDone := true }
        s.bootAdvance)

/-! ### Stages 0x1 and 0x2 -/

-- log 114: DEDUCED, unsafe.
/-- BOOT_ROM (R416): the image of the boot flash is verified and started, or recovery is entered (R424). -/
def execBootRom (s : State) : Outcome :=
  .next (if !s.atStage 1 then s
    else
      let c := s.verifyImage s.sec.flash false
      if c = 0 then ((s.runImage s.sec.flash false).setf SEC_STATUS SEC_STATUS_BOOT_CAUSE 0).stageEnd 1
      else (s.setf SEC_STATUS SEC_STATUS_BOOT_CAUSE c).enterRecovery)

-- log 117: DEDUCED, unsafe.
/-- COX_INIT (R433): the Cox reads its records: memories retired for good are withheld from training (R222), and a valid
PWR_TRIP is copied into the error log (R386). -/
def execCoxInit (s : State) : Outcome :=
  .next (if !s.atStage 2 then s
    else
      let s := s.ras.flashRecs.foldl (fun s q => match q with
        | .retired r => if r.kind = 3 ∨ r.kind = 4 then s.setMemInfo r.unit { s.memInfo r.unit with retired := true } else s
        | _ => s) s
      let t := s.rd PWR_TRIP
      let s := if PWR_TRIP_V.get t = 1 then
          s.logError { stroke := PWR_TRIP_STROKE.get t, tick := s.stroke.ticks % 2 ^ 32, source := 0, sev := 5, die := 8
                       unit := PWR_TRIP_WHICH.get t, detail := PWR_TRIP_KIND.get t, count := 1, addr := 0 }
        else s
      s.stageEnd 2)

/-- COX_INIT_TIMEOUT (Table 18.4): stage 0x2 has lasted 1,000 ticks. -/
def execCoxInitTimeout (s : State) : Outcome :=
  .next (if s.bootStage = 2 ∧ s.atStage 2 ∧ s.boot.stageTick + 1000 ≤ s.stroke.ticks then s.enterRecovery else s)

/-! ### Stages 0x3 and 0x4 -/

/-- RIGGER_TRAINING (R263, R435): the inner links train, then the ring links. `bad` lists the failing lanes, and spare lanes, of each
module of port p of block k at place 8k + p. -/
def execRiggerTraining (bad : List (List (Nat × Nat))) (s : State) : Outcome :=
  .next (if !s.atStage 3 then s
    else
      let train (s : State) (k p : Nat) : State := if s.bit (VKN_PCTRL k p) VKN_PCTRL_EN then s.trainPort k p (bad.getD (8 * k + p) []) else s
      let s := (List.range 8).foldl (fun s d => (train s d 2) |> fun s => train s 8 d) s
      let s := (List.range 8).foldl (fun s d => (train s d 0) |> fun s => train s d 1) s
      s.routeUp.stageEnd 3)

/-- Spare rows left in the bank of memory m that has the fewest (HBM_REPAIR.SPARE_MIN). -/
def State.spareMin (s : State) (m : Nat) : Nat :=
  (List.range (if m < 16 then 3072 else 32)).foldl (fun n b => min n (Config.spareRows m b - s.sparesUsed m b)) 65535

-- log 116: DEDUCED, unsafe.
/-- R222: the failed lanes of each channel of memory m are no more than the channel can repair: the redundant lanes of an HBM4
channel, one lane of an LPDDR6 channel. -/
def lanesRepair (m : Nat) (chans : List Nat) : Bool := chans.all (· ≤ if m < 16 then Config.redundantLanes else 1)

/-- A memory changes its thermal state at training: reported as any other change (R233). -/
def State.trainedTo (s : State) (m t : Nat) : State :=
  if s.fld (HBM_STATE m) HBM_STATE_TSTATE = t then s else s.setThermal m t

-- log 116: DEDUCED, unsafe.
/-- R222, R471: memory m trains with `lanes` lanes repaired, or fails. A memory that is retired, OFFLINE or out of reach does
not train. -/
def State.trainMem (s : State) (m : Nat) (ok : Bool) (lanes : Nat) : State :=
  let i := s.memInfo m
  let st := s.fld (HBM_STATE m) HBM_STATE_TSTATE
  if i.retired ∨ st = 3 ∨ !s.reach 8 (memDie m) then s
  else if ok then
    let s := (s.trainedTo m 0).setf (HBM_STATE m) HBM_STATE_LANES (min 7 lanes)
    let s := s.setf (HBM_REPAIR m) HBM_REPAIR_SPARE_MIN (s.spareMin m)
    let s := s.setMemInfo m { i with trained := true, fails := 0, lastRetrain := s.stroke.ticks }
    if i.trained then s else s.setf (HBM_STATE m) HBM_STATE_SWEEP 1
  else
    let s := (s.trainedTo m 4).setMemInfo m { i with fails := i.fails + 1, retired := decide (2 ≤ i.fails) }
    let s := (s.rasEvent (memDie m) 0x10 4 m 0 0).showDegraded
    if 2 ≤ i.fails then s.retireMem m (if m < 16 then 3 else 4) 0x10 0 else s

/-- R441 step 6: every codeword of HBM and of the bulk tier is written as zero. -/
def State.zeroMem (s : State) : State :=
  let s := s.clearMem 0 0x028000000000
  let s := { s with store := { s.store with codewords := [] } }
  (List.range 64).foldl (fun s m => s.setf (HBM_STATE m) HBM_STATE_SWEEP 0) s

/-- MEMORY_TRAINING: the failed lanes of each channel of each memory, at its number. -/
def execMemoryTraining (lanes : List (List Nat)) (s : State) : Outcome :=
  .next (if !s.atStage 4 then s
    else
      let s := (List.range 64).foldl (fun s m =>
        let chans := lanes.getD m []
        s.trainMem m (lanesRepair m chans) chans.sum) s
      let s := match s.boot.dataReset with | some (_, 2, _) => s.zeroMem | _ => s
      s.stageEnd 4)

/-! ### Stages 0x5 and 0x6 -/

/-- The die of a retire-list entry (UNIT of Table 15.3). -/
def RetireRec.die (r : RetireRec) : Nat :=
  if r.kind < 5 then memDie r.unit else if r.kind = 5 then r.unit / 16 else if r.kind = 6 then r.unit / 34 else if r.kind = 7 then r.unit / 32 else r.unit

/-- R377: a flash record applies again: retirements, way disables, pending hard repairs. -/
def State.applyRec (s : State) : FlashRec → State
  | .retired r =>
    let s := if s.ras.retired.contains r then s
      else if 8192 ≤ s.ras.retired.length then 
        (({ s with ras := { s.ras with unlisted := s.ras.unlisted ++ [r] } }).rasEvent r.die r.cause 4 r.unit 0 r.addr).showDegraded
      else { s with ras := { s.ras with retired := s.ras.retired ++ [r] } }
    if r.kind = 5 then
      let d := r.unit / 16 % 8
      s.setf (LLS_WAYS d) LLS_WAYS_DIS (s.fld (LLS_WAYS d) LLS_WAYS_DIS ||| 2 ^ (r.unit % 16))
    else s
  | .repair k =>
    if (s.row k).repaired then s
    else
      let m := k % 64
      let s := s.setRow k { corrected := [], repaired := true, hard := false }
      let used := SMap.set noNat s.store.sparesUsed (bankKey k) (SMap.get noNat s.store.sparesUsed (bankKey k) + 1)
      let s := { s with store := { s.store with sparesUsed := used } }
      s.setf (HBM_REPAIR m) HBM_REPAIR_PENDING (s.fld (HBM_REPAIR m) HBM_REPAIR_PENDING + 1)
  | _ => s

/-- R202: the slice of die d is invalidated and enabled. -/
def State.llsUp (s : State) (d : Nat) : State :=
  if !s.reach 8 d then s
  else
    let s := { s with store := { s.store with lines := s.store.lines.filter fun q => q.1 / 1048576 ≠ d } }
    (s.setf (LLS_STATUS d) LLS_STATUS_TAGS_VALID 1).setf (LLS_CTRL d) LLS_CTRL_EN 1

/-- BOOT_RESTORE (R433): the records of R377 are applied, and every slice is enabled. -/
def execBootRestore (s : State) : Outcome :=
  .next (if !s.atStage 5 then s
    else
      let s := s.ras.flashRecs.foldl State.applyRec s
      ((List.range 8).foldl State.llsUp s).stageEnd 5)

/-- A logical tile whose physical tile is set aside takes the lowest free spare of its die, or is not hosted (Table 18.4). -/
def State.rehost (s : State) (t : Nat) : State :=
  let p := s.placement
  if p.unhosted.contains t || !p.setAside.any (·.1 == s.physOf t) then s
  else match s.sparesOf (t / 32) with
    | k :: _ => { s with placement := { p with place := SMap.set homeSlot p.place t (34 * (t / 32) + k) } }
    | [] => { s with placement := { p with unhosted := p.unhosted ++ [t] } }

/-- The tile substitutions of the flash are applied to the initial placement (R377). -/
def State.placeRecs (s : State) : State :=
  (List.range 256).foldl State.rehost <| s.ras.flashRecs.foldl (fun s q =>
    let p := s.placement
    match q with
    | .tile t k => { s with placement := { p with place := SMap.set homeSlot p.place t k } }
    | .aside k role => { s with placement := { p with setAside := p.setAside ++ [(k, role)] } }
    | _ => s) s

/-- A register address lies in the TIL_ block of some tile. -/
def inTil (a : Nat) : Bool := dieBase 0 ≤ a && a < hubBase && (a - dieBase 0) % 0x02000000 < 0x200000

/-- R439: every tile is in its start state, its store zero, its buckles at 0 without waiters. -/
def State.tilesToStart (s : State) : State :=
  let s := s.clearMem 0x031000000000 0x031080000000
  let s := s.clearBad 0x031000000000 0x80000000
  { s with tiles := [], mmio := s.mmio.filter (fun q => !inTil q.1), links := { Links.init with notes := s.links.notes }
           store := { s.store with outStores := [] } }

-- log 118: DEDUCED, unsafe.
/-- R437: the end of stage 0x6: READY, or stage 0xF when a die cannot be reached or a slice is not enabled. -/
def State.ready (s : State) : State :=
  let ok := (List.range 8).all fun d => s.reach 8 d && s.bit (LLS_STATUS d) LLS_STATUS_TAGS_VALID && s.bit (LLS_CTRL d) LLS_CTRL_EN
  let s := s.showDegraded
  if ok then ((s.enterStage 7).setf DEV_STATUS DEV_STATUS_READY 1).hostCause HOST_INT_CAUSE_READY
  else s.enterStage 0xF

/-- BOOT_TILES (R439): the substitutions are applied, but within a DATA_RESET, and tiles are set to their start state. -/
def execBootTiles (s : State) : Outcome :=
  .next (if !s.atStage 6 then s
    else
      let s := if s.boot.dataReset.isNone then s.placeRecs else s
      let s := (List.range 8).foldl State.trmShow s.tilesToStart
      let s := s.ready
      match s.boot.dataReset with
      | some (h, sc, _) => s.boots fun b => { b with dataReset := some (h, sc, 7) }
      | none => s.boots fun b => { b with stageDone := true })

/-! ### The data plane stops (R441 steps 2 to 5) -/

-- log 120: DEDUCED, unsafe.
/-- A register that DATA_RESET returns to its reset value: the TIL_, LLS_, CXS_, NWT_ and CRW_ blocks, the MIR_ block but
for what heartbeats need (the pair state, MIR_HEARD and the pair ports), and the BAR2 windows. -/
def planeReg (a : Nat) : Bool :=
  if hubBase ≤ a ∧ a < bar0Base then
    let o := a - hubBase
    o / 0x100000 == 4 || (o / 0x100000 == 5 && o % 0x100000 != 8 && o % 0x100000 != 0x18 && !(0x1000 ≤ o % 0x100000 && o % 0x100000 < 0x1200)) ||
      (o / 0x100000 == 2 && 0x1000 ≤ o % 0x100000)
  else
    inTil a || (dieBase 0 ≤ a && a < hubBase && [2, 5, 9].contains ((a - dieBase 0) % 0x02000000 / 0x100000))

/-- A drain of the data plane. -/
def Drainer.plane : Drainer → Bool
  | .watch _ => true
  | .mover _ => true
  | .inbox _ => true
  | .store _ => true
  | .streamer _ => true
  | .context _ _ => true
  | .crews => true
  | .mirror => true
  | _ => false

/-- R441 step 3: every dirty line of die d is written back; its scratch contents are discarded. -/
def State.flushDie (s : State) (d : Nat) : State :=
  let s := (s.keysOf d fun _ l => l.valid && l.dirty).foldl (fun s k => s.flushLine d k) s
  let a := 0x030000000000 + d * 0x8000000
  (s.clearMem a (a + 0x8000000)).clearBad a 0x8000000

/-- The catch events that R441 step 4 frees, and the groups it returns to owner 0xF. -/
def State.freeEvents (s : State) : State :=
  let s := (List.range 512).foldl (fun s i =>
    if s.evtState i ≠ 0 ∧ [1, 2, 4, 5, 7, 8].contains (s.evtKind i) then s.coxFree i else s) s
  let s := s.wr STK_GRP_OWNER (s.rd STK_GRP_OWNER &&& 0xFFFF ||| 0xFFFFFFFFFFFF0000)
  s.strk fun k => { k with inFlight := k.inFlight.filter (fun e => e.kind = 3 ∨ e.kind = 6)
                           armedNow := k.armedNow.filter fun i => s.evtState i = 1 }

-- log 120: DEDUCED, unsafe.
/-- R441: live operations but the DATA_RESET end ABORTED; every object of R283 is released. -/
def State.freeObjects (s : State) : State :=
  let s := (s.cox.lops.filter fun l => l.live && l.cmd != 0xB0).foldl (fun s l => s.lopEnd l.handle 5 0x0A 0 []) s
  let crewCtx := s.fabric.crews.flatMap fun q => q.2.members.filterMap (·.ctx)
  let ctxs := s.fabric.ctxs.filter fun q => (!crewCtx.contains q.1 && q.2.forCrew.isNone) || s.mirror.hbCtx == some q.1
  let m := s.mirror
  let mirror := { Mirror.init with link := m.link, partnerP := m.partnerP, partnerPeriod := m.partnerPeriod
                                   partnerActv := m.partnerActv, partnerUp := m.partnerUp, hbCtx := m.hbCtx
                                   lost := m.lost, serial := m.serial, actv := m.actv, portFail := m.portFail }
  { s with cox := { s.cox with rings := [], owners := [] }, host := { s.host with bar4 := [] }, mirror := mirror
           fabric := { s.fabric with ctxs := ctxs, crews := [], ops := [], early := [], waits := [] } }

-- log 119: DESIGN CHOICE, safe.
/-- Steps 2 to 5 of R441. -/
def State.stopPlane (s : State) : State :=
  let s := (List.range 8).foldl State.flushDie s
  let s := s.freeEvents.freeObjects.tilesToStart
  let st := s.store
  let store := { st with lines := [], trees := [], burn := [], parHist := [], cxs := [], held := [], restores := [] }
  { s with store := store, mmio := s.mmio.filter (fun q => !planeReg q.1), drains := s.drains.filter (fun d => !d.who.plane)
           watch := [], vekin := { s.vekin with rsp := [], old := [] } }

-- log 119: DESIGN CHOICE, safe.
/-- At a catch: a DATA_RESET that waits for it stops the data plane, and goes on with training (SCOPE 1 or 2) or stage 0x5. -/
def State.resetCatch (s : State) : State :=
  match s.boot.dataReset with
  | some (h, sc, 0) => s.stopPlane.boots fun b => { b with dataReset := some (h, sc, if sc = 0 then 5 else 3) }
  | _ => s

end Sys2Proof.Machine
end

