-- ==== Sys2Proof/Machine/Catch.lean ====
section
/-!
DEFINITION. What time brings: catches (R22 to R39), catch events (R45 to R51, R474), management ticks (R40), and the ends of
drains (R11).
-/
namespace Sys2Proof.Machine

/-! ### Drains (R11) -/

/-- The drain of w ends if nothing of its work is left. -/
def State.settle (s : State) : Drainer → State
  | .events => s.evtSettle
  | .watch d => s.watchSettle d
  | .mover t => s.moverSettle t
  | .inbox t => s.inboxSettle t
  | .store d => s.llsSettle d
  | .memory _ => s
  | .streamer d => s.cxsSettle d
  | .context d _ => s.cxsSettle d
  | .rigger k p => s.portDrainEnd k p
  | .fabric p => s.fabSettle p
  | .pairPort p => s.pairSettle p
  | .crews => s.crwSettle
  | .mirror => s.mirSettle
  | .cap => s.capSettle
  | .placement d =>
    if s.placement.moves.any (·.1 == d) then s
    else s.endDrain (.placement d) (TRM_CTRL d) TRM_CTRL_PLACE_EN (TRM_STATUS d) TRM_STATUS_ACTIVE

/-- DRAIN_END: every drain whose work is done ends. -/
def execDrainEnd (s : State) : Outcome := .next (s.drains.foldl (fun s d => s.settle d.who) s)

-- log 165: DEDUCED, unsafe.
/-- R203: what a request does meets a write that waits at the home of die d, or a read there that would go on without the
restores of the die: f answers whether the request waits. -/
def State.waitsAt (s : State) (d : Nat) (f : State → State × Bool) : Bool :=
  let free := { s with store := { s.store with held := [] } }
  let read := { s with store := { s.store with restores := s.store.restores.filter fun q => homeDie (4096 * q.granule) != d } }
  (f free).1.store.held.any (fun h => homeDie h.addr == d) || ((f s).2 && !(f read).2)

-- log 165: DEDUCED, unsafe.
/-- R203: at the limit the requests still unserved at the home of die d end: data-mover descriptors, commands of the streamers
and operations of the crew engine with ABORTED_DISABLE; posted writes without a completion are dropped; loads, and reads of
the host, meet the failed restore. -/
def State.llsAbort (s : State) (d : Nat) : State :=
  let here (h : HeldWrite) : Bool := homeDie h.addr == d
  let units (t : Nat) (q : DmSlot) (s : State) : State × Bool :=
    let r := s.dmUnit t q.entry q.next (s.hostData t q)
    (r.1, r.2 == .wait)
  let stuck := s.tiles.flatMap fun x => (x.2.dmSlots.filter fun q =>
    !q.gated && !q.closing && dmOp q.entry.words != 5 && s.waitsAt d (units x.1 q)).map fun q => (x.1, q)
  let s := stuck.foldl (fun s p => s.dmEnd p.1 p.2 3 0 0 p.2.next 0) s
  let root := (s.store.held.filter fun h => here h && h.cls == .dm).map (·.who)
  let s := root.foldl (fun s w => match s.slot (w / 2 ^ 32) (w % 2 ^ 32) with
    | some q => s.dmEnd (w / 2 ^ 32) q 3 0 0 q.next 0
    | none => s) s
  let s := (List.range 8).foldl (fun s e =>
    let pages (k : Nat) (c : CxsCmd) (s : State) : State × Bool :=
      let r := s.cxsRun e k c (c.count - c.done)
      (r.1, r.2.2.isNone)
    let ends := (s.cxsQueue e).zipIdx.filter fun p => p.1.running && p.1.ending.isNone && s.waitsAt d (pages p.2 p.1)
    ends.foldr (fun p s => s.cxsFinish e p.2 p.1 3) s) s
  let s := s.crewAbort d
  let s := if s.store.held.any fun h => here h && h.cls == .host then s.hostSkip else s
  let mine (o : OutStore) : Bool := !o.ctl && s.store.held.any fun h =>
    here h && h.cls == .scalar && h.who == o.tile && o.addr < h.addr + h.len && h.addr < o.addr + o.width
  let s := { s with store := { s.store with outStores := s.store.outStores.filter fun o => !mine o
                                            held := s.store.held.filter fun h => !here h } }
  ((s.store.restores.filter fun q => homeDie (4096 * q.granule) == d).map (·.granule)).foldl (fun s g => s.restoreFail g) s

/-- LLS_DRAIN_LIMIT (R203): the drain of 1,024 strokes expires: unserved requests end, and dirty lines still unwritten are
discarded and logged. -/
def execLlsDrainLimit (d : BitVec 3) (s : State) : Outcome :=
  let n := d.toNat
  .next (if s.drainExpired (.store n) 1024 then (((s.drainLines n).llsAbort n).dropDirty n).llsSettle n else s)

/-! ### Catch events -/

/-- The due time of entry i has passed, and it was not armed in this stroke (R47). -/
def State.evtLate (s : State) (i : Nat) : Bool := after s.now (s.evtDue i) && !s.stroke.armedNow.contains i

-- log 148: DEDUCED, unsafe.
/-- The phase at which entry i, which is ARMED, acts in this stroke from its present phase on: phase 0 for a late entry. -/
def State.evtTurn (s : State) (i : Nat) : Option Nat :=
  if s.evtState i ≠ 1 ∨ (s.easy ∧ evtHeld (s.evtKind i)) then none
  else if s.evtDue i = s.now ∧ s.stkPhase ≤ s.evtPhase i then some (s.evtPhase i)
  else if s.stkPhase = 0 ∧ s.evtLate i then some 0
  else none

-- log 128: DEDUCED, unsafe.
/-- The entry that acts next, in the order of R46: by phase, then by index. -/
def State.evtNext (s : State) : Option (Nat × Nat) :=
  (List.range 512).foldl (fun b i =>
    match s.evtTurn i, b with
    | some p, some (q, j) => if p < q then some (p, i) else some (q, j)
    | some p, none => some (p, i)
    | none, b => b) none

/-- R45: the event of entry i, due at `due`, is dispatched to its target block. -/
def State.evtDispatch (s : State) (i : Nat) (due : Word) : State :=
  let t := s.evtTarget i
  let a := s.evtArg i
  match s.evtKind i with
  | 1 => s.crewPhase t a due
  | 2 => s.mirrorEvent a
  | 3 => s.powerStep a
  | 5 => s.telemSnap a
  | 6 => s.wakeUp
  | 0 => s
  | k => s.strk fun q => { q with inFlight := q.inFlight ++ [⟨i, k, t, a, s.now⟩] }

/-- R45, R48, R474: entry i counts its firing, and repeats or moves to FIRED; a late one advances past this stroke. -/
def State.evtCount (s : State) (i : Nat) (late : Bool) : State :=
  let w := STK_EVT_W3 i
  let s := s.stick w STK_EVT_W3_FIRE_CNT 1
  let rep := s.fld (STK_EVT_W2 i) STK_EVT_W2_REPEAT
  let due := s.rd (STK_EVT_DUE i)
  let steps := if late ∧ rep ≠ 0 then (s.now - due).toNat / rep + 1 else 1
  let s := if late then ((s.setf w STK_EVT_W3_LATE 1).stkRaise STK_STATUS_LATE).stick STK_CNT_LATE STK_CNT_LATE_COUNT steps else s
  if rep = 0 then s.setf w STK_EVT_W3_STATE 2 else s.wr (STK_EVT_DUE i) (due + BitVec.ofNat 64 (rep * steps))

-- log 7: DESIGN CHOICE, safe; log 128: DEDUCED, unsafe; log 129: DEDUCED, unsafe.
/-- EVENT_FIRE: entry i acts, when it is the next: it fires, is skipped (R474), or is aborted while EVT_EN is 0 (R50). -/
def execEventFire (i : BitVec 9) (s : State) : Outcome :=
  let n := i.toNat
  .next (match s.evtNext with
    | some (p, j) =>
      if j ≠ n then s
      else
        let late := s.evtDue n ≠ s.now
        let due := s.evtDue n
        let s := s.setf STK_PHASE STK_PHASE_PHASE p
        if !s.bit STK_CTRL STK_CTRL_EVT_EN then s.setf (STK_EVT_W3 n) STK_EVT_W3_STATE 3
        else if s.easy ∧ s.evtKind n = 4 then s.evtCount n false
        else (s.evtDispatch n due).evtCount n late
    | none => s)

-- log 29: DESIGN CHOICE, safe.
/-- EVT: the dispatched event of entry i reaches its target on a compute die and is accepted (R50, R223, R293). -/
def execEvt (i : BitVec 9) (s : State) : Outcome :=
  .next (match s.stroke.inFlight.find? (·.entry == i.toNat) with
    | none => s
    | some e =>
      if s.holds 8 e.die && !s.vekin.old.any (·.events.contains e) then s else
      let s := s.strk fun k => { k with inFlight := k.inFlight.erase e }
      let s :=
        if !s.reach 8 e.die then s.rasEvent 8 0x14 3 0 0 e.target
        else match e.kind with
          | 4 => s.openWindow e.target e.arg e.fired
          | 7 => s.bkAdd e.target e.arg
          | _ =>
            let s := match s.ring (e.arg / 8) with | some r => s.landReady r e.target | none => s.latchIrq e.target 4
            if s.evtState e.entry = 2 then s.coxFree e.entry else s
      s.evtSettle)

/-! ### The catch -/

-- log 125: DEDUCED, unsafe; log 126: DEDUCED, unsafe.
/-- R23, R28, R49, R472: the number of the next catch. -/
def State.nextNumber (s : State) : State :=
  let n0 := s.now + 1
  let load0 : Bool := s.src == 0 && s.bit STK_NUM_LOAD STK_NUM_LOAD_PEND && n0.toNat % 65536 == 0
  let n := match s.stroke.loadNext with
    | some v => v
    | none => if load0 then BitVec.ofNat 64 (s.fld STK_NUM_LOAD STK_NUM_LOAD_NUM_HI * 65536) else n0
  let s := if load0 ∨ s.stroke.loadNext.isSome then s.setf STK_NUM_LOAD STK_NUM_LOAD_PEND 0 else s
  let s := if before n n0 then s.stkRaise STK_STATUS_NUM_JUMP else s
  let period := s.fld STK_PERIOD STK_PERIOD_PERIOD_NS
  let s := s.strk fun k => { k with period := period, loadNext := none, edgeCatch := if k.edgeCatch = some n0 then some n else k.edgeCatch, armedNow := [] }
  (s.wr STK_NOW n).wr STK_PHASE (BitVec.ofNat 64 (n.toNat % 2 ^ 32 * 1024))

/-- What the hub's power and the dies' trim blocks do at a catch (R388, R389, R394, R399, R406), the stroke that ended having
been measured. -/
def State.powerCatch (s : State) (vin iin pin : BitVec 16) : State :=
  let s := s.wr PWR_MEAS (BitVec.ofNat 64 (vin.toNat * 2 ^ 48 + iin.toNat * 2 ^ 32 + pin.toNat * 2 ^ 16))
  let low := if 6200 ≤ vin.toNat ∧ vin.toNat < 6600 then 1 else 0
  let s := (s.setf PWR_STATUS PWR_STATUS_IN_LOW low).capCatch
  if s.easy then s
  else
    let s := (List.range 8).foldl (fun s d => (s.fthmCatch d).ceilDie d) s.planCatch
    (List.range 8).foldl (fun s d => s.slowCatch d) s

-- log 7: DESIGN CHOICE, safe; log 31: DESIGN CHOICE, safe; log 128: DEDUCED, unsafe; log 131: DEDUCED, unsafe; log 147: DESIGN CHOICE, safe.
/-- CATCH (R22, R23): while the stroke PLL runs, the stroke number advances; vin, iin and pin are the input's voltage, current and power over the stroke that
ended (PWR_MEAS). A catch waits until the entries that act in this stroke have acted. -/
def execCatch (vin iin pin : BitVec 16) (s : State) : Outcome :=
  .next (if !s.pllRuns ∨ s.evtNext.isSome then s
    else
      let s := s.nextNumber
      let s := if s.stkState = 3 then s.stick STK_HOLD_CNT STK_HOLD_CNT_COUNT 1 else s
      let s := if s.bit STK_CTRL STK_CTRL_OUT_EN then
          s.strk (fun k => { k with outPulse := some (if s.now.toNat % 65536 = 0 then 1000 else 200) }) else s
      let ds := s.drains.map fun d => { d with catches := d.catches + 1 }
      let s := { s with drains := ds }
      ((s.thermalCatch.crewCatch.ectCatch.ctxCatch.pairCatch.powerCatch vin iin pin).crewRetry.hostGo).resetCatch)

-- log 7: DESIGN CHOICE, safe; log 128: DEDUCED, unsafe; log 147: DESIGN CHOICE, safe.
/-- MANAGEMENT_TICK (R40): at phase p of this stroke; the coolant temperatures are sampled (R401). It waits for the entries
that act before phase p. -/
def execManagementTick (p : BitVec 10) (inlet outlet : BitVec 8) (s : State) : Outcome :=
  let first : Bool := match s.evtNext with | some (q, _) => decide (q < p.toNat) | none => false
  .next (if p.toNat < s.stkPhase ∨ first then s
    else
      let s := (s.setf STK_PHASE STK_PHASE_PHASE p.toNat).strk fun k => { k with ticks := k.ticks + 1 }
      let s := s.wr STK_TICK_LATCH (BitVec.ofNat 64 (s.stroke.ticks % 2 ^ 22 * 2 ^ 42 + s.now.toNat % 2 ^ 32 * 1024 + p.toNat))
      let s := s.pow fun q => { q with age := q.age + 1 }
      if s.bit DEV_STATUS DEV_STATUS_COX_RST then
        s.setCox fun c => { c with sessions := c.sessions.map fun x => { x with lastTick := x.lastTick + 1 }
                                   queue := c.queue.map fun r => { r with tick := r.tick + 1 } }
      else s.coolTick inlet outlet)

end Sys2Proof.Machine
end

