-- ==== Sys2Proof/Machine/Illegal.lean ====
section
/-!
DEFINITION. Which instruction words are ILLEGAL, and with which subcode (R65, R117, R124, R195; Tables 3.3 to 3.5, 4.7 to
4.10, 5.4, 5.6 and 7.11).
-/
namespace Sys2Proof.Machine

/-- bits [hi:lo] of an instruction word -/
def ib (w hi lo : Nat) : Nat := w / 2 ^ lo % 2 ^ (hi - lo + 1)

/-- SUB 1 when `rsv` (a nonzero RSV or growth field), else SUB 0 when `bad`. -/
def subOf (rsv bad : Bool) : Option Nat := if rsv then some 1 else if bad then some 0 else none

/-- A format code that the class does not permit: codes of R20 raise VERSION and are not ILLEGAL. -/
def clsBad (f : Nat) (cls : Nat → Bool) : Bool := f < 24 && !cls f

/-- Groups 0x8 and 0x9. -/
def illegal89 (w : Nat) : Option Nat :=
  let op := ib w 3 0
  let f := ib w 12 8
  let cls : Nat → Bool :=
    if op ≤ 1 ∨ op = 4 ∨ op = 5 then isFIQ else if op = 3 then isF else if op = 2 ∨ op = 12 ∨ op = 13 then clsFI else clsIQ
  subOf false (f < 24 && (ib w 7 4 == 8 || clsBad f cls))

/-- Group 0xA. -/
def illegalA (w : Nat) : Option Nat :=
  let op := ib w 3 0
  let f := ib w 12 8
  let x := ib w 17 13
  let cls : Nat → Bool := match op with
    | 0 => clsIQ | 1 => clsIQ | 2 => isQ | 3 => isQ | 4 => clsIQ | 5 => fun f => (nclipDst f).isSome
    | 6 => fun f => match x with | 0 => isFIQ f | 1 => isFIQ f | 2 => isF f | 3 => clsIQ f | 4 => isFIQ f | _ => false
    | 7 => fun f => isFIQ f && x < (if isF f then 3 else 6)
    | 8 => fun f => isFIQ f && 1 ≤ x && x ≤ 30
    | 9 => fun f => isFIQ f && 1 ≤ x && x ≤ 30
    | 10 => fun f => (isF f && isMX x) || (isMX f && x < 2) || (isFIQ f && isFIQ x && cvtPair f x)
    | 11 => isFIQ
    | _ => fun _ => false
  subOf false (op ≥ 12 || (f < 24 && !(op == 10 && 24 ≤ x) && (ib w 7 4 == 8 || clsBad f cls)))

/-- Group 0xB. -/
def illegalB (w : Nat) : Option Nat :=
  match ib w 27 24 with
  | 0 => subOf (ib w 9 0 != 0) false
  | 3 => subOf (ib w 11 0 != 0) false
  | 4 => subOf (ib w 19 0 != 0) false
  | 5 => subOf (ib w 14 0 != 0) false
  | 6 => subOf (ib w 4 0 != 0) (ib w 13 9 < 24 && (ib w 8 5 == 8 || clsBad (ib w 13 9) isFIQ))
  | 7 => subOf (ib w 8 0 != 0) (clsBad (ib w 13 9) isFIQ)
  | 8 => subOf (ib w 15 0 != 0) false
  | 9 => subOf (ib w 15 0 != 0) false
  | 10 =>
    let k := ib w 4 3
    let f := ib w 13 9
    subOf (ib w 2 0 != 0) (f < 24 && (k == 3 || ib w 8 5 == 8 || (if k = 2 then f != 0 else clsBad f isFormat)))
  | 11 =>
    let k := ib w 4 3
    let f := ib w 13 9
    subOf (ib w 2 0 != 0) (f < 24 && (k == 3 || k == 1 || ib w 8 5 == 8 || (if k = 2 then f != 0 else clsBad f isFormat)))
  | g =>
    if g ≤ 2 then
      let f := ib w 7 3
      let c := ib w 20 18
      subOf false (f < 24 && (c == 7 || clsBad f (fun f => isFIQ f && (c != 6 || isF f))))
    else some 0

/-- Group 0xE. -/
def illegalE (w : Nat) : Option Nat :=
  match ib w 27 24 with
  | 0 => none
  | 1 =>
    let u := ib w 19 0
    match ib w 23 20 with
    | 0 => subOf (4 ≤ u) false
    | 7 => subOf (8 ≤ u) false
    | 8 => subOf (8 ≤ u) false
    | k => if k < 7 then subOf (u != 0) false else some 0
  | 2 => subOf (ib w 17 12 != 0) false
  | 4 => subOf (ib w 12 0 != 0) false
  | 5 => subOf (ib w 18 0 != 0) false
  | 8 =>
    let bop := ib w 23 21
    subOf (ib w 4 0 != 0) (4 ≤ bop || (ib w 20 16 != 0 && bop != 2) || (ib w 5 5 == 1 && bop != 1))
  | 9 => none
  | 10 => none
  | 11 => subOf (ib w 12 0 != 0) (ib w 13 13 == 1 && ib w 18 14 != 0)
  | _ => some 0

/-- The subcode of ILLEGAL for an instruction word, if it is ILLEGAL whatever the tile's state. -/
def illegalSub (w : Nat) : Option Nat :=
  match ib w 31 28 with
  | 0 =>
    let f := ib w 5 0
    subOf false (ib w 12 6 != 0 || !(f ≤ 0xD || (0x10 ≤ f && f ≤ 0x16) || (0x18 ≤ f && f ≤ 0x1A)) || (0x18 ≤ f && ib w 17 13 != 0))
  | 1 =>
    let f := ib w 17 14
    subOf false (!(f ≤ 8 || f == 0xF) || (4 ≤ f && f ≤ 6 && ib w 13 6 != 0))
  | 2 => subOf false (8 < ib w 17 14)
  | 3 => let f := ib w 17 14; subOf false !(f ≤ 3 || f == 7 || f == 8)
  | 4 => subOf false (5 < ib w 27 25)
  | 5 => none
  | 6 => subOf (ib w 19 16 != 0) false
  | 7 =>
    let f := ib w 7 0
    subOf false (!(f ≤ 0xD || (0x10 ≤ f && f ≤ 0x15) || (0x20 ≤ f && f ≤ 0x23)) || (f < 0x20 && ib w 12 8 != 0) ||
      ((f == 4 || f == 0xD || (0x10 ≤ f && f ≤ 0x15)) && ib w 17 13 != 0))
  | 8 => illegal89 w
  | 9 => illegal89 w
  | 10 => illegalA w
  | 11 => illegalB w
  | 12 => subOf (ib w 9 0 != 0) (ib w 12 11 == 3)
  | 13 =>
    match ib w 27 24 with
    | 0 => subOf (ib w 0 0 != 0) (ib w 3 2 == 3)
    | 1 => subOf (ib w 21 0 != 0) (ib w 23 22 == 3)
    | 2 => subOf (ib w 16 0 != 0) (ib w 18 17 == 3)
    | 3 => subOf (ib w 16 0 != 0) (ib w 18 17 == 3)
    | _ => some 0
  | 14 => illegalE w
  | _ => some 2

/-- ILLEGAL_INSTRUCTION: the word at the pc is ILLEGAL; a word that is not leaves the state as it is (it is another
command of the table). -/
def execIllegalInstruction (t : BitVec 8) (word : BitVec 32) (s : State) : Outcome :=
  onTile t [] s fun n _ =>
    match illegalSub word.toNat with
    | some sub => s.exc n exIllegal sub (word.setWidth 64)
    | none => s

end Sys2Proof.Machine
end

