-- ==== Sys2Proof/Machine/Pair.lean ====
section
/-!
DEFINITION. The Cox commands of chapter 14: joining and leaving a pair (R349), regions (R350, R351) and the journal
(R364).
-/
namespace Sys2Proof.Machine

/-- n bytes from a lie in HBM, both multiples of 64 KiB. -/
def inHbm64k (a n : Nat) : Bool := a % 65536 == 0 && n % 65536 == 0 && a + n ≤ 0x00C000000000

/-- The checks of INTERVAL and PHASE, doubleword i of a payload. -/
def intervalChecks (w : Word) (off : Nat) : List (Bool × Nat × Nat) :=
  [(field w 31 10 != 0, 7, off), (field w 63 32 < 8 || 65535 < field w 63 32, 4, off)]

/-- The checks of Table 14.4. -/
def State.joinChecks (s : State) (r : CoxReq) : List (Bool × Nat × Nat) :=
  intervalChecks (r.words.getD 1 0) 8 ++
  [(decide (2 ^ 48 ≤ r.w 3), 7, 0x18), (!inHbm64k (r.w 3) 0, 4, 0x18),
   (!inHbm64k (r.w 3) (r.w 4) || 54400 * s.fld STK_PERIOD STK_PERIOD_PERIOD_NS < r.w 4, 4, 0x20),
   (decide (2 ^ 48 ≤ r.w 5), 7, 0x28), (!inHbm64k (r.w 5) 0, 4, 0x28), (!inHbm64k (r.w 5) (r.w 6), 4, 0x30),
   (decide (2 ^ 48 ≤ r.w 7), 7, 0x38), (!inHbm64k (r.w 7) 0, 4, 0x38), (!inHbm64k (r.w 7) (r.w 8), 4, 0x40),
   (field (r.words.getD 9 0) 55 16 != 0, 7, 0x48), (r.w 10 == 0 && r.w 11 == 0, 4, 0x50)]

/-- The heartbeat context of Table 14.4 (R326): the open one to FAB_ADDR and its UDP port, which the pair then shares, else a
free one. -/
def State.pairCtx (s : State) (ws : List Word) : Option Nat :=
  let w (k : Nat) : Nat := (ws.getD k 0).toNat
  match s.ctxTo (w 10 + w 11 * 2 ^ 64) (field (ws.getD 9 0) 15 0) with
  | some c => some c
  | none => s.freeCtx

-- log 90: DEDUCED, unsafe.
/-- PAIR_JOIN (R349): from UNPAIRED or SOLO, with no region in a journal mode. -/
def execPairJoin (s : State) : Outcome :=
  coxCmd 0x0080 2 false false (fun s r x =>
    checked s r 96 (s.joinChecks r)
      (if (s.pstate ≠ 0 ∧ s.pstate ≠ 5) ∨ (s.liveOf 0x80).isSome ∨ (s.liveOf 0x81).isSome ∨
          (List.range 256).any fun i => 2 ≤ s.regMode i then (s, Ans.err 2)
       else if s.freeEntry.isNone ∨ (s.pairCtx r.words).isNone then (s, Ans.err 0x0C)
       else s.lopNew r x (r.words.map BitVec.toNat))) s

-- log 85: DEDUCED, unsafe.
/-- PAIR_JOIN starts: the pair ports are enabled, the heartbeat context opens, HELLO leaves, and the catch event of the
checkpoints is armed. HELLO carries Table 14.4 and the stroke period. -/
def State.joinBegin (s : State) (l : Lop) : State :=
  match s.freeEntry, s.pairCtx (l.args.map (BitVec.ofNat 64)) with
  | some i, some c =>
    let w (k : Nat) : Word := BitVec.ofNat 64 (l.args.getD k 0)
    let s := match s.mirror.entry with | some j => s.coxFree j | none => s
    let x := s.ctx c
    let ctx : PeerCtx :=
      if x.state = 1 then { x with hb := true, hbLoss := if x.hb then x.hbLoss else 64 }
      else
        { PeerCtx.closed with state := 1, addr := some (l.args.getD 10 0 + l.args.getD 11 0 * 2 ^ 64), udp := field (w 9) 15 0
                              ports := field (w 9) 63 56, hb := true, hbLoss := 64, rto := 2, retry := 8, heard := s.now.toNat % 2 ^ 32 }
    let s := (s.setCtx c ctx).setPstate 1
    let s := s.mir fun m =>
      { m with p := l.args.map (BitVec.ofNat 64), handle := l.handle, helloSent := true, jseq := 0, hbCtx := some c, entry := some i }
    let s := [0, 1].foldl (fun s p =>
      s.writeEnable (.pairPort p) (MIR_PCTRL p) MIR_PCTRL_EN (MIR_PSTATUS p) MIR_PSTATUS_ACTIVE true) s
    let s := s.pairSend 2 (l.args ++ [s.fld STK_PERIOD STK_PERIOD_PERIOD_NS])
    (s.coxArm i (w 2) (field (w 1) 9 0) 2 0 1 (field (w 1) 63 32)).joinCheck
  | _, _ => s.lopFail l.handle 0x0C

/-- PAIR_LEAVE (R349). -/
def execPairLeave (s : State) : Outcome :=
  coxCmd 0x0081 2 false false (fun s r x =>
    checked s r 0 [] (if (s.liveOf 0x81).isSome then (s, Ans.err 2) else s.lopNew r x [])) s

-- log 90: DEDUCED, unsafe.
/-- PAIR_LEAVE starts, and ends at UNPAIRED; a PAIR_JOIN that is live ends with it. -/
def State.leavePair (s : State) (l : Lop) : State :=
  let s := match s.liveOf 0x80 with | some j => s.lopEnd j.handle 4 9 0 [] | none => s
  s.unpair.lopDone l.handle [0]

/-! ### Regions -/

/-- The range lies wholly in one die's HBM range or wholly in one die's bulk range (R351). -/
def inDieRange (a n : Nat) : Bool := (List.range 8).any fun d => rangeOfDie d a n

/-- Bytes of a region's map (R351). -/
def mapBytes (len : Nat) : Nat := (len / 4096 + 255) / 256 * 64

/-- Region r becomes free; the partner is told of a mirrored one. -/
def State.regionFree (s : State) (r : Nat) : State :=
  let was := s.regMode r
  let gs := s.granulesOf r
  let s := (((s.wr (MIR_REG_W0 r) 0).wr (MIR_REG_W1 r) 0).wr (MIR_REG_W2 r) 0).wr (MIR_REG_W3 r) 0
  let s := s.mir fun m => { m with cur := gs.foldl (fun t g => SMap.set noFlag t g false) m.cur }
  (if was = 1 then s.pairSend 6 [r, 0, 0, 0, 0] else s).disown 4 r

-- log 83: DEDUCED, unsafe.
/-- The checks of Table 14.5 and R351 on an entry for region r. -/
def State.regionChecks (s : State) (r : CoxReq) : List (Bool × Nat × Nat) :=
  let k := r.w 0
  let w (i : Nat) : Word := r.words.getD i 0
  let mode := MIR_REG_W0_MODE.get (w 1)
  let base := MIR_REG_W0_BASE.get (w 1)
  let len := MIR_REG_W1_LEN.get (w 2)
  let target := MIR_REG_W2_TARGET.get (w 3)
  let others := (List.range 256).any fun i => i != k && s.regMode i != 0 && meets base len (s.regBase i) (s.regLen i)
  let state : Bool := if mode = 1 then 1 ≤ s.pstate && s.pstate ≤ 4 else s.pstate == 0
  [(decide (256 ≤ k), 4, 0), (rsvBad (MIR_REG_W0 0) (w 1), 7, 8), (decide (5 ≤ mode), 4, 8), (rsvBad (MIR_REG_W1 0) (w 2), 7, 0x10),
   (rsvBad (MIR_REG_W2 0) (w 3), 7, 0x18), (rsvBad (MIR_REG_W3 0) (w 4), 7, 0x20)] ++
  if mode = 0 then []
  else [(!state || base % 65536 != 0 || others, 4, 8), (len == 0 || len % 65536 != 0 || !inDieRange base len, 4, 0x10),
    (target != 0 && (mode != 3 || MIR_REG_W3_CT.get (w 4) == 1), 4, 0x18)]

-- log 83: DEDUCED, unsafe; log 84: DEDUCED, unsafe.
/-- MIRROR_REGION (R350, R351): region number and entry. `refused`: the partner refuses the declaration. -/
def execMirrorRegion (refused : Bool) (s : State) : Outcome :=
  coxCmd 0x0082 1 false false (fun s r x =>
    checked s r 40 (s.regionChecks r)
      (let k := r.w 0
       let w (i : Nat) : Word := r.words.getD i 0
       let mode := MIR_REG_W0_MODE.get (w 1)
       let room := ((List.range 256).filter fun i => s.regMode i == 1).foldl (fun n i => n + mapBytes (s.regLen i)) (mapBytes (MIR_REG_W1_LEN.get (w 2)))
       if s.otherOwns 4 k x then (s, Ans.err 6)
       else if mode = 0 then (s.regionFree k, Ans.ok [])
       else if s.regMode k ≠ 0 then (s, Ans.err 2)
       else if mode = 1 ∧ (s.mirror.p.getD 8 0).toNat < room then (s, Ans.err 0x0C)
       else
         let s := if mode = 1 then s.pairSend 6 (r.words.map BitVec.toNat) else s
         if mode = 1 ∧ refused then (s, Ans.at 4 8)
         else
           let s := (((s.wr (MIR_REG_W0 k) (w 1)).wr (MIR_REG_W1 k) (w 2)).wr (MIR_REG_W2 k) (w 3)).wr (MIR_REG_W3 k) (w 4)
           let gs := s.granulesOf k
           let s := if mode = 1 ∧ 2 ≤ s.pstate then s.mir fun m => { m with cur := gs.foldl (fun t g => SMap.set noFlag t g true) m.cur } else s
           (s.own 4 k x, Ans.ok []))) s

-- log 82: DEDUCED, unsafe.
/-- JOURNAL_CFG: INTERVAL and PHASE as PAIR_JOIN carries them, FIRST, RING_BASE, RING_LEN. -/
def execJournalCfg (s : State) : Outcome :=
  coxCmd 0x0083 1 false false (fun s r _ =>
    let w1 := r.words.getD 0 0
    checked s r 32 (intervalChecks w1 0 ++ [(decide (2 ^ 48 ≤ r.w 2), 7, 0x10), (!inHbm64k (r.w 2) 0, 4, 0x10),
        (r.w 3 == 0 || !inHbm64k (r.w 2) (r.w 3), 4, 0x18)])
      (if s.pstate ≠ 0 then (s, Ans.err 2)
       else
         let s := match s.mirror.entry with | some j => s.coxFree j | none => s
         let s := s.mir fun m => { m with entry := none }
         match s.freeEntry with
         | none => (s, Ans.err 0x0C)
         | some i =>
           let s := (s.mir fun m => { m with ring := [r.words.getD 2 0, r.words.getD 3 0], jseq := 0, entry := some i }).wr MIR_JRNL 0
           (s.coxArm i (r.words.getD 1 0) (field w1 9 0) 2 0 1 (field w1 63 32), Ans.ok []))) s

end Sys2Proof.Machine
end

