-- ==== Sys2Proof/Machine/LongOps.lean ====
section
/-!
DEFINITION. Long operations (R286, R287): the commands that begin those of tiles, memories, slices and the data plane; how
they start, reach safe points and end; and RECLAIM (R283).
-/
namespace Sys2Proof.Machine

/-! ### Commands -/

/-- TILE_RESET: first tile, count, ZERO_STORE (R295). -/
def execTileReset (s : State) : Outcome :=
  coxCmd 0x0042 2 false false (fun s r x =>
    checked s r 24 [(tilesBad (r.w 0) (r.w 1), 4, 0), (2 ≤ r.w 2, 4, 16)]
      (match s.tilesStop (tilesOf (r.w 0) (r.w 1)) with
       | some a => (s, a)
       | none => s.lopNew r x [r.w 0, r.w 1, r.w 2])) s

/-- A page of the n bytes from a lies in memory m. -/
def touches (a n m : Nat) : Bool :=
  let base := if m < 16 then m * 0xC00000000 else 0x010000000000 + (m - 16) / 6 * 0x3000000000
  let lo := max a base
  (List.range (min 12 ((min (a + n) (memEnd m) - lo) / 65536))).any fun i => memOf (lo + 65536 * i) == m

/-- SCRUB: device address and length (R226). -/
def execScrub (s : State) : Outcome :=
  coxCmd 0x0060 2 false false (fun s r x =>
    let a := r.w 0
    let n := r.w 1
    let inside := a + n ≤ 0x00C000000000 || (0x010000000000 ≤ a && a + n ≤ 0x028000000000)
    checked s r 16 [(a % 65536 != 0, 4, 0), (n == 0 || n % 65536 != 0 || !inside, 4, 8)]
      (if s.easy then (s, Ans.err 2)
       else if (List.range 64).any fun m => s.memDown m && touches a n m then (s, Ans.err 0x0F)
       else s.lopNew r x [a, n, 0, 0])) s

/-- A BURNISH or LLS_WAY operation is live on die d. -/
def State.slot32Live (s : State) (d : Nat) : Bool :=
  s.cox.lops.any fun l => l.live && (l.cmd == 0x61 || l.cmd == 0x62) && l.args.getD 0 0 == d

-- log 137: DEDUCED, unsafe.
def State.slot32New (s : State) (r : CoxReq) (x : Session) (args : List Nat) : State × Ans :=
  if s.easy ∨ s.slot32Live (r.w 0) then (s, Ans.err 2)
  else if !s.reach 8 (r.w 0) then (s, Ans.err 0x0F)
  else s.lopNew r x args

/-- BURNISH: die, OP, ADDR, LEN. -/
def execBurnish (s : State) : Outcome :=
  coxCmd 0x0061 1 false false (fun s r x =>
    checked s r 32 [(8 ≤ r.w 0, 4, 0), (r.w 1 == 0 || 5 < r.w 1, 4, 8)] (s.slot32New r x [r.w 0, r.w 1, r.w 2, r.w 3])) s

/-- LLS_WAY: die, OP, WAY. -/
def execLlsWay (s : State) : Outcome :=
  coxCmd 0x0062 2 false false (fun s r x =>
    checked s r 24 [(8 ≤ r.w 0, 4, 0), (!([0x9, 0xA, 0xC, 0xD].contains (r.w 1)), 4, 8), (16 ≤ r.w 2, 4, 16)]
      (s.slot32New r x [r.w 0, r.w 1, r.w 2])) s

-- log 138: DEDUCED, unsafe.
/-- MEM_ONLINE: a memory (R235). -/
def execMemOnline (s : State) : Outcome :=
  coxCmd 0x0063 2 false false (fun s r x =>
    checked s r 8 [(64 ≤ r.w 0, 4, 0)]
      (if s.easy then (s, Ans.err 2)
       else if (s.memInfo (r.w 0)).retired ∨ !s.reach 8 (memDie (r.w 0)) then (s, Ans.err 0x0F)
       else s.lopNew r x [r.w 0])) s

-- log 119: DESIGN CHOICE, safe.
/-- DATA_RESET (R440), and the first step of R441. -/
def execDataReset (s : State) : Outcome :=
  coxCmd 0x00B0 2 false true (fun s r x =>
    checked s r 8 [(r.w 0 / 4 != 0, 7, 0), (r.w 0 % 4 == 3, 4, 0)]
      (if s.bootStage ≠ 7 ∧ s.bootStage ≠ 0xF then (s, Ans.err 0x0B)
       else if (1 ≤ s.pstate ∧ s.pstate ≤ 4) ∨ s.easy ∨ s.fwBusy then (s, Ans.err 2)
       else
         let l := s.lopNew r x [r.w 0]
         if l.2.status ≠ 1 then l
         else
           let ready := s.bit DEV_STATUS DEV_STATUS_READY
           let s := s.crewList.foldl (fun s k => s.withdrawSelf k) l.1
           let s := (s.setf DEV_STATUS DEV_STATUS_READY 0).enterStage 8
           let s := if ready then s.hostCause HOST_INT_CAUSE_READY else s
           (s.boots fun b => { b with dataReset := some (l.2.handle, r.w 0, 0) }, l.2))) s

/-! ### RECLAIM -/

/-- Crew k is released: a forming one is dropped, an active one is left after the withdrawal notice. -/
def State.crewRelease (s : State) (k : Nat) : State :=
  let c := s.crew k
  let s := if c.state = 1 then s.lopEnd c.handle 4 9 0 [] else s.withdrawSelf k
  let s := match c.leaving with | some h => s.lopDone h [s.now] | none => s
  s.crewFree k

-- log 140: DEDUCED, unsafe.
/-- The object of an owner entry is released. -/
def State.releaseObject (s : State) (o : Owner) : State :=
  match o.kind with
  | 1 => s.winFree o.index
  | 2 => (s.coxFree o.index).disown 2 o.index
  | 3 => s.crewRelease o.index
  | _ => s.regionFree o.index

-- log 140: DEDUCED, unsafe.
/-- RECLAIM: CLIENT_ID and origin; answers how many objects it released. A detached operation that its kind does not let
be cancelled runs on. -/
def execReclaim (s : State) : Outcome :=
  coxCmd 0x00B1 2 false true (fun s r _ =>
    checked s r 16 [(3 ≤ r.w 1, 4, 8)]
      (let mine (party : Nat) (client : Word) : Bool := party == r.w 1 && client == r.words.getD 0 0
       let rings := s.cox.rings.filter fun q => mine q.2.party q.2.client
       let os := s.cox.owners.filter fun o => mine o.party o.client
       let ops := s.cox.lops.filter fun l => l.live && l.detach && mine l.party l.client && s.cancels l
       let s := rings.foldl (fun s q => s.ringEnd q.1) s
       let s := os.foldl State.releaseObject s
       let s := ops.foldl (fun s l => match s.lop l.handle with | some l => if l.live then s.lopCancel l else s | none => s) s
       (s, Ans.ok [BitVec.ofNat 64 (rings.length + os.length + ops.length)]))) s

/-! ### Start -/

/-- A wait of tile t that TILE_RESET withdraws (R476). -/
def waitOf (t : Nat) : WaitWho → Bool
  | .tile u _ => u == t
  | .ring u => u == t
  | _ => false

-- log 139: DEDUCED, unsafe.
/-- R295: tile t halts; its waits are withdrawn, and its data mover drains. -/
def State.haltTile (s : State) (t : Nat) : State :=
  let s := s.setTile t { s.tile t with mode := .idle, kUnit := [], dUnit := [], kPause := .none, waits := 0 }
  let s := s.bkWithdraw (waitOf t)
  let k := s.links
  let asks (o : BkOp) : Bool := o.tile == t && (match o.kind with | .wait _ _ => true | .read => true | _ => false)
  let k := { k with ops := k.ops.filter (fun o => !asks o), done := k.done.filter (fun w => !waitOf t w)
                    reads := k.reads.filter (fun q => q.1 ≠ t), ctlReads := k.ctlReads.filter fun q => q.tile ≠ t }
  (({ s with links := k }).writeDmEn t false).moverSettle t

/-- A slot-32 command of die d is written for an operation. -/
def State.slot32 (s : State) (d op addr len way : Nat) : State :=
  let s := (s.put (LLS_BURN_ADDR d 32) (BitVec.ofNat 64 addr)).put (LLS_BURN_LEN d 32) (BitVec.ofNat 64 len)
  let s := s.setf (LLS_BURN_STATUS d 32) LLS_BURN_STATUS_DONE 0
  s.burnSubmit d 32 (LLS_BURN_CMD_WAY.put (LLS_BURN_CMD_OP.put 0 op) way)

/-- What an operation does when it starts, or goes on after a suspension. -/
def State.lopBegin (s : State) (l : Lop) : State :=
  let a (i : Nat) : Nat := l.args.getD i 0
  match l.cmd with
  | 0x42 => (tilesOf (a 0) (a 1)).foldl (fun s t => s.haltTile t) s
  | 0x60 => s.putLop { l with total := a 1 / 65536 }
  | 0x61 => s.slot32 (a 0) (a 1) (a 2) (a 3) 0
  | 0x62 => s.slot32 (a 0) (a 1) 0 0 (a 2)
  | 0x71 => s.formBegin (a 0)
  | 0x72 => s.leaveBegin (a 0) (a 1)
  | 0x80 => s.joinBegin l
  | 0x81 => s.leavePair l
  | 0x92 =>
    if a 1 ≠ 0 then s
    else
      let n := s.power.plans + 1
      (s.pow fun p => { p with plans := n }).putLop { l with args := [a 0, n], total := (planTiles (a 0)).length }
  | 0xA0 =>
    if l.progress ≠ 0 then s
    else
      let s := s.putLop { l with total := a 1 }
      let s := (s.setSec fun x => { x with stage := some (l.handle, a 0, a 1), staged := [] }).setf SEC_STATUS SEC_STATUS_STAGED 0
      if s.hostDown then (s.setSec fun x => { x with stage := none }).lopFail l.handle 9 else s
  | _ => s

-- log 137: DEDUCED, unsafe.
/-- The slice is ready for a slot-32 operation. -/
def State.mayBegin (s : State) (l : Lop) : Bool :=
  !(l.cmd == 0x61 || l.cmd == 0x62) || !s.bit (LLS_BURN_STATUS (l.args.getD 0 0) 32) LLS_BURN_STATUS_BUSY

/-- LONG_OPERATION_START (R287): a QUEUED operation enters RUNNING. -/
def execLongOperationStart (h : BitVec 32) (s : State) : Outcome :=
  .next (match s.lop h.toNat with
    | none => s
    | some l =>
      if l.state ≠ 0 ∨ s.coxIdle ∨ !s.mayBegin l then s
      else
        let l := { l with state := 1, startTick := if l.startTick = 0 then s.tick32 else l.startTick }
        (s.lopEnter l).lopBegin l)

/-! ### Safe points -/

-- log 136: DEDUCED, unsafe.
/-- SCRUB of one unit of 64 KiB: every codeword is patrolled. -/
def State.scrubUnit (s : State) (l : Lop) : State :=
  let a := l.args.getD 0 0 + 65536 * l.progress
  let m := memOf a
  let hit := s.store.codewords.filter fun q =>
    a / 64 ≤ q.1 && q.1 < a / 64 + 1024 && !s.memDown m && !s.unswept m (64 * q.1)
  let s0 := s
  let s := hit.foldl (fun s q => s.patrol m (64 * q.1)) s
  let count (k : Nat) := (hit.filter fun q => s0.codeword (64 * q.1) == k).length
  s.putLop { l with progress := l.progress + 1
                    args := [l.args.getD 0 0, l.args.getD 1 0, l.args.getD 2 0 + count 1, l.args.getD 3 0 + count 2] }

-- log 136: DEDUCED, unsafe.
/-- An operation works up to its next safe point. A re-plan does not run in Easy (R407). -/
def State.lopUnit (s : State) (l : Lop) : State :=
  match l.cmd with
  | 0x60 => if l.progress < l.total then s.scrubUnit l else s
  | 0x92 => if s.easy then s else s.planStep l
  | _ => s

/-- NEXT_SAFE_POINT (R287): a running operation reaches its next safe point, and enters SUSPENDED or ends CANCELLED where
that was asked. -/
def execNextSafePoint (h : BitVec 32) (s : State) : Outcome :=
  .next (match s.lop h.toNat with
    | none => s
    | some l =>
      if l.state ≠ 1 ∨ s.coxIdle then s
      else
        let s := s.lopUnit l
        match s.lop h.toNat with
        | none => s
        | some l =>
          if l.cancel && l.cmd != 0x61 && s.cancels l then s.lopCancelNow l
          else if l.suspend then s.lopEnter { l with state := 2, status := 8, suspend := false }
          else s)

/-! ### End -/

/-- A register of tile t that TILE_RESET returns to its reset value: TIL_DM_, TIL_MSG_, translation entries, TIL_ESC. -/
def tileReg (t a : Nat) : Bool :=
  tilBase t ≤ a && (let o := a - tilBase t; (0x20 ≤ o && o < 0x38) || (0x100 ≤ o && o < 0x300) || (0x4000 ≤ o && o < 0x8000))

-- log 139: DEDUCED, unsafe.
/-- R295: tile t is in its start state. The trace buffer keeps its entries. -/
def State.freshTile (s : State) (zero : Bool) (t : Nat) : State :=
  let x := s.tile t
  let s := (s.haltTile t).setTile t { Tile.start with trace := x.trace, traceStopped := true }
  let s := { s with mmio := s.mmio.filter (fun q => !tileReg t q.1), links := { s.links with partials := s.links.partials.filter (·.tile ≠ t) }
                    drains := s.drains.filter fun d => d.who ≠ .mover t ∧ d.who ≠ .inbox t }
  if zero then (s.clearMem (storeBase t) (storeBase t + 0x600000)).clearBad (storeBase t) 0x600000 else s

-- log 139: DEDUCED, unsafe.
/-- TILE_RESET ends once every data mover has drained. -/
def State.resetEnd (s : State) (l : Lop) : State :=
  let ts := tilesOf (l.args.getD 0 0) (l.args.getD 1 0)
  if ts.any fun t => (s.drain? (.mover t)).isSome then s
  else (ts.foldl (fun s t => s.freshTile (l.args.getD 2 0 == 1) t) s).lopDone l.handle [BitVec.ofNat 64 ts.length]

-- log 137: DEDUCED, unsafe.
/-- A slot-32 operation ends with the RESULT and LINES of its command. -/
def State.slot32End (s : State) (l : Lop) : State :=
  let w := s.rd (LLS_BURN_STATUS (l.args.getD 0 0) 32)
  if LLS_BURN_STATUS_BUSY.get w = 1 ∨ LLS_BURN_STATUS_DONE.get w = 0 then s
  else
    let res := LLS_BURN_STATUS_RESULT.get w
    let out := BitVec.ofNat 64 res :: if l.cmd = 0x61 then [BitVec.ofNat 64 (LLS_BURN_STATUS_LINES.get w)] else []
    if res = 0 then s.lopDone l.handle out
    else if res = 1 ∧ l.cancel then s.lopEnd l.handle 4 9 0 out
    else s.lopEnd l.handle 5 0x0D res out

-- log 138: DEDUCED, unsafe.
/-- R235: memory m returns from OFFLINE, is retired, or stays; `ok`: it retrains. -/
def State.onlineEnd (s : State) (l : Lop) (ok : Bool) : State :=
  let m := l.args.getD 0 0
  let st := s.fld (HBM_STATE m) HBM_STATE_TSTATE
  if st ≠ 3 then s.lopDone l.handle [BitVec.ofNat 64 st]
  else if s.bit (HBM_STATE m) HBM_STATE_OVERLIMIT then
    ((s.setMemInfo m { s.memInfo m with retired := true }).showDegraded.retireMem m (if m < 16 then 3 else 4) 0x10 0).lopFail l.handle 3
  else if !cool (BitVec.ofNat 8 (s.fld (HBM_STATE m) HBM_STATE_TEMP)).toInt (s.fld (HBM_THR m) HBM_THR_THROT) then s.lopFail l.handle 3
  else if ok then
    let s := s.setMemInfo m { s.memInfo m with offlineAt := none, lastRetrain := s.stroke.ticks }
    (s.setThermal m 0).lopDone l.handle [0]
  else ((s.setf (HBM_STATE m) HBM_STATE_TSTATE 0).trainMem m false 0).lopFail l.handle 4

/-- R422: every byte is staged, and the image is verified. -/
def State.stageEndOp (s : State) (l : Lop) : State :=
  if s.sec.staged.length < l.args.getD 1 0 then s
  else
    let c := s.verifyImage s.sec.staged true
    let s := s.setSec fun x => { x with stage := none }
    if c = 0 then (s.setf SEC_STATUS SEC_STATUS_STAGED 1).lopDone l.handle [0] else s.lopFail l.handle c

/-- R423: steps 1 and 2 end, then step 3 (`ok`: the flash reads back equal). Step 4 is COX_RESTART. -/
def State.activateEnd (s : State) (l : Lop) (ok : Bool) : State :=
  if l.progress = 0 then
    if l.cancel then s.lopCancelNow l
    else
      let c := s.verifyImage s.sec.staged true
      if c ≠ 0 then s.lopFail l.handle c else (s.mir fun m => { m with actv := true }).putLop { l with progress := 1 }
  else if l.progress = 1 then
    if ok then (s.setSec fun x => { x with flash := x.staged }).putLop { l with progress := 2 }
    else
      let n := s.free
      let s := { s with free := n + 1, sec := { s.sec with flash := Config.flashBytes n } }
      (s.mir fun m => { m with actv := false }).lopFail l.handle 0x0A
  else s

-- log 118: DEDUCED, unsafe; log 119: DESIGN CHOICE, safe.
/-- R441 step 8: a DATA_RESET ends. -/
def State.dataEnd (s : State) (l : Lop) : State :=
  match s.boot.dataReset with
  | some (h, _, 7) =>
    if h ≠ l.handle then s
    else
      let s := (s.boots fun b => { b with dataReset := none }).setf RESET_CAUSE RESET_CAUSE_DATA 1 |>.openEvent 12
      if s.bootStage = 7 then s.lopDone h []
      else s.lopFail h (((List.range 8).find? fun d => !(s.reach 8 d && s.bit (LLS_CTRL d) LLS_CTRL_EN)).getD 0)
  | _ => s

/-- LONG_OPERATION_END (R287): a running operation whose work is done ends; `ok` tells how work that the row's operation
leaves to hardware outside the model went. Operations of crews, the pair and Easy end in rows of their own. -/
def execLongOperationEnd (h : BitVec 32) (ok : Bool) (s : State) : Outcome :=
  .next (match s.lop h.toNat with
    | none => s
    | some l =>
      if l.state ≠ 1 ∨ s.coxIdle then s
      else match l.cmd with
        | 0x42 => s.resetEnd l
        | 0x60 => if l.progress < l.total then s else s.lopDone l.handle [BitVec.ofNat 64 (l.args.getD 2 0), BitVec.ofNat 64 (l.args.getD 3 0)]
        | 0x61 => s.slot32End l
        | 0x62 => s.slot32End l
        | 0x63 => s.onlineEnd l ok
        | 0x92 => if l.progress < l.total then s else s.lopDone l.handle []
        | 0xA0 => s.stageEndOp l
        | 0xA1 => s.activateEnd l ok
        | 0xB0 => s.dataEnd l
        | _ => s)

end Sys2Proof.Machine
end

