-- ==== Sys2Proof/Machine/Tap.lean ====
section
/-!
DEFINITION. The TAP (R459 to R463), the stand-alone die test (R464), I3C addresses (R450), and lanes whose margin is low
(R263, R398).
-/
namespace Sys2Proof.Machine

/-! ### I3C -/

-- log 134: DEDUCED, unsafe; log 141: DEDUCED, unsafe.
/-- SETDASA: a controller assigns dynamic address `dyn` to the target at static address `addr`, 0x30 + MODULE_ID. -/
def execSetdasa (addr dyn : BitVec 7) (s : State) : Outcome :=
  .next (if s.boot.rails < 3 ∨ addr.toNat ≠ 0x30 + s.boot.moduleId ∨ s.boot.i3c.isSome then s
    else s.boots fun b => { b with i3c := some dyn.toNat })

-- log 134: DEDUCED, unsafe; log 141: DEDUCED, unsafe.
/-- ENTDAA: the device, which has no dynamic address, wins the arbitration and takes `dyn`. -/
def execEntdaa (dyn : BitVec 7) (s : State) : Outcome :=
  .next (if s.boot.rails < 3 ∨ s.boot.i3c.isSome then s else s.boots fun b => { b with i3c := some dyn.toNat })

/-! ### Instructions of the TAP -/

def State.taps (s : State) (f : Tap → Tap) : State := { s with tap := f s.tap }

/-- The debug level. -/
def State.debugLevel (s : State) : Nat := s.fld SEC_DEBUG SEC_DEBUG_LEVEL

-- log 141: DEDUCED, unsafe; log 142: DESIGN CHOICE, safe.
/-- The instruction `code`, whose least level is `need`, is loaded and `act` follows; R460 refuses it where the level is too
low, or where it needs module reset to be held (`held`) and it is not. The TAP runs from VIO. -/
def State.tapLoad (s : State) (code need : Nat) (held : Bool) (act : State → State) : State :=
  if s.boot.rails < 3 then s
  else if s.debugLevel < need ∨ (held ∧ !s.boot.held) then
    (s.setf DBG_STATUS DBG_STATUS_TAP_REJ 1).taps fun t => { t with ir := 0xFF, pins := 0, capture := 0 }
  else act (s.taps fun t => { t with ir := code, pins := 0, capture := 0 })

/-- TAP_RESET: Test-Logic-Reset selects IDCODE. -/
def execTapReset (s : State) : Outcome :=
  .next (if s.boot.rails < 3 then s else s.taps fun t => { t with ir := 1, pins := 0, capture := 0 })

def execIdcode (s : State) : Outcome := .next (s.tapLoad 1 0 false fun s => s.taps fun t => { t with capture := 0x102087AB })
def execBypass (s : State) : Outcome := .next (s.tapLoad 0xFF 0 false id)
/-- EXTEST: the pins carry what is shifted into the boundary register. -/
def execExtest (v : Nat) (s : State) : Outcome := .next (s.tapLoad 0 0 true fun s => s.taps fun t => { t with pins := 1, boundary := v })
/-- SAMPLE/PRELOAD: the pins are captured, and the boundary register takes what is shifted in. -/
def execSamplePreload (pins preload : Nat) (s : State) : Outcome :=
  .next (s.tapLoad 2 0 false fun s => s.taps fun t => { t with capture := pins, boundary := preload })
def execExtestPulse (v : Nat) (s : State) : Outcome := .next (s.tapLoad 3 0 true fun s => s.taps fun t => { t with pins := 4, boundary := v })
def execExtestTrain (v : Nat) (s : State) : Outcome := .next (s.tapLoad 4 0 true fun s => s.taps fun t => { t with pins := 4, boundary := v })
def execClamp (s : State) : Outcome := .next (s.tapLoad 5 0 true fun s => s.taps fun t => { t with pins := 2 })
def execHighz (s : State) : Outcome := .next (s.tapLoad 6 0 true fun s => s.taps fun t => { t with pins := 3 })

/-- The 48 bytes of DBG_TOKEN as a number: nonce, serial, level, status of the latest presentation (R462). -/
def State.tokenOut (s : State) (nonce : List Byte) : Nat :=
  leBytes (cut nonce 0 32) + (s.fuses.serial % 2 ^ 64) * 2 ^ 256 + s.debugLevel * 2 ^ 320 + s.tap.token * 2 ^ 328

/-- DBG_TOKEN (R462): without a token, the instruction is loaded and its first Capture-DR requests a nonce; with one,
Update-DR presents it. -/
def execDbgToken (token : Option (List Byte)) (s : State) : Outcome :=
  .next (match token with
    | none => s.tapLoad 0x10 0 false fun s =>
      let n := s.newNonce
      n.1.taps fun t => { t with capture := n.1.tokenOut n.2 }
    | some b =>
      if s.boot.rails < 3 ∨ s.tap.ir ≠ 0x10 then s
      else
        let p := s.present b
        p.1.taps fun t => { t with token := p.2 })

-- log 143: DEDUCED, unsafe.
/-- The address of an access lies in control space, outside the COX_ and SEC_ blocks. -/
def dbgMay (a : Nat) : Bool :=
  dieBase 0 ≤ a && a < hubBase + 0x1000000 && !(hubBase ≤ a && ((a - hubBase) / 0x100000 == 1 || (a - hubBase) / 0x100000 == 7))

-- log 143: DEDUCED, unsafe.
/-- What a DBG_ACCESS word does: the state after it, the result code, the data read. Trace enables take writes at level 1
(R469). -/
def State.dbgAccess (s : State) (v : BitVec 128) : State × Nat × Word :=
  let wr := v.getLsbD 127
  let size := (v.extractLsb' 125 2).toNat
  let a := (v.extractLsb' 64 48).toNat
  let n := 2 ^ (size % 4)
  let data := v.extractLsb' 0 64
  let trace := DBG_TRC_CTRL 0 ≤ a && a < DBG_TRC_CTRL 0 + 0x40
  if size < 2 ∨ (v.extractLsb' 112 13).toNat ≠ 0 then (s, 4, 0)
  else if s.debugLevel < 1 ∨ (wr ∧ !trace ∧ s.debugLevel < 2) then (s, 2, 0)
  else if !dbgMay a ∨ a % n ≠ 0 then (s, 3, 0)
  else if wr then (s.ctlWrite .cox (a / 8 * 8) (s.mergeHalf a data n), 0, 0)
  else let r := s.ctlRead .cox a; (r.1, 0, BitVec.ofNat 64 (part r.2 a n))

/-- DBG_ACCESS (R463): the instruction is loaded and an Update-DR performs the access of the 128 bits v. -/
def execDbgAccess (v : BitVec 128) (s : State) : Outcome :=
  .next (s.tapLoad 0x11 1 false fun s =>
    let r := s.dbgAccess v
    r.1.taps fun t => { t with result := r.2.1, data := r.2.2, capture := r.2.1 * 2 ^ 120 + r.2.2.toNat })

/-! ### Die test -/

-- log 144: DEDUCED, unsafe.
/-- DIETEST: the instruction is loaded under module reset, and an Update-DR writes DBG_DIETEST. -/
def execDietest (v : Word) (s : State) : Outcome :=
  .next (s.tapLoad 0x20 2 true fun s =>
    let old := s.rd DBG_DIETEST
    (s.dbgWrite .cox 8 v).taps fun t => { t with capture := old.toNat })

/-- DIETEST_START: a write of DBG_DIETEST with START set. -/
def execDietestStart (m : Master) (v : Word) (s : State) : Outcome := .next (s.dbgWrite m 8 (DBG_DIETEST_START.put v 1))

-- log 144: DEDUCED, unsafe.
/-- DIETEST_DONE (R464): the selected dies have finished; a bit of `mem` or `lane` set is a die that failed that test. -/
def execDietestDone (mem lane : BitVec 8) (s : State) : Outcome :=
  .next (if !s.tap.testing ∨ !s.boot.held then s
    else
      let dies := s.fld DBG_DIETEST DBG_DIETEST_DIES
      let s := (s.setf DBG_DIETEST DBG_DIETEST_MEMFAIL (mem.toNat &&& dies)).setf DBG_DIETEST DBG_DIETEST_LANEFAIL (lane.toNat &&& dies)
      (s.setf DBG_DIETEST DBG_DIETEST_DONE 1).taps fun t => { t with testing := false })

/-! ### Lane margins -/

-- log 135: DEDUCED, unsafe.
/-- LANE_MARGIN_LOW (Table 16.5): a lane of module m of rigger port p of block k (`what` 0) is marked for its spare; one of
a fabric port (1) or pair port (2) p is reported; one of the PCIe link (3) is a corrected error in AER. -/
def execLaneMarginLow (what : BitVec 2) (k : BitVec 4) (p : BitVec 3) (m : BitVec 4) (s : State) : Outcome :=
  let n := k.toNat
  let q := p.toNat
  .next (match what.toNat with
    | 0 => if !isPort n q ∨ fullWidth n q ≤ m.toNat then s else
      s.setPort n q { s.port n q with weak := (s.port n q).weak ++ [m.toNat] }
    | 1 => s.coxNote 7 q
    | 2 => s.coxNote 7 (8 + q)
    | _ => (s.aerCorr 0).rasEvent 8 0x21 1 0 0 0)

end Sys2Proof.Machine
end

