-- ==== Sys2Proof/Machine/Dispatch.lean ====
section
/-!
DEFINITION. The meaning of each command, one arm per constructor.
-/
namespace Sys2Proof.Machine

def exec (i : Instr) (s : State) : Host.Outcome State Fault Refusal :=
  match i with
  | .strokePulse width t interval => Sys2Proof.Machine.execStrokePulse width t interval s
  | .catchCmd vin iin pin => Sys2Proof.Machine.execCatch vin iin pin s
  | .missedWindow => Sys2Proof.Machine.execMissedWindow s
  | .ptpSync p time offset ptp => Sys2Proof.Machine.execPtpSync p time offset ptp s
  | .syncIntervalLoss => Sys2Proof.Machine.execSyncIntervalLoss s
  | .holdoverAged => Sys2Proof.Machine.execHoldoverAged s
  | .stkSourceSelect m v => Sys2Proof.Machine.execStkSourceSelect m v s
  | .stkPeriodWrite m v => Sys2Proof.Machine.execStkPeriodWrite m v s
  | .evtEn m on => Sys2Proof.Machine.execEvtEn m on s
  | .evtDrainLimit => Sys2Proof.Machine.execEvtDrainLimit s
  | .drainEnd => Sys2Proof.Machine.execDrainEnd s
  | .stkNumLoad m v => Sys2Proof.Machine.execStkNumLoad m v s
  | .strokeLoadCancel m v => Sys2Proof.Machine.execStrokeLoadCancel m v s
  | .catchEventArm m ix => Sys2Proof.Machine.execCatchEventArm m ix s
  | .catchEventFree m idx => Sys2Proof.Machine.execCatchEventFree m idx s
  | .catchEventWrite m idx j v => Sys2Proof.Machine.execCatchEventWrite m idx j v s
  | .eventFire idx => Sys2Proof.Machine.execEventFire idx s
  | .managementTick p inlet outlet => Sys2Proof.Machine.execManagementTick p inlet outlet s
  | .add t rd rs1 rs2 => Sys2Proof.Machine.execAdd t rd rs1 rs2 s
  | .sub t rd rs1 rs2 => Sys2Proof.Machine.execSub t rd rs1 rs2 s
  | .andReg t rd rs1 rs2 => Sys2Proof.Machine.execAnd t rd rs1 rs2 s
  | .orReg t rd rs1 rs2 => Sys2Proof.Machine.execOr t rd rs1 rs2 s
  | .xorReg t rd rs1 rs2 => Sys2Proof.Machine.execXor t rd rs1 rs2 s
  | .sll t rd rs1 rs2 => Sys2Proof.Machine.execSll t rd rs1 rs2 s
  | .srl t rd rs1 rs2 => Sys2Proof.Machine.execSrl t rd rs1 rs2 s
  | .sra t rd rs1 rs2 => Sys2Proof.Machine.execSra t rd rs1 rs2 s
  | .slt t rd rs1 rs2 => Sys2Proof.Machine.execSlt t rd rs1 rs2 s
  | .sltu t rd rs1 rs2 => Sys2Proof.Machine.execSltu t rd rs1 rs2 s
  | .minS t rd rs1 rs2 => Sys2Proof.Machine.execMin t rd rs1 rs2 s
  | .maxS t rd rs1 rs2 => Sys2Proof.Machine.execMax t rd rs1 rs2 s
  | .minu t rd rs1 rs2 => Sys2Proof.Machine.execMinu t rd rs1 rs2 s
  | .maxu t rd rs1 rs2 => Sys2Proof.Machine.execMaxu t rd rs1 rs2 s
  | .mul t rd rs1 rs2 => Sys2Proof.Machine.execMul t rd rs1 rs2 s
  | .mulh t rd rs1 rs2 => Sys2Proof.Machine.execMulh t rd rs1 rs2 s
  | .mulhu t rd rs1 rs2 => Sys2Proof.Machine.execMulhu t rd rs1 rs2 s
  | .divS t rd rs1 rs2 => Sys2Proof.Machine.execDiv t rd rs1 rs2 s
  | .divu t rd rs1 rs2 => Sys2Proof.Machine.execDivu t rd rs1 rs2 s
  | .rem t rd rs1 rs2 => Sys2Proof.Machine.execRem t rd rs1 rs2 s
  | .remu t rd rs1 rs2 => Sys2Proof.Machine.execRemu t rd rs1 rs2 s
  | .clz t rd rs1 => Sys2Proof.Machine.execClz t rd rs1 s
  | .ctz t rd rs1 => Sys2Proof.Machine.execCtz t rd rs1 s
  | .popc t rd rs1 => Sys2Proof.Machine.execPopc t rd rs1 s
  | .addi t rd rs1 imm => Sys2Proof.Machine.execAddi t rd rs1 imm s
  | .andi t rd rs1 imm => Sys2Proof.Machine.execAndi t rd rs1 imm s
  | .ori t rd rs1 imm => Sys2Proof.Machine.execOri t rd rs1 imm s
  | .xori t rd rs1 imm => Sys2Proof.Machine.execXori t rd rs1 imm s
  | .slli t rd rs1 imm => Sys2Proof.Machine.execSlli t rd rs1 imm s
  | .srli t rd rs1 imm => Sys2Proof.Machine.execSrli t rd rs1 imm s
  | .srai t rd rs1 imm => Sys2Proof.Machine.execSrai t rd rs1 imm s
  | .slti t rd rs1 imm => Sys2Proof.Machine.execSlti t rd rs1 imm s
  | .sltiu t rd rs1 imm => Sys2Proof.Machine.execSltiu t rd rs1 imm s
  | .jalr t rd rs1 imm => Sys2Proof.Machine.execJalr t rd rs1 imm s
  | .jal t rd off => Sys2Proof.Machine.execJal t rd off s
  | .conditionalBranch t cond rs1 rs2 off => Sys2Proof.Machine.execConditionalBranch t cond rs1 rs2 off s
  | .moveWide t rd sh keep imm => Sys2Proof.Machine.execMoveWide t rd sh keep imm s
  | .lb t rd rs1 imm => Sys2Proof.Machine.execLb t rd rs1 imm s
  | .lh t rd rs1 imm => Sys2Proof.Machine.execLh t rd rs1 imm s
  | .lw t rd rs1 imm => Sys2Proof.Machine.execLw t rd rs1 imm s
  | .ld t rd rs1 imm => Sys2Proof.Machine.execLd t rd rs1 imm s
  | .lbu t rd rs1 imm => Sys2Proof.Machine.execLbu t rd rs1 imm s
  | .lhu t rd rs1 imm => Sys2Proof.Machine.execLhu t rd rs1 imm s
  | .lwu t rd rs1 imm => Sys2Proof.Machine.execLwu t rd rs1 imm s
  | .fld t rd rs1 imm => Sys2Proof.Machine.execFld t rd rs1 imm s
  | .flw t rd rs1 imm => Sys2Proof.Machine.execFlw t rd rs1 imm s
  | .sb t rd rs1 imm => Sys2Proof.Machine.execSb t rd rs1 imm s
  | .sh t rd rs1 imm => Sys2Proof.Machine.execSh t rd rs1 imm s
  | .sw t rd rs1 imm => Sys2Proof.Machine.execSw t rd rs1 imm s
  | .sd t rd rs1 imm => Sys2Proof.Machine.execSd t rd rs1 imm s
  | .fsd t rd rs1 imm => Sys2Proof.Machine.execFsd t rd rs1 imm s
  | .fsw t rd rs1 imm => Sys2Proof.Machine.execFsw t rd rs1 imm s
  | .fadd t rd rs1 rs2 => Sys2Proof.Machine.execFadd t rd rs1 rs2 s
  | .fsub t rd rs1 rs2 => Sys2Proof.Machine.execFsub t rd rs1 rs2 s
  | .fmul t rd rs1 rs2 => Sys2Proof.Machine.execFmul t rd rs1 rs2 s
  | .fdiv t rd rs1 rs2 => Sys2Proof.Machine.execFdiv t rd rs1 rs2 s
  | .fsqrt t rd rs1 => Sys2Proof.Machine.execFsqrt t rd rs1 s
  | .fmin t rd rs1 rs2 => Sys2Proof.Machine.execFmin t rd rs1 rs2 s
  | .fmax t rd rs1 rs2 => Sys2Proof.Machine.execFmax t rd rs1 rs2 s
  | .fsgnj t rd rs1 rs2 => Sys2Proof.Machine.execFsgnj t rd rs1 rs2 s
  | .fsgnjn t rd rs1 rs2 => Sys2Proof.Machine.execFsgnjn t rd rs1 rs2 s
  | .fsgnjx t rd rs1 rs2 => Sys2Proof.Machine.execFsgnjx t rd rs1 rs2 s
  | .feq t rd rs1 rs2 => Sys2Proof.Machine.execFeq t rd rs1 rs2 s
  | .flt t rd rs1 rs2 => Sys2Proof.Machine.execFlt t rd rs1 rs2 s
  | .fle t rd rs1 rs2 => Sys2Proof.Machine.execFle t rd rs1 rs2 s
  | .fclass t rd rs1 => Sys2Proof.Machine.execFclass t rd rs1 s
  | .fcvtDL t rd rs1 => Sys2Proof.Machine.execFcvtDL t rd rs1 s
  | .fcvtLD t rd rs1 => Sys2Proof.Machine.execFcvtLD t rd rs1 s
  | .fcvtDLu t rd rs1 => Sys2Proof.Machine.execFcvtDLu t rd rs1 s
  | .fcvtLuD t rd rs1 => Sys2Proof.Machine.execFcvtLuD t rd rs1 s
  | .fmvXD t rd rs1 => Sys2Proof.Machine.execFmvXD t rd rs1 s
  | .fmvDX t rd rs1 => Sys2Proof.Machine.execFmvDX t rd rs1 s
  | .fmadd t rd rs1 rs2 rs3 => Sys2Proof.Machine.execFmadd t rd rs1 rs2 rs3 s
  | .fmsub t rd rs1 rs2 rs3 => Sys2Proof.Machine.execFmsub t rd rs1 rs2 rs3 s
  | .fnmadd t rd rs1 rs2 rs3 => Sys2Proof.Machine.execFnmadd t rd rs1 rs2 rs3 s
  | .fnmsub t rd rs1 rs2 rs3 => Sys2Proof.Machine.execFnmsub t rd rs1 rs2 rs3 s
  | .csrRead t rd rs1 csr => Sys2Proof.Machine.execCsrRead t rd rs1 csr s
  | .csrWrite t rd rs1 csr => Sys2Proof.Machine.execCsrWrite t rd rs1 csr s
  | .csrSet t rd rs1 csr => Sys2Proof.Machine.execCsrSet t rd rs1 csr s
  | .csrClear t rd rs1 csr => Sys2Proof.Machine.execCsrClear t rd rs1 csr s
  | .ecall t n => Sys2Proof.Machine.execEcall t n s
  | .cret t => Sys2Proof.Machine.execCret t s
  | .eret t => Sys2Proof.Machine.execEret t s
  | .ebreak t => Sys2Proof.Machine.execEbreak t s
  | .wfi t => Sys2Proof.Machine.execWfi t s
  | .wfiWake t => Sys2Proof.Machine.execWfiWake t s
  | .ifence t => Sys2Proof.Machine.execIfence t s
  | .afence t => Sys2Proof.Machine.execAfence t s
  | .ofence t mask => Sys2Proof.Machine.execOfence t mask s
  | .mfence t mask => Sys2Proof.Machine.execMfence t mask s
  | .loopStart t pair ra body => Sys2Proof.Machine.execLoop t pair ra body s
  | .interrupt t => Sys2Proof.Machine.execInterrupt t s
  | .tilXlatWrite m t idx hi v => Sys2Proof.Machine.execTilXlatWrite m t idx hi v s
  | .tilCoxNoteWrite t v => Sys2Proof.Machine.execTilCoxNoteWrite t v s
  | .vsetl t rd rs1 gf ew => Sys2Proof.Machine.execVsetl t rd rs1 gf ew s
  | .vld t vd rs1 fmt pm whole => Sys2Proof.Machine.execVld t vd rs1 fmt pm whole s
  | .vldFf t vd rs1 fmt pm => Sys2Proof.Machine.execVldFf t vd rs1 fmt pm s
  | .vst t vs rs1 fmt pm whole => Sys2Proof.Machine.execVst t vs rs1 fmt pm whole s
  | .pld t pd rs1 => Sys2Proof.Machine.execPld t pd rs1 s
  | .pst t ps rs1 => Sys2Proof.Machine.execPst t ps rs1 s
  | .vadd t vs vd vs1 b fmt pm => Sys2Proof.Machine.execVadd t vs vd vs1 b fmt pm s
  | .vsub t vs vd vs1 b fmt pm => Sys2Proof.Machine.execVsub t vs vd vs1 b fmt pm s
  | .vmul t vs vd vs1 b fmt pm => Sys2Proof.Machine.execVmul t vs vd vs1 b fmt pm s
  | .vdiv t vs vd vs1 b fmt pm => Sys2Proof.Machine.execVdiv t vs vd vs1 b fmt pm s
  | .vmin t vs vd vs1 b fmt pm => Sys2Proof.Machine.execVmin t vs vd vs1 b fmt pm s
  | .vmax t vs vd vs1 b fmt pm => Sys2Proof.Machine.execVmax t vs vd vs1 b fmt pm s
  | .vand t vs vd vs1 b fmt pm => Sys2Proof.Machine.execVand t vs vd vs1 b fmt pm s
  | .vor t vs vd vs1 b fmt pm => Sys2Proof.Machine.execVor t vs vd vs1 b fmt pm s
  | .vxor t vs vd vs1 b fmt pm => Sys2Proof.Machine.execVxor t vs vd vs1 b fmt pm s
  | .vsll t vs vd vs1 b fmt pm => Sys2Proof.Machine.execVsll t vs vd vs1 b fmt pm s
  | .vsrl t vs vd vs1 b fmt pm => Sys2Proof.Machine.execVsrl t vs vd vs1 b fmt pm s
  | .vsra t vs vd vs1 b fmt pm => Sys2Proof.Machine.execVsra t vs vd vs1 b fmt pm s
  | .vfma t vs vd vs1 b fmt pm => Sys2Proof.Machine.execVfma t vs vd vs1 b fmt pm s
  | .vfnms t vs vd vs1 b fmt pm => Sys2Proof.Machine.execVfnms t vs vd vs1 b fmt pm s
  | .vsadd t vs vd vs1 b fmt pm => Sys2Proof.Machine.execVsadd t vs vd vs1 b fmt pm s
  | .vssub t vs vd vs1 b fmt pm => Sys2Proof.Machine.execVssub t vs vd vs1 b fmt pm s
  | .vaadd t vd vs1 vs2 fmt pm => Sys2Proof.Machine.execVaadd t vd vs1 vs2 fmt pm s
  | .vasub t vd vs1 vs2 fmt pm => Sys2Proof.Machine.execVasub t vd vs1 vs2 fmt pm s
  | .smulVv t vd vs1 vs2 fmt pm => Sys2Proof.Machine.execSmulVv t vd vs1 vs2 fmt pm s
  | .smulVs t vd vs1 rs2 fmt pm => Sys2Proof.Machine.execSmulVs t vd vs1 rs2 fmt pm s
  | .ssr t vd vs1 rs2 fmt pm => Sys2Proof.Machine.execSsr t vd vs1 rs2 fmt pm s
  | .nclip t vd vs1 rs2 fmt pm => Sys2Proof.Machine.execNclip t vd vs1 rs2 fmt pm s
  | .vneg t vd vs1 fmt pm => Sys2Proof.Machine.execVneg t vd vs1 fmt pm s
  | .vabs t vd vs1 fmt pm => Sys2Proof.Machine.execVabs t vd vs1 fmt pm s
  | .vsqrt t vd vs1 fmt pm => Sys2Proof.Machine.execVsqrt t vd vs1 fmt pm s
  | .vnot t vd vs1 fmt pm => Sys2Proof.Machine.execVnot t vd vs1 fmt pm s
  | .vcopy t vd vs1 fmt pm => Sys2Proof.Machine.execVcopy t vd vs1 fmt pm s
  | .vred t rd vs1 fn fmt pm => Sys2Proof.Machine.execVred t rd vs1 fn fmt pm s
  | .vmaxi t rd vs1 rx fmt pm => Sys2Proof.Machine.execVmaxi t rd vs1 rx fmt pm s
  | .vmini t rd vs1 rx fmt pm => Sys2Proof.Machine.execVmini t rd vs1 rx fmt pm s
  | .vcvt t vd vs1 dst fmt pm => Sys2Proof.Machine.execVcvt t vd vs1 dst fmt pm s
  | .vchain t vd vs1 ra fmt pm => Sys2Proof.Machine.execVchain t vd vs1 ra fmt pm s
  | .vcmpVv t pd cond vs1 vs2 fmt gov => Sys2Proof.Machine.execVcmpVv t pd cond vs1 vs2 fmt gov s
  | .vcmpVs t pd cond vs1 b fmt gov => Sys2Proof.Machine.execVcmpVs t pd cond vs1 b fmt gov s
  | .plogic t pd pa pb fn => Sys2Proof.Machine.execPlogic t pd pa pb fn s
  | .pset t pd val => Sys2Proof.Machine.execPset t pd val s
  | .pcount t rd pa => Sys2Proof.Machine.execPcount t rd pa s
  | .pfirst t rd pa => Sys2Proof.Machine.execPfirst t rd pa s
  | .vsplat t vd r fmt pm => Sys2Proof.Machine.execVsplat t vd r fmt pm s
  | .vext t rd vs fmt => Sys2Proof.Machine.execVext t rd vs fmt s
  | .vectorGate t => Sys2Proof.Machine.execVectorGate t s
  | .kStream t rs1 rs2 rs3 bank zero desc => Sys2Proof.Machine.execKStream t rs1 rs2 rs3 bank zero desc s
  | .ringTake t => Sys2Proof.Machine.execRingTake t s
  | .kstreamComplete t => Sys2Proof.Machine.execKstreamComplete t s
  | .deferredError t => Sys2Proof.Machine.execDeferredError t s
  | .kstreamPause t kdone => Sys2Proof.Machine.execKstreamPause t kdone s
  | .mdrain t dst desc par arg bank panel => Sys2Proof.Machine.execMdrain t dst desc par arg bank panel s
  | .mdrainComplete t => Sys2Proof.Machine.execMdrainComplete t s
  | .mzero t bank => Sys2Proof.Machine.execMzero t bank s
  | .mload t rs1 bank => Sys2Proof.Machine.execMload t rs1 bank s
  | .madd t rs1 bank => Sys2Proof.Machine.execMadd t rs1 bank s
  | .accmodeChange t op rd rs1 => Sys2Proof.Machine.execAccmodeChange t op rd rs1 s
  | .mprogDiscard t op rd rs1 => Sys2Proof.Machine.execMprogDiscard t op rd rs1 s
  | .matrixGate t => Sys2Proof.Machine.execMatrixGate t s
  | .nwtCount t => Sys2Proof.Machine.execNwtCount t s
  | .nwtEn m d v => Sys2Proof.Machine.execNwtEn m d v s
  | .nwtClear m d g v => Sys2Proof.Machine.execNwtClear m d g v s
  | .copy t rd rs1 nb => Sys2Proof.Machine.execCopy t rd rs1 nb s
  | .gather t rd rs1 nb => Sys2Proof.Machine.execGather t rd rs1 nb s
  | .scatter t rd rs1 nb => Sys2Proof.Machine.execScatter t rd rs1 nb s
  | .put t rd rs1 nb => Sys2Proof.Machine.execPut t rd rs1 nb s
  | .getOp t rd rs1 nb => Sys2Proof.Machine.execGet t rd rs1 nb s
  | .reducePut t rd rs1 nb => Sys2Proof.Machine.execReducePut t rd rs1 nb s
  | .dmstat t rd => Sys2Proof.Machine.execDmstat t rd s
  | .descriptorEnterSlot t => Sys2Proof.Machine.execDescriptorEnterSlot t s
  | .gateSatisfied t ticket => Sys2Proof.Machine.execGateSatisfied t ticket s
  | .descriptorComplete t ticket => Sys2Proof.Machine.execDescriptorComplete t ticket s
  | .reducePartial t ticket => Sys2Proof.Machine.execReducePartial t ticket s
  | .tilDmEn m t v => Sys2Proof.Machine.execTilDmEn m t v s
  | .dmDrainLimit t more => Sys2Proof.Machine.execDmDrainLimit t more s
  | .msend t rt rs n tag => Sys2Proof.Machine.execMsend t rt rs n tag s
  | .messageRefusalRetry t => Sys2Proof.Machine.execMessageRefusalRetry t s
  | .mrecv t rd rsDst => Sys2Proof.Machine.execMrecv t rd rsDst s
  | .mcount t rd => Sys2Proof.Machine.execMcount t rd s
  | .tilMsgEn m t v => Sys2Proof.Machine.execTilMsgEn m t v s
  | .msgDrainLimit t => Sys2Proof.Machine.execMsgDrainLimit t s
  | .bsig t rb rn => Sys2Proof.Machine.execBsig t rb rn s
  | .bsigi t b count => Sys2Proof.Machine.execBsigi t b count s
  | .bwait t rb rn irq => Sys2Proof.Machine.execBwait t rb rn irq s
  | .bread t rd rb => Sys2Proof.Machine.execBread t rd rb s
  | .bset t rb rn => Sys2Proof.Machine.execBset t rb rn s
  | .breadResult t => Sys2Proof.Machine.execBreadResult t s
  | .waitComplete t irq => Sys2Proof.Machine.execWaitComplete t irq s
  | .tilBklWrite m t idx v => Sys2Proof.Machine.execTilBklWrite m t idx v s
  | .automaticWayDisable d way => Sys2Proof.Machine.execAutomaticWayDisable d way s
  | .llsEn m d v => Sys2Proof.Machine.execLlsEn m d v s
  | .llsDrainLimit d => Sys2Proof.Machine.execLlsDrainLimit d s
  | .clean m d slot v => Sys2Proof.Machine.execClean m d slot v s
  | .flush m d slot v => Sys2Proof.Machine.execFlush m d slot v s
  | .invalidate m d slot v => Sys2Proof.Machine.execInvalidate m d slot v s
  | .zero m d slot v => Sys2Proof.Machine.execZero m d slot v s
  | .prefetch m d slot v => Sys2Proof.Machine.execPrefetch m d slot v s
  | .invalidateAll m d slot v => Sys2Proof.Machine.execInvalidateAll m d slot v s
  | .wayToScratch m d slot v => Sys2Proof.Machine.execWayToScratch m d slot v s
  | .wayToCache m d slot v => Sys2Proof.Machine.execWayToCache m d slot v s
  | .flushAll m d slot v => Sys2Proof.Machine.execFlushAll m d slot v s
  | .wayDisable m d slot v => Sys2Proof.Machine.execWayDisable m d slot v s
  | .wayEnable m d slot v => Sys2Proof.Machine.execWayEnable m d slot v s
  | .burnisherStart d => Sys2Proof.Machine.execBurnisherStart d s
  | .burnisherComplete d lines => Sys2Proof.Machine.execBurnisherComplete d lines s
  | .burnisherCancel m d slot => Sys2Proof.Machine.execBurnisherCancel m d slot s
  | .lostEntryRemove m d e => Sys2Proof.Machine.execLostEntryRemove m d e s
  | .memoryWindowEnd mem => Sys2Proof.Machine.execMemoryWindowEnd mem s
  | .unscheduledRetrain mem => Sys2Proof.Machine.execUnscheduledRetrain mem s
  | .patrolScrub a => Sys2Proof.Machine.execPatrolScrub a s
  | .initialSweep mem upTo => Sys2Proof.Machine.execInitialSweep mem upTo s
  | .memoryTemperatureSample mem temp exceeded left => Sys2Proof.Machine.execMemoryTemperatureSample mem temp exceeded left s
  | .offlineDrainLimit mem => Sys2Proof.Machine.execOfflineDrainLimit mem s
  | .thrWrite w mem v => Sys2Proof.Machine.execThrWrite w mem v s
  | .cxsPoolAdd m d v => Sys2Proof.Machine.execCxsPoolAdd m d v s
  | .cxsPoolBaseWrite m d v => Sys2Proof.Machine.execCxsPoolBaseWrite m d v s
  | .fetch m d idx w0 w1 w2 w3 => Sys2Proof.Machine.execFetch m d idx w0 w1 w2 w3 s
  | .evict m d idx w0 w1 w2 w3 => Sys2Proof.Machine.execEvict m d idx w0 w1 w2 w3 s
  | .stage m d idx w0 w1 w2 w3 => Sys2Proof.Machine.execStage m d idx w0 w1 w2 w3 s
  | .append m d idx w0 w1 w2 w3 => Sys2Proof.Machine.execAppend m d idx w0 w1 w2 w3 s
  | .writeback m d idx w0 w1 w2 w3 => Sys2Proof.Machine.execWriteback m d idx w0 w1 w2 w3 s
  | .drop m d idx w0 w1 w2 w3 => Sys2Proof.Machine.execDrop m d idx w0 w1 w2 w3 s
  | .cxsEligible d => Sys2Proof.Machine.execCxsEligible d s
  | .cxsDue d idx => Sys2Proof.Machine.execCxsDue d idx s
  | .cxsComplete d idx => Sys2Proof.Machine.execCxsComplete d idx s
  | .cxsEn m d v => Sys2Proof.Machine.execCxsEn m d v s
  | .contextEn m d c v => Sys2Proof.Machine.execContextEn m d c v s
  | .cxsDrainLimit d ctx => Sys2Proof.Machine.execCxsDrainLimit d ctx s
  | .flit k p f err send => Sys2Proof.Machine.execFlit k p f err send s
  | .recoveryEnd k p tested => Sys2Proof.Machine.execRecoveryEnd k p tested s
  | .recov m k p => Sys2Proof.Machine.execRecov m k p s
  | .vknPortEn m k p v => Sys2Proof.Machine.execVknPortEn m k p v s
  | .vknDrainLimit k p => Sys2Proof.Machine.execVknDrainLimit k p s
  | .rd cls src unit tag a => Sys2Proof.Machine.execRd cls src unit tag a s
  | .wr cls src unit tag a v => Sys2Proof.Machine.execWr cls src unit tag a v s
  | .wrp idx => Sys2Proof.Machine.execWrp idx s
  | .rdata dst unit => Sys2Proof.Machine.execRdata dst unit s
  | .wack dst unit => Sys2Proof.Machine.execWack dst unit s
  | .err dst unit => Sys2Proof.Machine.execErr dst unit s
  | .bkl t h => Sys2Proof.Machine.execBkl t h s
  | .msg t => Sys2Proof.Machine.execMsg t s
  | .evt idx => Sys2Proof.Machine.execEvt idx s
  | .crd t => Sys2Proof.Machine.execCrd t s
  | .cwr t a => Sys2Proof.Machine.execCwr t a s
  | .crsp t => Sys2Proof.Machine.execCrsp t s
  | .note d => Sys2Proof.Machine.execNote d s
  | .registerWrite m a v => Sys2Proof.Machine.execRegisterWrite m a v s
  | .mbClaim tag => Sys2Proof.Machine.execMbClaim tag s
  | .mbDoorbell v => Sys2Proof.Machine.execMbDoorbell v s
  | .mbRelease v => Sys2Proof.Machine.execMbRelease v s
  | .claimExpiry m => Sys2Proof.Machine.execClaimExpiry m s
  | .mctpRequest ep m h0 h1 rest ws => Sys2Proof.Machine.execMctpRequest ep m h0 h1 rest ws s
  | .sessionLeaseExpiry n => Sys2Proof.Machine.execSessionLeaseExpiry n s
  | .coxRestart activation => Sys2Proof.Machine.execCoxRestart activation s
  | .coxRestartEnd => Sys2Proof.Machine.execCoxRestartEnd s
  | .longOperationEnd h ok => Sys2Proof.Machine.execLongOperationEnd h ok s
  | .handleExpiry h => Sys2Proof.Machine.execHandleExpiry h s
  | .hello => Sys2Proof.Machine.execHello s
  | .bye => Sys2Proof.Machine.execBye s
  | .ping => Sys2Proof.Machine.execPing s
  | .eventRead => Sys2Proof.Machine.execEventRead s
  | .eventMask => Sys2Proof.Machine.execEventMask s
  | .lopQuery => Sys2Proof.Machine.execLopQuery s
  | .lopSuspend => Sys2Proof.Machine.execLopSuspend s
  | .lopResume => Sys2Proof.Machine.execLopResume s
  | .lopCancel => Sys2Proof.Machine.execLopCancel s
  | .lopList => Sys2Proof.Machine.execLopList s
  | .devInfo => Sys2Proof.Machine.execDevInfo s
  | .telemSnap => Sys2Proof.Machine.execTelemSnap s
  | .nwtSum => Sys2Proof.Machine.execNwtSum s
  | .logRead => Sys2Proof.Machine.execLogRead s
  | .retireRead => Sys2Proof.Machine.execRetireRead s
  | .ringCreate => Sys2Proof.Machine.execRingCreate s
  | .ringDestroy => Sys2Proof.Machine.execRingDestroy s
  | .winMap => Sys2Proof.Machine.execWinMap s
  | .winUnmap => Sys2Proof.Machine.execWinUnmap s
  | .tileStart => Sys2Proof.Machine.execTileStart s
  | .tileRestart => Sys2Proof.Machine.execTileRestart s
  | .tileReset => Sys2Proof.Machine.execTileReset s
  | .tileHalt => Sys2Proof.Machine.execTileHalt s
  | .tileNote => Sys2Proof.Machine.execTileNote s
  | .eventArm => Sys2Proof.Machine.execEventArm s
  | .eventFree => Sys2Proof.Machine.execEventFree s
  | .strokeCfg => Sys2Proof.Machine.execStrokeCfg s
  | .strokeLoad => Sys2Proof.Machine.execStrokeLoad s
  | .scrub => Sys2Proof.Machine.execScrub s
  | .burnish => Sys2Proof.Machine.execBurnish s
  | .llsWay => Sys2Proof.Machine.execLlsWay s
  | .memOnline => Sys2Proof.Machine.execMemOnline s
  | .fabCfg => Sys2Proof.Machine.execFabCfg s
  | .crewForm => Sys2Proof.Machine.execCrewForm s
  | .crewLeave => Sys2Proof.Machine.execCrewLeave s
  | .crewStatus => Sys2Proof.Machine.execCrewStatus s
  | .pairJoin => Sys2Proof.Machine.execPairJoin s
  | .pairLeave => Sys2Proof.Machine.execPairLeave s
  | .mirrorRegion refused => Sys2Proof.Machine.execMirrorRegion refused s
  | .journalCfg => Sys2Proof.Machine.execJournalCfg s
  | .powerCap => Sys2Proof.Machine.execPowerCap s
  | .easyEnter => Sys2Proof.Machine.execEasyEnter s
  | .marginReplan => Sys2Proof.Machine.execMarginReplan s
  | .patinaRead => Sys2Proof.Machine.execPatinaRead s
  | .fwStage => Sys2Proof.Machine.execFwStage s
  | .fwActivate => Sys2Proof.Machine.execFwActivate s
  | .debugUnlock => Sys2Proof.Machine.execDebugUnlock s
  | .dataReset => Sys2Proof.Machine.execDataReset s
  | .reclaim => Sys2Proof.Machine.execReclaim s
  | .crewJoin => Sys2Proof.Machine.execCrewJoin s
  | .crewRoster => Sys2Proof.Machine.execCrewRoster s
  | .crewReady => Sys2Proof.Machine.execCrewReady s
  | .crewDepart => Sys2Proof.Machine.execCrewDepart s
  | .crewQuery => Sys2Proof.Machine.execCrewQuery s
  | .ringTail n v => Sys2Proof.Machine.execRingTail n v s
  | .launchDelivery n => Sys2Proof.Machine.execLaunchDelivery n s
  | .ringNotify m n => Sys2Proof.Machine.execRingNotify m n s
  | .ringRestart n v => Sys2Proof.Machine.execRingRestart n v s
  | .hostRead bar o n tag => Sys2Proof.Machine.execHostRead bar o n tag s
  | .hostWrite bar o n v ep => Sys2Proof.Machine.execHostWrite bar o n v ep s
  | .unsupportedRequest tag posted => Sys2Proof.Machine.execUnsupportedRequest tag posted s
  | .hostIntMaskWrite v => Sys2Proof.Machine.execHostIntMaskWrite v s
  | .msixUnmask v => Sys2Proof.Machine.execMsixUnmask v s
  | .bar2Resize log2 => Sys2Proof.Machine.execBar2Resize log2 s
  | .outboundCompletion r how data => Sys2Proof.Machine.execOutboundCompletion r how data s
  | .outboundTimeout r => Sys2Proof.Machine.execOutboundTimeout r s
  | .functionLevelReset => Sys2Proof.Machine.execFunctionLevelReset s
  | .hostFunctionReset kind => Sys2Proof.Machine.execHostFunctionReset kind s
  | .fabLinkChange p what lanes => Sys2Proof.Machine.execFabLinkChange p what lanes s
  | .fabricFrame p kind ptp => Sys2Proof.Machine.execFabricFrame p kind ptp s
  | .fabPortEn m p v => Sys2Proof.Machine.execFabPortEn m p v s
  | .fabPortDrainLimit p => Sys2Proof.Machine.execFabPortDrainLimit p s
  | .ectAck p h src => Sys2Proof.Machine.execEctAck p h src s
  | .heartbeat p h src => Sys2Proof.Machine.execHeartbeat p h src s
  | .coll p h src ce w0 w1 w2 flags n data => Sys2Proof.Machine.execColl p h src ce w0 w1 w2 flags n data s
  | .ectPut p h src ce w0 w1 w2 n data => Sys2Proof.Machine.execEctPut p h src ce w0 w1 w2 n data s
  | .ctrl p h src u k kind a b => Sys2Proof.Machine.execCtrl p h src u k kind a b s
  | .mgmt p h src ce resp ws => Sys2Proof.Machine.execMgmt p h src ce resp ws s
  | .retransmitTimeout pair x psn => Sys2Proof.Machine.execRetransmitTimeout pair x psn s
  | .heartbeatLoss x => Sys2Proof.Machine.execHeartbeatLoss x s
  | .allreduce m idx ws => Sys2Proof.Machine.execAllreduce m idx ws s
  | .reduce m idx ws => Sys2Proof.Machine.execReduce m idx ws s
  | .broadcast m idx ws => Sys2Proof.Machine.execBroadcast m idx ws s
  | .allgather m idx ws => Sys2Proof.Machine.execAllgather m idx ws s
  | .reduceScatter m idx ws => Sys2Proof.Machine.execReduceScatter m idx ws s
  | .barrier m idx ws => Sys2Proof.Machine.execBarrier m idx ws s
  | .crewPut m idx ws => Sys2Proof.Machine.execCrewPut m idx ws s
  | .crewOpComplete k phase opid => Sys2Proof.Machine.execCrewOpComplete k phase opid s
  | .crewDeadline k phase opid => Sys2Proof.Machine.execCrewDeadline k phase opid s
  | .epochBoundary n => Sys2Proof.Machine.execEpochBoundary n s
  | .crwEn m v => Sys2Proof.Machine.execCrwEn m v s
  | .crwDrainLimit => Sys2Proof.Machine.execCrwDrainLimit s
  | .pairLinkChange p what lanes => Sys2Proof.Machine.execPairLinkChange p what lanes s
  | .hb p h => Sys2Proof.Machine.execHb p h s
  | .pairHello p h ws period => Sys2Proof.Machine.execPairHello p h ws period s
  | .gran p h seq a data => Sys2Proof.Machine.execGran p h seq a data s
  | .endFrame p h seq count => Sys2Proof.Machine.execEnd p h seq count s
  | .commit p h seq => Sys2Proof.Machine.execCommit p h seq s
  | .regionFrame p h r lo hi => Sys2Proof.Machine.execRegion p h r lo hi s
  | .syncFrame p h a data => Sys2Proof.Machine.execSync p h a data s
  | .image p h off data => Sys2Proof.Machine.execImage p h off data s
  | .pairAck p h => Sys2Proof.Machine.execPairAck p h s
  | .llsFreeze d => Sys2Proof.Machine.execLlsFreeze d s
  | .partnerLost => Sys2Proof.Machine.execPartnerLost s
  | .journalRecord failed => Sys2Proof.Machine.execJournalRecord failed s
  | .mirEn m v => Sys2Proof.Machine.execMirEn m v s
  | .mirDrainLimit => Sys2Proof.Machine.execMirDrainLimit s
  | .restoreTimeout a => Sys2Proof.Machine.execRestoreTimeout a s
  | .coxUpTimeout => Sys2Proof.Machine.execCoxUpTimeout s
  | .rasQPop m k v => Sys2Proof.Machine.execRasQPop m k v s
  | .rasInject m k v => Sys2Proof.Machine.execRasInject m k v s
  | .lostPageRemove m d e => Sys2Proof.Machine.execLostPageRemove m d e s
  | .rasFlashRecord => Sys2Proof.Machine.execRasFlashRecord s
  | .inputQualified strap => Sys2Proof.Machine.execInputQualified strap s
  | .railPowerGood => Sys2Proof.Machine.execRailPowerGood s
  | .trip kind which => Sys2Proof.Machine.execTrip kind which s
  | .emergencyClamp => Sys2Proof.Machine.execEmergencyClamp s
  | .capEn m v => Sys2Proof.Machine.execCapEn m v s
  | .trimLoop d idx slack => Sys2Proof.Machine.execTrimLoop d idx slack s
  | .supplyDroop d idx => Sys2Proof.Machine.execSupplyDroop d idx s
  | .placementMove d => Sys2Proof.Machine.execPlacementMove d s
  | .placementMoveEnd d => Sys2Proof.Machine.execPlacementMoveEnd d s
  | .placeEn m d v => Sys2Proof.Machine.execPlaceEn m d v s
  | .dieTemperatureSample d temps => Sys2Proof.Machine.execDieTemperatureSample d temps s
  | .coolantFlowLow => Sys2Proof.Machine.execCoolantFlowLow s
  | .easyEntry => Sys2Proof.Machine.execEasyEntry s
  | .easyWakeN => Sys2Proof.Machine.execEasyWakeN s
  | .easyResume => Sys2Proof.Machine.execEasyResume s
  | .dailyReplan => Sys2Proof.Machine.execDailyReplan s
  | .advance m => Sys2Proof.Machine.execAdvance m s
  | .getVersion who => Sys2Proof.Machine.execGetVersion who s
  | .getCapabilities who => Sys2Proof.Machine.execGetCapabilities who s
  | .negotiateAlgorithms who sig hash => Sys2Proof.Machine.execNegotiateAlgorithms who sig hash s
  | .getDigests who => Sys2Proof.Machine.execGetDigests who s
  | .getCertificate who slot off len => Sys2Proof.Machine.execGetCertificate who slot off len s
  | .challenge who slot => Sys2Proof.Machine.execChallenge who slot s
  | .getMeasurements who index sign => Sys2Proof.Machine.execGetMeasurements who index sign s
  | .requestUpdate who => Sys2Proof.Machine.execRequestUpdate who s
  | .passComponentTable who => Sys2Proof.Machine.execPassComponentTable who s
  | .updateComponent who len => Sys2Proof.Machine.execUpdateComponent who len s
  | .requestFirmwareData data => Sys2Proof.Machine.execRequestFirmwareData data s
  | .transferComplete who => Sys2Proof.Machine.execTransferComplete who s
  | .verifyComplete who => Sys2Proof.Machine.execVerifyComplete who s
  | .applyComplete who ok => Sys2Proof.Machine.execApplyComplete who ok s
  | .activateFirmware who => Sys2Proof.Machine.execActivateFirmware who s
  | .getStatus who => Sys2Proof.Machine.execGetStatus who s
  | .cancelUpdate who => Sys2Proof.Machine.execCancelUpdate who s
  | .nonceExpiry => Sys2Proof.Machine.execNonceExpiry s
  | .moduleReset => Sys2Proof.Machine.execModuleReset s
  | .moduleResetRelease strap => Sys2Proof.Machine.execModuleResetRelease strap s
  | .bootRom => Sys2Proof.Machine.execBootRom s
  | .coxInit => Sys2Proof.Machine.execCoxInit s
  | .coxInitTimeout => Sys2Proof.Machine.execCoxInitTimeout s
  | .riggerTraining bad => Sys2Proof.Machine.execRiggerTraining bad s
  | .memoryTraining lanes => Sys2Proof.Machine.execMemoryTraining lanes s
  | .bootRestore => Sys2Proof.Machine.execBootRestore s
  | .bootTiles => Sys2Proof.Machine.execBootTiles s
  | .setdasa addr dyn => Sys2Proof.Machine.execSetdasa addr dyn s
  | .entdaa dyn => Sys2Proof.Machine.execEntdaa dyn s
  | .tapReset => Sys2Proof.Machine.execTapReset s
  | .extest v => Sys2Proof.Machine.execExtest v s
  | .idcode => Sys2Proof.Machine.execIdcode s
  | .samplePreload pins preload => Sys2Proof.Machine.execSamplePreload pins preload s
  | .extestPulse v => Sys2Proof.Machine.execExtestPulse v s
  | .extestTrain v => Sys2Proof.Machine.execExtestTrain v s
  | .clamp => Sys2Proof.Machine.execClamp s
  | .highz => Sys2Proof.Machine.execHighz s
  | .dbgToken token => Sys2Proof.Machine.execDbgToken token s
  | .dbgAccess v => Sys2Proof.Machine.execDbgAccess v s
  | .dietest v => Sys2Proof.Machine.execDietest v s
  | .bypass => Sys2Proof.Machine.execBypass s
  | .dietestStart m v => Sys2Proof.Machine.execDietestStart m v s
  | .dietestDone mem lane => Sys2Proof.Machine.execDietestDone mem lane s
  | .illegalInstruction t word => Sys2Proof.Machine.execIllegalInstruction t word s
  | .instructionFetchFault t => Sys2Proof.Machine.execInstructionFetchFault t s
  | .checkpointApplyEnd => Sys2Proof.Machine.execCheckpointApplyEnd s
  | .wayCleanEnd d way => Sys2Proof.Machine.execWayCleanEnd d way s
  | .longOperationStart h => Sys2Proof.Machine.execLongOperationStart h s
  | .nextSafePoint h => Sys2Proof.Machine.execNextSafePoint h s
  | .vknPortTrained k p bad => Sys2Proof.Machine.execVknPortTrained k p bad s
  | .laneMarginLow what k p m => Sys2Proof.Machine.execLaneMarginLow what k p m s
  | .pcieLinkChange speed width err => Sys2Proof.Machine.execPcieLinkChange speed width err s
  | .perstNRelease => Sys2Proof.Machine.execPerstNRelease s
  | .configurationWrite mse bme c => Sys2Proof.Machine.execConfigurationWrite mse bme c s

end Sys2Proof.Machine
end

