-- ==== Sys2Proof/Machine/Step.lean ====
section
/-!
DEFINITION. One step: the command at the front of the queue has its effect.
-/
namespace Sys2Proof.Machine

-- log 1: DESIGN CHOICE, safe.
/-- The command at the front of the queue is executed with the rest of the queue; on an empty queue the module idles (log 1). -/
def step (s : State) : Host.Outcome State Fault Refusal :=
  match s.pending with
  | [] => .next s
  | c :: q => exec c { s with pending := q }

-- log 1: DESIGN CHOICE, safe; log 3: DESIGN CHOICE, safe; log 114: DEDUCED, unsafe.
/-- The state with the command that a word spells at the front of its queue; no word spells one. -/
def State.withFetchWord (s : State) (nbits w : Nat) : State :=
  match decodeTableWord nbits w with
  | some c => { s with pending := c :: s.pending }
  | none => s

end Sys2Proof.Machine
end

