-- ==== Sys2Proof/WellFormed.lean ====
section
/-!
DEFINITION. Well-formed commands: the operands that the hardware can carry where their types allow more. An ill-formed command
still has a meaning (it mostly changes nothing).
-/
namespace Sys2Proof

/-- Port p of block k exists: three ports of each compute die, eight of the hub, block 8 (Table 10.1). -/
def portExists (k p : Nat) : Bool := (k < 8 && p < 3) || (k == 8 && p < 8)

/-- A master that exists: logical tiles are 0 to 255. -/
def Master.wf : Master → Bool
  | .tile t => t < 256
  | _ => true

def Instr.wf : Instr → Bool
  | .stkSourceSelect m _ | .stkPeriodWrite m _ | .evtEn m _ | .stkNumLoad m _ | .strokeLoadCancel m _ => m.wf
  | .catchEventWrite m _ j _ => m.wf && j != 3
  | .conditionalBranch _ cond _ _ _ => cond.toNat < 6
  | .clean m _ slot _ | .flush m _ slot _ | .invalidate m _ slot _ | .zero m _ slot _ | .prefetch m _ slot _ => m.wf && slot.toNat < 33
  | .invalidateAll m _ slot _ | .wayToScratch m _ slot _ | .wayToCache m _ slot _ | .flushAll m _ slot _ => m.wf && slot.toNat < 33
  | .wayDisable m _ slot _ | .wayEnable m _ slot _ | .burnisherCancel m _ slot => m.wf && slot.toNat < 33
  | .flit k p _ _ _ | .recoveryEnd k p _ | .vknDrainLimit k p | .vknPortTrained k p _ => portExists k.toNat p.toNat
  | .recov m k p | .vknPortEn m k p _ => m.wf && portExists k.toNat p.toNat
  | .rasQPop m k _ | .rasInject m k _ => m.wf && k.toNat < 9
  | .registerWrite m _ _ => m.wf
  | .allreduce m _ ws | .reduce m _ ws | .broadcast m _ ws | .allgather m _ ws => m.wf && ws.length == 4
  | .reduceScatter m _ ws | .barrier m _ ws | .crewPut m _ ws => m.wf && ws.length == 4
  | .pairHello _ _ ws _ => ws.length == 12
  | .image _ _ _ data => data.length ≤ 4096
  | .coll _ _ _ _ _ _ _ _ n _ | .ectPut _ _ _ _ _ _ _ n _ => n.toNat ≤ 4096
  | .hostWrite _ _ n _ _ => 0 < n.toNat && n.toNat ≤ 512
  | .hostRead _ _ n _ => 0 < n.toNat && n.toNat ≤ 4096
  | .bar2Resize log2 => 30 ≤ log2.toNat && log2.toNat ≤ 42
  | .trip kind _ => 0 < kind.toNat && kind.toNat ≤ 6 && kind != 3
  | .trimLoop _ i slack => i.toNat < 34 && slack != 3
  | .supplyDroop _ i => i.toNat < 34
  | .dieTemperatureSample d temps => d.toNat < 9 && !temps.isEmpty
  | .riggerTraining bad => bad.length ≤ 72
  | .memoryTraining lanes => lanes.length ≤ 64
  | .laneMarginLow what k p _ => what != 0 || portExists k.toNat p.toNat
  | _ => true

end Sys2Proof
end

