-- ==== Sys2Proof/Safety.lean ====
section
/-!
DEFINITION. What counts as a safe step and a safe run, and the terms in which the statements speak: when a tile or a block
executes a command, what a command may change, and the results the spec's tables give.
-/
namespace Sys2Proof

open Sys2Proof.Machine

/-- A step is safe when it answers a next state: neither a fault nor a refusal. -/
def SafeStep (s : State) : Prop := ∃ t, step s = .next t

/-- A run of k steps is safe when none of them faults or is refused. -/
def SafeRun (k : Nat) (s : State) : Prop := ∃ t, core.run k s = .next t

/-- The memory of a state is in its canonical form. -/
def MemoryCanonical (s : State) : Prop := Memory.wf s.mem = true

/-! ### Tile instructions -/

/-- The core of tile t executes an instruction that reads these registers: it runs, nothing stills it, its fetch address
has bits [63:48] zero (R68), and no register it reads has bad parity (R371). -/
def Executes (s : State) (t : BitVec 8) (reads : List ParReg) : Prop :=
  s.runs t.toNat = true ∧ (s.tile t.toNat).pcHigh = 0 ∧ ∀ r ∈ reads, (s.tile t.toNat).parBad.contains r = false

/-- The next instruction of tile t ends no loop body, and the tile does not single-step at user level. -/
def InSequence (s : State) (t : Nat) : Prop :=
  (s.tile t).atLoopEnd 0 = false ∧ (s.tile t).atLoopEnd 1 = false ∧
    ((s.tile t).user && (s.tile t).cf csrStatus stSstep == 1) = false

/-- What differs between s and u belongs to tile t or is the count of free values used. -/
def TileOnly (s u : State) (t : Nat) : Prop :=
  (∀ k, k ≠ t → u.tile k = s.tile k) ∧ (∀ a, u.rd a = s.rd a) ∧ (∀ a, u.byte a = s.byte a) ∧
    u = { s with tiles := u.tiles, free := u.free }

/-- What an integer register instruction writes (Tables 3.3 and 3.4, R55, R479): its tile, the registers it reads, its
destination and the value. A shift immediate with a nonzero imm14[13:6] is not among them (R65). -/
def integerResult (s : State) : Instr → Option (BitVec 8 × List ParReg × BitVec 5 × Word)
  | .add t rd a b => some (t, [.s a.toNat, .s b.toNat], rd, BitVec.ofInt 64 ((R t a).toInt + (R t b).toInt))
  | .sub t rd a b => some (t, [.s a.toNat, .s b.toNat], rd, BitVec.ofInt 64 ((R t a).toInt - (R t b).toInt))
  | .andReg t rd a b => some (t, [.s a.toNat, .s b.toNat], rd, R t a &&& R t b)
  | .orReg t rd a b => some (t, [.s a.toNat, .s b.toNat], rd, R t a ||| R t b)
  | .xorReg t rd a b => some (t, [.s a.toNat, .s b.toNat], rd, R t a ^^^ R t b)
  | .sll t rd a b => some (t, [.s a.toNat, .s b.toNat], rd, BitVec.ofNat 64 ((R t a).toNat * 2 ^ ((R t b).toNat % 64)))
  | .srl t rd a b => some (t, [.s a.toNat, .s b.toNat], rd, BitVec.ofNat 64 ((R t a).toNat / 2 ^ ((R t b).toNat % 64)))
  | .sra t rd a b => some (t, [.s a.toNat, .s b.toNat], rd, BitVec.ofInt 64 ((R t a).toInt / 2 ^ ((R t b).toNat % 64)))
  | .slt t rd a b => some (t, [.s a.toNat, .s b.toNat], rd, if (R t a).toInt < (R t b).toInt then 1 else 0)
  | .sltu t rd a b => some (t, [.s a.toNat, .s b.toNat], rd, if (R t a).toNat < (R t b).toNat then 1 else 0)
  | .minS t rd a b => some (t, [.s a.toNat, .s b.toNat], rd, BitVec.ofInt 64 (min (R t a).toInt (R t b).toInt))
  | .maxS t rd a b => some (t, [.s a.toNat, .s b.toNat], rd, BitVec.ofInt 64 (max (R t a).toInt (R t b).toInt))
  | .minu t rd a b => some (t, [.s a.toNat, .s b.toNat], rd, BitVec.ofNat 64 (min (R t a).toNat (R t b).toNat))
  | .maxu t rd a b => some (t, [.s a.toNat, .s b.toNat], rd, BitVec.ofNat 64 (max (R t a).toNat (R t b).toNat))
  | .mul t rd a b => some (t, [.s a.toNat, .s b.toNat], rd, BitVec.ofInt 64 ((R t a).toInt * (R t b).toInt))
  | .mulh t rd a b => some (t, [.s a.toNat, .s b.toNat], rd, BitVec.ofInt 64 ((R t a).toInt * (R t b).toInt / 2 ^ 64))
  | .mulhu t rd a b => some (t, [.s a.toNat, .s b.toNat], rd, BitVec.ofNat 64 ((R t a).toNat * (R t b).toNat / 2 ^ 64))
  | .divS t rd a b => some (t, [.s a.toNat, .s b.toNat], rd,
      if R t b = 0 then BitVec.allOnes 64 else BitVec.ofInt 64 ((R t a).toInt.tdiv (R t b).toInt))
  | .divu t rd a b => some (t, [.s a.toNat, .s b.toNat], rd,
      if R t b = 0 then BitVec.allOnes 64 else BitVec.ofNat 64 ((R t a).toNat / (R t b).toNat))
  | .rem t rd a b => some (t, [.s a.toNat, .s b.toNat], rd, BitVec.ofInt 64 ((R t a).toInt.tmod (R t b).toInt))
  | .remu t rd a b => some (t, [.s a.toNat, .s b.toNat], rd, BitVec.ofNat 64 ((R t a).toNat % (R t b).toNat))
  | .addi t rd a i => some (t, [.s a.toNat], rd, BitVec.ofInt 64 ((R t a).toInt + i.toInt))
  | .andi t rd a i => some (t, [.s a.toNat], rd, R t a &&& BitVec.ofNat 64 i.toNat)
  | .ori t rd a i => some (t, [.s a.toNat], rd, R t a ||| BitVec.ofNat 64 i.toNat)
  | .xori t rd a i => some (t, [.s a.toNat], rd, R t a ^^^ BitVec.ofNat 64 i.toNat)
  | .slli t rd a i => if i.toNat < 64 then some (t, [.s a.toNat], rd, BitVec.ofNat 64 ((R t a).toNat * 2 ^ i.toNat)) else none
  | .srli t rd a i => if i.toNat < 64 then some (t, [.s a.toNat], rd, BitVec.ofNat 64 ((R t a).toNat / 2 ^ i.toNat)) else none
  | .srai t rd a i => if i.toNat < 64 then some (t, [.s a.toNat], rd, BitVec.ofInt 64 ((R t a).toInt / 2 ^ i.toNat)) else none
  | .slti t rd a i => some (t, [.s a.toNat], rd, if (R t a).toInt < i.toInt then 1 else 0)
  | .sltiu t rd a i => some (t, [.s a.toNat], rd, if (R t a).toNat < (BitVec.ofInt 64 i.toInt).toNat then 1 else 0)
  | .moveWide t rd sh false i => some (t, [], rd, BitVec.ofNat 64 (i.toNat * 2 ^ (16 * sh.toNat)))
  | .fmvXD t rd a => some (t, [.f a.toNat], rd, (s.tile t.toNat).rf a.toNat)
  | _ => none
where
  R (t : BitVec 8) (r : BitVec 5) : Word := (s.tile t.toNat).rs r.toNat

/-- How many leading bits a word has that are 0: bit 63 - i is 0 for each i below k, and bit 63 - k is 1 when k is below 64. -/
def LeadingZeros (w : Word) (k : Nat) : Prop :=
  k ≤ 64 ∧ (∀ i, i < k → w.getLsbD (63 - i) = false) ∧ (k < 64 → w.getLsbD (63 - k) = true)

def TrailingZeros (w : Word) (k : Nat) : Prop :=
  k ≤ 64 ∧ (∀ i, i < k → w.getLsbD i = false) ∧ (k < 64 → w.getLsbD k = true)

/-- COND of a conditional branch (Table 3.4): equal, not equal, less, not less, and the last two unsigned. -/
def branchTaken (cond : Nat) (a b : Word) : Bool :=
  match cond with
  | 0 => a == b
  | 1 => a != b
  | 2 => decide (a.toInt < b.toInt)
  | 3 => decide (b.toInt ≤ a.toInt)
  | 4 => decide (a.toNat < b.toNat)
  | _ => decide (b.toNat ≤ a.toNat)

/-- n bytes from a of a tile store of die d have good parity, and no injected error waits for one of them (R370, Table 15.7). -/
def GoodBytes (s : State) (d a n : Nat) : Prop :=
  s.badIn a n = false ∧
    (s.bit (RAS_INJECT d) RAS_INJECT_ARM = false ∨ RAS_INJECT_ADDR.get (s.rd (RAS_INJECT d)) < a ∨
      a + n ≤ RAS_INJECT_ADDR.get (s.rd (RAS_INJECT d)))

/-- Tile t can enter the trap of entry `code`: FM is 0, the frame fits above fsl, and the frame and the entry lie in its own
store with good parity, apart from each other; no data of the frame stays bad (R78, R80, R369). -/
def TrapReady (s : State) (t code : Nat) : Prop :=
  (s.tile t).cf csrStatus stFm = 0 ∧ 256 + ((s.tile t).c csrFsl).toNat ≤ ((s.tile t).c csrFsp).toNat ∧
    inStore t (((s.tile t).c csrFsp).toNat - 256) 256 = true ∧ inStore t (((s.tile t).c csrTbase).toNat + 8 * code) 8 = true ∧
    GoodBytes s (t / 32) (((s.tile t).c csrTbase).toNat + 8 * code) 8 ∧ s.dataBad (((s.tile t).c csrFsp).toNat - 256) 256 = false

/-! ### Floating point -/

/-- What an FP64 instruction with one or two sources computes (Table 3.4, R55, R479): tile, registers read, whether the
destination is an f register, destination, bits and flags. -/
def fpResult (s : State) : Instr → Option (BitVec 8 × List ParReg × Bool × BitVec 5 × Nat × Nat)
  | .fadd t rd a b => some (t, [.f a.toNat, .f b.toNat], true, rd, fp64.addV (M t) (V t a) (V t b))
  | .fsub t rd a b => some (t, [.f a.toNat, .f b.toNat], true, rd, fp64.addV (M t) (V t a) (V t b).negate)
  | .fmul t rd a b => some (t, [.f a.toNat, .f b.toNat], true, rd, (fp64.ofV (M t) (mulV (V t a) (V t b)).1).1,
      Nat.lor (fp64.ofV (M t) (mulV (V t a) (V t b)).1).2 (mulV (V t a) (V t b)).2)
  | .fdiv t rd a b => some (t, [.f a.toNat, .f b.toNat], true, rd, fp64.divV (M t) (V t a) (V t b))
  | .fsqrt t rd a => some (t, [.f a.toNat], true, rd, fp64.sqrtV (M t) (V t a))
  | .fmin t rd a b => some (t, [.f a.toNat, .f b.toNat], true, rd, fp64.minMax false (B t a) (B t b))
  | .fmax t rd a b => some (t, [.f a.toNat, .f b.toNat], true, rd, fp64.minMax true (B t a) (B t b))
  | .feq t rd a b => some (t, [.f a.toNat, .f b.toNat], false, rd,
      if (V t a).isNan || (V t b).isNan then (0, if V t a = .nan true ∨ V t b = .nan true then 16 else 0)
      else (if (V t a).cmp (V t b) = .eq then 1 else 0, 0))
  | .flt t rd a b => some (t, [.f a.toNat, .f b.toNat], false, rd,
      if (V t a).isNan || (V t b).isNan then (0, 16) else (if (V t a).cmp (V t b) = .lt then 1 else 0, 0))
  | .fle t rd a b => some (t, [.f a.toNat, .f b.toNat], false, rd,
      if (V t a).isNan || (V t b).isNan then (0, 16) else (if (V t a).cmp (V t b) = .gt then 0 else 1, 0))
  | .fmadd t rd a b c => some (t, [.f a.toNat, .f b.toNat, .f c.toNat], true, rd, fp64.fmaV (M t) (V t a) (V t b) (V t c))
  | .fmsub t rd a b c => some (t, [.f a.toNat, .f b.toNat, .f c.toNat], true, rd, fp64.fmaV (M t) (V t a) (V t b) (V t c).negate)
  | .fnmadd t rd a b c => some (t, [.f a.toNat, .f b.toNat, .f c.toNat], true, rd,
      fp64.fmaV (M t) (V t a).negate (V t b) (V t c).negate)
  | .fnmsub t rd a b c => some (t, [.f a.toNat, .f b.toNat, .f c.toNat], true, rd, fp64.fmaV (M t) (V t a).negate (V t b) (V t c))
  | .fcvtDL t rd a => some (t, [.s a.toNat], true, rd, fp64.round (M t) ((S t a).toInt < 0) (S t a).toInt.natAbs 0 false)
  | .fcvtDLu t rd a => some (t, [.s a.toNat], true, rd, fp64.round (M t) false (S t a).toNat 0 false)
  | .fcvtLD t rd a => some (t, [.f a.toNat], false, rd,
      ((toIntV (M t) (-2 ^ 63) (2 ^ 63 - 1) (V t a)).1 % 2 ^ 64).toNat, (toIntV (M t) (-2 ^ 63) (2 ^ 63 - 1) (V t a)).2)
  | .fcvtLuD t rd a => some (t, [.f a.toNat], false, rd,
      (toIntV (M t) 0 (2 ^ 64 - 1) (V t a)).1.toNat, (toIntV (M t) 0 (2 ^ 64 - 1) (V t a)).2)
  | _ => none
where
  S (t : BitVec 8) (r : BitVec 5) : Word := (s.tile t.toNat).rs r.toNat
  B (t : BitVec 8) (r : BitVec 5) : Nat := ((s.tile t.toNat).rf r.toNat).toNat
  V (t : BitVec 8) (r : BitVec 5) : FVal := fp64.decode (B t r)
  M (t : BitVec 8) : Nat := (s.tile t.toNat).frm

/-- The class bit of R479 that an FP64 encoding has: sign, exponent field and fraction field decide it. -/
def fp64Class (w : Word) : Nat :=
  let neg := w.getLsbD 63
  let ex := w.toNat / 2 ^ 52 % 2 ^ 11
  let fr := w.toNat % 2 ^ 52
  if ex = 2047 then (if fr = 0 then (if neg then 0 else 7) else if fr < 2 ^ 51 then 8 else 9)
  else if ex = 0 then (if fr = 0 then (if neg then 3 else 4) else (if neg then 2 else 5))
  else (if neg then 1 else 6)

/-- The number that ±m × 2^e stands for. -/
def realOf (neg : Bool) (m : Nat) (e : Int) : ℚ := (if neg then -1 else 1) * (m : ℚ) * (2 : ℚ) ^ e

/-! ### CSRs -/

/-- The CSR accesses that leave every RSV bit clear and need no other check: CSR n of tile t with description d, which the
present level may access, the drains idle where the access is a write. -/
def CsrMay (s : State) (t : BitVec 8) (n : Nat) (op : Nat) (rs1 : BitVec 5) (d : Machine.CsrDesc) : Prop :=
  csrDesc n = some d ∧ ((s.tile t.toNat).user && userBad d n op ((s.tile t.toNat).c n) ((s.tile t.toNat).rs rs1.toNat)) = false ∧
    (op ≠ 0 → (s.tile t.toNat).drainBusy = false)

/-! ### Vector instructions -/

/-- Registers r, r + 1, … of an operand of width w form a group that grp allows (R88). -/
def GroupOk (x : Tile) (r w : Nat) : Prop := x.gf * w / x.ew ≤ 8 ∧ r % max 1 (x.gf * w / x.ew) = 0

/-- Tile t's core executes a vector instruction that reads these registers and writes these vector registers, none of which a
drain names (R133). -/
def VecExecutes (s : State) (t : BitVec 8) (reads : List ParReg) (writes : List Nat) : Prop :=
  Executes s t reads ∧ ∀ d ∈ (s.tile t.toNat).dUnit, ∀ r ∈ writes, d.regs.contains r = false

/-- An element-wise instruction (Tables 4.8 and 4.9): tile, destination and first source, third operand (0 a vector register,
1 a scalar register, 2 none), format and PM codes, the classes that are legal, whether the group limit of 2 holds, whether
it reads its destination, and the bits of a result element from those of the first source, the operand and the destination. -/
structure VecForm where
  t : BitVec 8
  d : Nat
  a : Nat
  b : Nat
  opnd : Nat
  fmt : Nat
  pm : Nat
  legal : Bool
  four : Bool
  dest : Bool
  val : Nat → Nat → Nat → Nat

/-- An integer result reduced to its low bits, or a rounded floating-point result. -/
def intOrFp (f : Nat) (fi : Int → Int → Int → Int) (ff : FpFmt → Nat → Nat → Nat → Nat) (a b c : Nat) : Nat :=
  if isF f then ff (fpOf f) a b c else (fi (intOf f a) (intOf f b) (intOf f c) % 2 ^ fmtW f).toNat

/-- v held within the range of an element of format f. -/
def heldIn (f : Nat) (v : Int) : Int := max (loOf f) (min (hiOf f) v)

/-- The element-wise forms, with the value the spec gives each element (R99 to R103, R149). -/
def vectorForm (s : State) : Instr → Option VecForm
  | .vadd t vs d a b f pm => some (two t vs d a b f pm isFIQ false
      (intOrFp f.toNat (fun a b _ => a + b) fun g a b _ => (g.addV (m t) (g.decode a) (g.decode b)).1))
  | .vsub t vs d a b f pm => some (two t vs d a b f pm isFIQ false
      (intOrFp f.toNat (fun a b _ => a - b) fun g a b _ => (g.addV (m t) (g.decode a) (g.decode b).negate).1))
  | .vmul t vs d a b f pm => some (two t vs d a b f pm clsFI false
      (intOrFp f.toNat (fun a b _ => a * b) fun g a b _ => (g.ofV (m t) (mulV (g.decode a) (g.decode b)).1).1))
  | .vdiv t vs d a b f pm => some (two t vs d a b f pm isF true
      fun a b _ => ((fpOf f.toNat).divV (m t) ((fpOf f.toNat).decode a) ((fpOf f.toNat).decode b)).1)
  | .vmin t vs d a b f pm => some (two t vs d a b f pm isFIQ false
      (intOrFp f.toNat (fun a b _ => min a b) fun g a b _ => (g.minMax false a b).1))
  | .vmax t vs d a b f pm => some (two t vs d a b f pm isFIQ false
      (intOrFp f.toNat (fun a b _ => max a b) fun g a b _ => (g.minMax true a b).1))
  | .vand t vs d a b f pm => some (two t vs d a b f pm clsIQ false fun a b _ => Nat.land a b)
  | .vor t vs d a b f pm => some (two t vs d a b f pm clsIQ false fun a b _ => Nat.lor a b)
  | .vxor t vs d a b f pm => some (two t vs d a b f pm clsIQ false fun a b _ => Nat.xor a b)
  | .vsll t vs d a b f pm => some (two t vs d a b f pm clsIQ false fun a b _ => a * 2 ^ (b % fmtW f.toNat) % 2 ^ fmtW f.toNat)
  | .vsrl t vs d a b f pm => some (two t vs d a b f pm clsIQ false fun a b _ => a / 2 ^ (b % fmtW f.toNat))
  | .vsra t vs d a b f pm => some (two t vs d a b f pm clsIQ false
      fun a b _ => (intOf f.toNat a / 2 ^ (b % fmtW f.toNat) % 2 ^ fmtW f.toNat).toNat)
  | .vfma t vs d a b f pm => some { two t vs d a b f pm clsFI false
      (intOrFp f.toNat (fun a b c => c + a * b) fun g a b c => (g.fmaV (m t) (g.decode a) (g.decode b) (g.decode c)).1)
      with dest := true }
  | .vfnms t vs d a b f pm => some { two t vs d a b f pm clsFI false
      (intOrFp f.toNat (fun a b c => c - a * b) fun g a b c => (g.fmaV (m t) (g.decode a).negate (g.decode b) (g.decode c)).1)
      with dest := true }
  | .vsadd t vs d a b f pm => some (two t vs d a b f pm clsIQ false
      fun a b _ => (heldIn f.toNat (intOf f.toNat a + intOf f.toNat b) % 2 ^ fmtW f.toNat).toNat)
  | .vssub t vs d a b f pm => some (two t vs d a b f pm clsIQ false
      fun a b _ => (heldIn f.toNat (intOf f.toNat a - intOf f.toNat b) % 2 ^ fmtW f.toNat).toNat)
  | .vaadd t d a b f pm => some (two t false d a b f pm clsIQ false
      fun a b _ => (roundoff (intOf f.toNat a + intOf f.toNat b) 1 (fx t) % 2 ^ fmtW f.toNat).toNat)
  | .vasub t d a b f pm => some (two t false d a b f pm clsIQ false
      fun a b _ => (roundoff (intOf f.toNat a - intOf f.toNat b) 1 (fx t) % 2 ^ fmtW f.toNat).toNat)
  | .smulVv t d a b f pm => some (two t false d a b f pm isQ false (smul f.toNat (fx t)))
  | .smulVs t d a b f pm => some (two t true d a b f pm isQ false (smul f.toNat (fx t)))
  | .ssr t d a b f pm => some (two t true d a b f pm clsIQ false
      fun a b _ => (roundoff (intOf f.toNat a) (b % fmtW f.toNat) (fx t) % 2 ^ fmtW f.toNat).toNat)
  | .vneg t d a f pm => some (one t d a f pm isFIQ false fun a _ _ =>
      if isF f.toNat then Nat.xor a (2 ^ (fmtW f.toNat - 1)) else (- intOf f.toNat a % 2 ^ fmtW f.toNat).toNat)
  | .vabs t d a f pm => some (one t d a f pm isFIQ false fun a _ _ =>
      if isF f.toNat then a % 2 ^ (fmtW f.toNat - 1) else ((intOf f.toNat a).natAbs % 2 ^ fmtW f.toNat))
  | .vsqrt t d a f pm => some (one t d a f pm isF true fun a _ _ => ((fpOf f.toNat).sqrtV (m t) ((fpOf f.toNat).decode a)).1)
  | .vnot t d a f pm => some (one t d a f pm clsIQ false fun a _ _ => 2 ^ fmtW f.toNat - 1 - a)
  | .vcopy t d a f pm => some (one t d a f pm isFIQ false fun a _ _ => a)
  | _ => none
where
  m (t : BitVec 8) : Nat := (s.tile t.toNat).vfrm
  fx (t : BitVec 8) : Nat := (s.tile t.toNat).vxrm
  smul (f x a b _c : Nat) : Nat := (heldIn f (roundoff (intOf f a * intOf f b) (fmtW f - 1) x) % 2 ^ fmtW f).toNat
  two (t : BitVec 8) (vs : Bool) (d a b f : BitVec 5) (pm : BitVec 4) (cls : Nat → Bool) (four : Bool)
      (val : Nat → Nat → Nat → Nat) : VecForm :=
    { t := t, d := d.toNat, a := a.toNat, b := b.toNat, opnd := if vs then 1 else 0, fmt := f.toNat, pm := pm.toNat,
      legal := cls f.toNat, four := four, dest := false, val := val }
  one (t : BitVec 8) (d a f : BitVec 5) (pm : BitVec 4) (cls : Nat → Bool) (four : Bool) (val : Nat → Nat → Nat → Nat) : VecForm :=
    { t := t, d := d.toNat, a := a.toNat, b := 0, opnd := 2, fmt := f.toNat, pm := pm.toNat,
      legal := cls f.toNat, four := four, dest := false, val := val }

/-- The registers an element-wise form reads. -/
def VecForm.reads (v : VecForm) (x : Tile) : List ParReg :=
  (if v.dest then vregs x v.d (fmtW v.fmt) else []) ++ vregs x v.a (fmtW v.fmt) ++
    (if v.opnd = 0 then vregs x v.b (fmtW v.fmt) else if v.opnd = 1 then [scalarReg v.fmt v.b] else []) ++ pmReads v.pm

/-- The configuration checks of an element-wise form pass (R88, R93, R117). -/
def VecForm.ok (v : VecForm) (x : Tile) : Prop :=
  v.fmt < 12 ∧ v.legal = true ∧ v.pm ≠ 8 ∧ GroupOk x v.d (fmtW v.fmt) ∧ GroupOk x v.a (fmtW v.fmt) ∧
    (v.opnd = 0 → GroupOk x v.b (fmtW v.fmt)) ∧ (v.four = true → x.gf * fmtW v.fmt / x.ew ≤ 2)

/-- y differs from x in what a vector instruction with these destination registers may change before it retires. -/
def VecOnly (x y : Tile) (dest : Nat → Prop) : Prop :=
  (∀ r, ¬ dest r → y.rv r = x.rv r) ∧ y = { x with v := y.v, vecGated := false }

/-- len is at most the VLMAX of grp in every tile (R87, R90). -/
def LensWithin (s : State) : Prop := ∀ t, (s.tile t).len ≤ (s.tile t).vlmax

/-! ### Matrix engine -/

/-- The matrix units of tile t are empty, not paused, hold no stream and no error, and the tile is imprecise. -/
def MatrixIdle (x : Tile) : Prop :=
  x.kUnit = [] ∧ x.dUnit = [] ∧ x.kPause = .none ∧ x.kErr = none ∧ x.cf csrMprog mpHeld = 0 ∧ x.precise = false

/-- Element e of a bank as the drain chain reads it, of 16,384. -/
def BankKept (x y : Tile) (bank : Nat) : Prop := ∀ b e, b < 3 → b ≠ bank → e < 16384 → y.accAt b e = x.accAt b e

/-- The K-stream k is the only operation of tile t's units and runs without a panel scale over one panel
of a format that is not MX, from the first K index, its operands in the own store with good parity. -/
def PlainStream (s : State) (t : Nat) (k : KOp) : Prop :=
  (s.tile t).kUnit = [k] ∧ (s.tile t).dUnit = [] ∧ (s.tile t).mode = .running ∧ (s.tile t).kPause = .none ∧ s.stilled t = false ∧
    k.kind = .stream ∧ k.started = true ∧ k.psa = false ∧ k.psb = false ∧ k.pages = [] ∧ k.done = 0 ∧ 0 < k.k ∧
    k.k ≤ 128 ∧ k.bank < 3 ∧ isMX k.afmt = false ∧ isMX k.bfmt = false ∧ (s.tile t).parBad.contains (.acc k.bank) = false ∧
    inStore t k.a (k.k * 16 * fmtW k.afmt) = true ∧ inStore t k.b (k.k * 16 * fmtW k.bfmt) = true

/-! ### Messages, buckles and the data mover -/

/-- A descriptor at va of tile t, at supervisor level, that passes the checks of R174 and R175 without a completion record: its
eight doublewords ws, of operation op. -/
def PostOk (s : State) (t va op : Nat) (ws : List Word) : Prop :=
  (s.tile t).user = false ∧ va % 64 = 0 ∧ inStore t va 64 = true ∧ GoodBytes s (t / 32) va 64 ∧
    ws = ((List.range 8).map fun i => BitVec.ofNat 64 (s.bytes (va + 8 * i) 8)) ∧ dmVersion ws = false ∧
    dmMalformed ws t = false ∧ dmCrec ws = 0 ∧ dmOp ws = op ∧
    (dmCbv ws = true → dmCb ws ≤ 16383) ∧ (dmRbv ws = true → dmRb ws ≤ 16383) ∧ (dmGbv ws = true → dmGb ws ≤ 16383)

/-- An active slot of tile t, alone, whose descriptor copies one contiguous unit inside the own store, not yet started: no gate,
no buckles, no interrupt, no record. -/
def OneUnitCopy (s : State) (t : Nat) (q : DmSlot) : Prop :=
  (s.tile t).dmSlots = [q] ∧ s.stilled t = false ∧ q.gated = false ∧ q.next = 0 ∧ q.host = none ∧ q.ending = none ∧ s.dataBad (dmDst q.entry.words) (dmSize q.entry.words) = false ∧
    q.entry.user = false ∧
    dmOp q.entry.words = 0 ∧ dmCount q.entry.words = 1 ∧ q.entry.crec = 0 ∧ dmRbv q.entry.words = false ∧
    dmCbv q.entry.words = false ∧ dmIrq q.entry.words = false ∧ dmSize q.entry.words ≤ 65536 ∧
    inStore t (dmSrc q.entry.words) (dmSize q.entry.words) = true ∧ inStore t (dmDst q.entry.words) (dmSize q.entry.words) = true ∧
    s.bit (RAS_INJECT (t / 32)) RAS_INJECT_ARM = false ∧ s.badIn (dmSrc q.entry.words) (dmSize q.entry.words) = false ∧
    s.drain? (.mover t) = none ∧ s.links.buckles = [] ∧ s.reach (t / 32) (t / 32) = true

/-! ### Storage -/

/-- The Burnisher's eleven operations (Table 8.2) with the command that submits each to slot `slot` of die d. -/
def burnCommands (m : Master) (d : BitVec 3) (slot : BitVec 6) (v : Word) : List (Nat × Instr) :=
  [(1, .clean m d slot v), (2, .flush m d slot v), (3, .invalidate m d slot v), (4, .zero m d slot v), (5, .prefetch m d slot v),
    (8, .invalidateAll m d slot v), (9, .wayToScratch m d slot v), (10, .wayToCache m d slot v), (11, .flushAll m d slot v),
    (12, .wayDisable m d slot v), (13, .wayEnable m d slot v)]

/-- The command that a write of v to LLS_BURN_CMD of a slot submits. -/
def burnCmdOf (s : State) (d slot op : Nat) (v : Word) : BurnCmd :=
  { slot := slot, op := op, way := LLS_BURN_CMD_WAY.get v, addr := s.fld (LLS_BURN_ADDR d slot) LLS_BURN_ADDR_ADDR
    len := s.fld (LLS_BURN_LEN d slot) LLS_BURN_LEN_LEN
    cb := if LLS_BURN_CMD_CBV.get v = 1 then some (LLS_BURN_CMD_CB.get v) else none }

/-- The state u differs from s in no byte of memory, no tile and no command that waits. -/
def Quiet (s u : State) : Prop := u.mem = s.mem ∧ u.tiles = s.tiles ∧ u.pending = s.pending

/-- No line of die d is valid and dirty. -/
def NoDirtyLine (s : State) (d : Nat) : Prop :=
  ∀ k, k / 1048576 = d → ((s.line k).valid && (s.line k).dirty) = false

/-- Requester m may write slot k of the Burnisher of die n: the Cox slot 32, tile k of the die its own (R208). -/
def OwnsSlot (m : Master) (n k : Nat) : Prop := m = .cox ∧ k = 32 ∨ k < 32 ∧ m = .tile (32 * n + k)

/-- The command c of die n has ended in u with this RESULT and LINES (R213). -/
def BurnEnded (u : State) (n : Nat) (c : BurnCmd) (result lines : Nat) : Prop :=
  u.bit (LLS_BURN_STATUS n c.slot) LLS_BURN_STATUS_BUSY = false ∧ u.bit (LLS_BURN_STATUS n c.slot) LLS_BURN_STATUS_RUN = false ∧
    u.bit (LLS_BURN_STATUS n c.slot) LLS_BURN_STATUS_DONE = true ∧ u.fld (LLS_BURN_STATUS n c.slot) LLS_BURN_STATUS_RESULT = result ∧
    u.fld (LLS_BURN_STATUS n c.slot) LLS_BURN_STATUS_LINES = lines

/-- The only valid line of die n in the range of c is that of key k: dirty, of good parity, of a memory that takes writes. -/
def OneLineIn (s : State) (n k : Nat) (c : BurnCmd) : Prop :=
  SMap.wf noLine s.store.lines = true ∧ k / 1048576 = n ∧ (s.line k).valid = true ∧ (s.line k).dirty = true ∧ (s.line k).bad = 0 ∧
    s.memDown (memOf (s.line k).addr) = false ∧ c.addr ≤ (s.line k).addr ∧ (s.line k).addr < c.addr + 128 * c.len ∧
    ∀ q ∈ s.store.lines, q.1 ≠ k → q.1 / 1048576 = n → q.2.valid = true → q.2.addr < c.addr ∨ c.addr + 128 * c.len ≤ q.2.addr

/-- From s to u the data of the line of key k reached its 128 bytes of memory, and no other byte changed. -/
def WrittenBack (s u : State) (k : Nat) : Prop :=
  u.bytes (s.line k).addr 128 = (s.line k).data.toNat ∧
    ∀ b, b < (s.line k).addr ∨ (s.line k).addr + 128 ≤ b → u.byte b = s.byte b

/-- In u no line of way w of die n is valid, and the other ways have the state that they had in s. -/
def WayCleared (s u : State) (n w : Nat) : Prop :=
  (∀ k, k / 1048576 = n → k % 16 = w → (u.line k).valid = false) ∧
    ∀ v, v ≠ w → v < 16 → u.way n 0 v = s.way n 0 v ∧ u.way n 16 v = s.way n 16 v ∧ u.way n 32 v = s.way n 32 v

/-- The six operations of a context streamer (Table 9.8) with the command that submits each through slot i of die d. -/
def streamCommands (m : Master) (d : BitVec 3) (i : BitVec 6) (w0 w1 w2 w3 : Word) : List (Nat × Instr) :=
  [(1, .fetch m d i w0 w1 w2 w3), (2, .evict m d i w0 w1 w2 w3), (3, .stage m d i w0 w1 w2 w3), (4, .append m d i w0 w1 w2 w3),
    (5, .writeback m d i w0 w1 w2 w3), (6, .drop m d i w0 w1 w2 w3)]

/-- The streamer command that the four words of slot i spell (Table 9.7, R242). -/
def cxsCmdOf (s : State) (i op : Nat) (w0 w1 w2 w3 : Word) : CxsCmd :=
  { slot := i, op := op, ctx := w0.toNat / 2 ^ 48 % 128, first := w0.toNat % 2 ^ 24, count := w0.toNat / 2 ^ 24 % 2 ^ 24
    start := s.nearStroke (w1.toNat / 2 ^ 32), due := s.nearStroke (w1.toNat % 2 ^ 32), sfmt := w2.toNat / 2 ^ 59
    dst := w2.toNat % 2 ^ 48, cb := if w3.getLsbD 63 then some (w3.toNat / 2 ^ 49 % 2 ^ 14) else none
    crec := w3.toNat % 2 ^ 48, running := false, done := 0, waits := false, ending := none }

/-- The home of the line at l, of HBM or the bulk tier, serves it: no error is armed there, its memory takes accesses, and the line is
neither listed nor under restoration. -/
def LineServed (s : State) (l : Nat) : Prop :=
  l % 128 = 0 ∧ (regionOf l = .hbm (memOf l) ∨ regionOf l = .bulk (memOf l)) ∧ s.bit (RAS_INJECT (homeDie l)) RAS_INJECT_ARM = false ∧
    s.homeDown (homeDie l) (memOf l) = false ∧ s.restoring l = false ∧ s.lineListed (homeDie l) l = false ∧
    s.pageListed (homeDie l) l = false

/-- An access of class c to n bytes at a, inside one line that its home serves, reaches memory itself: the line is not held, the class
does not allocate, and its codewords are good. -/
def MemoryServes (s : State) (c : Cls) (a n : Nat) : Prop :=
  let l := a / 128 * 128
  0 < n ∧ a % 128 + n ≤ 128 ∧ LineServed s l ∧ regionOf a = regionOf l ∧ s.hit (homeDie l) l = none ∧ s.allocates (homeDie l) c = false ∧
    s.cwErrors a = [] ∧ s.cwErrors (a + n - 1) = []

/-- Nothing stops a write of n bytes at a: no partner image or mirrored region covers it, and its data is good. -/
def WriteFree (s : State) (a n : Nat) : Prop := s.imageCovers a n = false ∧ s.regionMode a = none ∧ s.dataBad a n = false

/-- From s to u the n bytes at a became v, and no other byte changed. -/
def Stored (s u : State) (a n v : Nat) : Prop := u.bytes a n = v % 256 ^ n ∧ ∀ b, b < a ∨ a + n ≤ b → u.byte b = s.byte b

/-- No request of the host waits, and the function answers. -/
def HostCalm (s : State) : Prop := s.hostOpen = true ∧ s.host.posted = [] ∧ s.host.reads = []

/-! ### The Cox -/

/-- The state in which the Cox has taken the request r from its queue and renewed its session's lease. -/
def taken (s : State) (r : CoxReq) : State := s.coxPop.renew r

/-- The Cox serves the command of this code, the only one in its queue: the device is READY, the header is in order, and the
request r names an open session x of its origin whose role is enough (R275, R280). -/
def CoxServes (s : State) (code need : Nat) (member : Bool) (r : CoxReq) (x : Session) : Prop :=
  s.cox.queue = [r] ∧ r.cmd = code ∧ s.coxIdle = false ∧ s.bit DEV_STATUS DEV_STATUS_READY = true ∧ r.growth = false ∧
    (s.sessionOf r).isSome = true ∧ (taken s r).sessionOf r = some x ∧ roleOk x.role need member = true

/-- The command i is served: in state v, in which it has had its effect, the Cox answers a. -/
def CoxDone (s : State) (i : Instr) (r : CoxReq) (v : State) (a : Ans) : Prop := exec i s = .next (v.coxAnswer r a)

/-- i is the Cox command of this code, which needs this role and which a MEMBER session may send or not (Tables 11.8 and 13.5); HELLO
has no session yet. -/
def IsCoxCommand (refused : Bool) (code need : Nat) (member : Bool) (i : Instr) : Prop :=
  (code, need, member, i) ∈ [(0x0002, 0, true, .bye), (0x0003, 0, true, .ping), (0x0004, 0, false, .eventRead), (0x0005, 0, false, .eventMask),
    (0x0010, 0, false, .lopQuery), (0x0011, 1, false, .lopSuspend), (0x0012, 1, false, .lopResume), (0x0013, 1, false, .lopCancel),
    (0x0014, 0, false, .lopList), (0x0020, 0, false, .devInfo), (0x0021, 0, false, .telemSnap), (0x0022, 0, false, .nwtSum),
    (0x0023, 0, false, .logRead), (0x0024, 0, false, .retireRead), (0x0030, 1, false, .ringCreate), (0x0031, 1, false, .ringDestroy),
    (0x0038, 1, false, .winMap), (0x0039, 1, false, .winUnmap), (0x0040, 1, false, .tileStart), (0x0041, 1, false, .tileRestart),
    (0x0042, 2, false, .tileReset), (0x0043, 1, false, .tileHalt), (0x0044, 1, false, .tileNote), (0x0048, 1, false, .eventArm),
    (0x0049, 1, false, .eventFree), (0x0050, 2, false, .strokeCfg), (0x0051, 2, false, .strokeLoad), (0x0060, 2, false, .scrub),
    (0x0061, 1, false, .burnish), (0x0062, 2, false, .llsWay), (0x0063, 2, false, .memOnline), (0x0070, 2, false, .fabCfg),
    (0x0071, 1, false, .crewForm), (0x0072, 1, false, .crewLeave), (0x0073, 0, false, .crewStatus), (0x0080, 2, false, .pairJoin),
    (0x0081, 2, false, .pairLeave), (0x0082, 1, false, .mirrorRegion refused), (0x0083, 1, false, .journalCfg),
    (0x0090, 2, false, .powerCap), (0x0091, 2, false, .easyEnter), (0x0092, 2, false, .marginReplan), (0x0093, 0, false, .patinaRead),
    (0x00A0, 2, false, .fwStage), (0x00A1, 2, false, .fwActivate), (0x00A2, 2, false, .debugUnlock), (0x00B0, 2, false, .dataReset),
    (0x00B1, 2, false, .reclaim), (0x0100, 3, true, .crewJoin), (0x0101, 3, true, .crewRoster), (0x0102, 3, true, .crewReady),
    (0x0103, 3, true, .crewDepart), (0x0104, 3, true, .crewQuery)]

/-- The record of a new operation of session x with these arguments (R286). -/
def newLop (s : State) (r : CoxReq) (x : Session) (args : List Nat) : Lop :=
  { handle := s.newHandle, cmd := r.cmd, state := 0, status := 0, progress := 0, total := 0, startTick := 0, endTick := 0
    cause := 0, session := if r.kept.isSome then 0 else x.num, party := x.party, client := x.client, detach := r.detach, suspend := false
    cancel := false, args := args, result := [] }

/-- In v the operation of request r has been added, QUEUED, to those of s, and a accepts it with its handle. -/
def LopAdded (s v : State) (r : CoxReq) (x : Session) (args : List Nat) (a : Ans) : Prop :=
  v.cox.lops = s.cox.lops ++ [newLop s r x args] ∧ v.cox.nextHandle = handleAfter s.newHandle ∧ a.status = 1 ∧ a.handle = s.newHandle

/-- Fewer than 1,024 operations are live (R286). -/
def LopRoom (s : State) : Prop := s.lopsFull = false

/-! ### Crews and the fabric -/

/-- The eight doublewords of a crew descriptor with operation op (Table 13.6). -/
def crewDescriptor (op : Nat) (ws : List Word) : List Word :=
  (List.range 8).map fun j => if j = 0 then (⟨56, 4⟩ : Fld).put (ws.getD 0 0) op else ws.getD j 0

/-- The operation that slot i submits with these doublewords, as it waits for its phase. -/
def newCrewOp (i : Nat) (words : List Word) : CrewOp :=
  { crew := field (words.getD 0 0) 47 38, slot := i, words := words, started := false, late := false, start := 0, stretch := 0, fail := none
    flags := 0, chunks := [], moved := [], barrier := [], reading := false }

/-- A write of n bytes by the crew engine into the store of tile t at a is performed at once: no route, move or recovery holds it, and its
data is good. -/
def CrewStores (s : State) (t a n : Nat) : Prop :=
  regionOf a = .store t ∧ s.flows 8 (dieOf a) = true ∧ s.stilled t = false ∧ s.dataBad a n = false

/-- Operation o has left with STATUS st (R337), seen where it has no record or one in a tile's store that takes it at once: no other operation
left with it, the count follows, its buckle received 1, and its record stands. -/
def CrewFinished (s u : State) (o : CrewOp) (st : Nat) : Prop :=
  (o.f 4 47 0 = 0 ∨ (∃ t, CrewStores s t (o.f 4 47 0) 16) →
      u.fabric.ops = s.fabric.ops.filter (fun x => !x.same o.crew o.phase o.opid)) ∧
    (o.f 4 47 0 = 0 → u.fld CRW_STATUS CRW_STATUS_QCOUNT = u.fabric.ops.length % 2 ^ 13) ∧
    (o.f 4 47 0 = 0 → u.mem = s.mem) ∧
    (o.f 4 47 0 = 0 → o.f 4 63 63 = 1 → s.moving (o.f 4 62 49 / 64) = false → (s.buckle (o.f 4 62 49)).waiters = [] → (s.buckle (o.f 4 62 49)).count + 1 < bkMax →
      u.buckle (o.f 4 62 49) = ⟨(s.buckle (o.f 4 62 49)).count + 1, []⟩) ∧
    (∀ t, CrewStores s t (o.f 4 47 0) 16 → o.f 4 47 0 ≠ 0 → st < 256 →
      u.bytes (o.f 4 47 0) 8 = st * 2 ^ 56 + o.flags % 32 * 2 ^ 51 + (if o.late then 2 ^ 50 else 0) ∧
      u.bytes (o.f 4 47 0 + 8) 8 = s.now.toNat % 2 ^ 32 * 2 ^ 32 ∧
      ∀ b, b < o.f 4 47 0 ∨ o.f 4 47 0 + 16 ≤ b → u.byte b = s.byte b)

/-- What a packet that is not discarded leaves in its context (R319, R325, R331). -/
def heardCtx (s : State) (p : Nat) (x : PeerCtx) (h : Hdr) (src : Nat) : PeerCtx :=
  { x with
    heard := s.now.toNat % 2 ^ 32, addr := some src, udp := if x.addr.isNone then s.portUdp p else x.udp,
    rctx := some (hSrc.get h.w0), sstate := h.w3.toNat / 2 ^ 30 % 4, aged := h.w3.getLsbD 29
    skew := (h.w3.toNat / 2 ^ 32 + 2 ^ 32 - s.now.toNat % 2 ^ 32) % 2 ^ 32 }

/-- A packet of this type and length that acknowledges nothing arrives in order on an up port for an open context c with nothing waiting: it
is taken, and no acknowledgement is due at once (R319 to R321). -/
def TakenInOrder (s : State) (p : BitVec 3) (h : Hdr) (src : BitVec 128) (typ len c : Nat) : Prop :=
  s.fabUp p.toNat = true ∧ s.ectBad h src.toNat typ len = false ∧ hAckv.get h.w0 = 0 ∧ hEce.get h.w0 = 0 ∧ c = hDst.get h.w0 ∧
    (s.ctx c).link.wait = [] ∧ (s.ctx c).link.got = [] ∧ (s.ctx c).link.expect = h.w1.toNat / 2 ^ 32 ∧ (s.ctx c).link.owed < 7 ∧
    (s.ctx c).early = []

/-! ### The pair -/

/-- A pair frame of this type arrives in order on an up port that is not miscabled, with nothing waiting on the link, no write held, no
granule to copy, no checkpoint half sent, and a partner in none of the states of R361. -/
def PairInOrder (s : State) (p : BitVec 1) (h : Hdr) (typ : Nat) : Prop :=
  s.pairPort p.toNat = true ∧ s.bit (MIR_PSTATUS p.toNat) MIR_PSTATUS_MISCABLED = false ∧ pairGrowth h = false ∧ hTyp.get h.w0 = typ ∧
    phState.get h.w0 ≠ 5 ∧ phState.get h.w0 ≠ 7 ∧ s.mirror.link.unacked = [] ∧ s.mirror.link.wait = [] ∧ s.mirror.link.got = [] ∧
    s.mirror.link.expect = h.w0.toNat % 2 ^ 32 ∧ s.mirror.link.owed < 7 ∧ s.store.held = [] ∧ s.mirror.copying = [] ∧
    ∀ c, s.mirror.ckpt = some c → c.ended = true

/-- The engine hears a frame in order (R346, R348): the link moves on where the frame consumes a PSN, MIR_HEARD shows the stroke, and the
partner's serial number and bits are noted. -/
def HeardPair (s u : State) (h : Hdr) (psn : Bool) : Prop :=
  u.fld MIR_HEARD MIR_HEARD_PAIR = s.now.toNat % 2 ^ 32 ∧ u.mirror.serial = h.w3.toNat ∧ u.mirror.partnerUp = (phCoxUp.get h.w0 == 1) ∧
    u.mirror.partnerActv = (phActv.get h.w0 == 1) ∧
    u.mirror.link.expect = (if psn then (s.mirror.link.expect + 1) % 2 ^ 32 else s.mirror.link.expect) ∧
    (∀ a, a ≠ MIR_HEARD → u.rd a = s.rd a)

/-! ### Boot -/

/-- u is as power-on or module reset leaves s (Table 18.1): nothing of the data plane or of the Cox is held; the fuses, the boot flash with
its records and error log, the patina plan and the commands that wait are. Without tiles set aside by fuse every logical tile has its own
slot (R475). -/
def WipedFrom (s u : State) : Prop :=
  u.tiles = State.reset.tiles ∧ u.mem = State.reset.mem ∧ u.cox.sessions = State.reset.cox.sessions ∧ u.cox.lops = State.reset.cox.lops ∧
    u.ras.log = State.reset.ras.log ∧ u.fuses = s.fuses ∧ u.sec.flash = s.sec.flash ∧ u.ras.flashLog = s.ras.flashLog ∧
    u.ras.flashRecs = s.ras.flashRecs ∧ u.power.plan = s.power.plan ∧ u.pending = s.pending ∧ u.rd SEC_FUSE = s.rd SEC_FUSE ∧
    (s.fuses.setAside = [] → ∀ t, t < 256 → u.physOf t = 34 * (t / 32) + t % 32)

/-- Boot stage n runs, at boot and not within a DATA_RESET (R433). -/
def BootsStage (s : State) (n : Nat) : Prop :=
  s.fld DEV_STATUS DEV_STATUS_STAGE = n ∧ s.boot.stageDone = false ∧ s.boot.held = false ∧ s.boot.dataReset = none

/-- Stage n has ended: stage n + 1 runs where `need` rails are good, and waits for them otherwise (Table 18.2). -/
def StageEnded (s u : State) (n need : Nat) : Prop :=
  (need ≤ s.boot.rails → u.fld DEV_STATUS DEV_STATUS_STAGE = n + 1 ∧ u.boot.stageDone = false ∧ u.boot.stageTick = s.stroke.ticks) ∧
    (s.boot.rails < need → u.fld DEV_STATUS DEV_STATUS_STAGE = n ∧ u.boot.stageDone = true)

end Sys2Proof
end

