-- ==== Sys2Proof/Certificates/Slice0/Obligations.lean ====
section
/-!
DEFINITION. The statements for the provers, each with the rule of the spec that it formalises.
-/

open Sys2Proof
open Sys2Proof.Machine

/-- The command at the front of the queue is executed with the rest of the queue; an empty queue idles (log 1). -/
def Obligations.StepRunsFrontCommand : Prop :=
  (∀ (c : Instr) (q : List Instr) (s : State), step { s with pending := c :: q } = exec c { s with pending := q }) ∧
  (∀ s : State, s.pending = [] → step s = .next s)

/-- Every command answers a next state in every state: none faults and none is refused. -/
def Obligations.EveryCommandAnswersNext : Prop := ∀ (c : Instr) (s : State), ∃ u, exec c s = .next u

/-- No command changes the queue of waiting commands. -/
def Obligations.CommandsLeaveQueue : Prop := ∀ (c : Instr) (s u : State), exec c s = .next u → u.pending = s.pending

/-- Every step keeps the memory in its canonical form. -/
def Obligations.StepKeepsMemoryCanonical : Prop :=
  ∀ s u : State, MemoryCanonical s → step s = .next u → MemoryCanonical u

/-- The memory after reset is in its canonical form, lists nothing, and no command waits (logs 1 and 4). -/
def Obligations.ResetMemoryCanonical : Prop :=
  MemoryCanonical State.reset ∧ State.reset.mem = [] ∧ State.reset.pending = [] ∧ ∀ a, State.reset.byte a = 0

/-- Registers whose reset values the register tables give hold them at reset; every tile is in its start state with s0 to s31 zero
(log 5), no rail is up, no session is open, no operation is live and no crew is formed. -/
def Obligations.ResetValues : Prop :=
  let s := State.reset
  s.fld STK_PERIOD STK_PERIOD_PERIOD_NS = 20000 ∧ s.fld STK_STATUS STK_STATUS_STATE = 0 ∧ s.rd STK_NOW = 0 ∧
    s.rd STK_GRP_OWNER = 0xFFFFFFFFFFFF0000 ∧ s.fld THM_THR THM_THR_WARN = 95 ∧ s.fld THM_THR THM_THR_THROT = 105 ∧
    s.fld ESURA_LEVEL ESURA_LEVEL_LEVEL = 2 ∧ s.fld DEV_STATUS DEV_STATUS_STAGE = 0 ∧ s.bit DEV_STATUS DEV_STATUS_READY = false ∧
    (∀ d, d < 8 → s.bit (LLS_CTRL d) LLS_CTRL_EN = false ∧ s.bit (LLS_STATUS d) LLS_STATUS_TAGS_VALID = false) ∧
    (∀ i, i < 512 → s.fld (STK_EVT_W3 i) STK_EVT_W3_STATE = 0) ∧ s.fld SEC_DEBUG SEC_DEBUG_LEVEL = 0 ∧ s.pstate = 0 ∧
    (∀ t, s.tile t = Tile.start ∧ (∀ r, (s.tile t).rs r = 0) ∧ (s.tile t).user = false) ∧
    s.boot.rails = 0 ∧ s.cox.sessions = [] ∧ s.cox.lops = [] ∧ s.fabric.crews = [] ∧ s.tap = Tap.init ∧ s.tap.ir = 1

/-- R87, R89, R90: every step keeps len within the VLMAX of grp in every tile. -/
def Obligations.StepKeepsLenWithinVlmax : Prop := ∀ s u : State, LensWithin s → step s = .next u → LensWithin u

/-- An integer instruction writes its result to its destination and retires. clz, ctz and popc count leading zeros, trailing zeros
and ones; a move-wide with KEEP 1 replaces one 16-bit field. -/
def Obligations.IntegerInstructionResults : Prop :=
  (∀ (s : State) (i : Instr) (t : BitVec 8) (reads : List ParReg) (rd : BitVec 5) (v : Word),
     integerResult s i = some (t, reads, rd, v) → Executes s t reads → exec i s = .next (s.finS t.toNat rd.toNat v)) ∧
  (∀ (s : State) (t : BitVec 8) (rd a : BitVec 5),
     (Executes s t [.s a.toNat] →
       (∀ k, LeadingZeros ((s.tile t.toNat).rs a.toNat) k →
         exec (.clz t rd a) s = .next (s.finS t.toNat rd.toNat (BitVec.ofNat 64 k))) ∧
       (∀ k, TrailingZeros ((s.tile t.toNat).rs a.toNat) k →
         exec (.ctz t rd a) s = .next (s.finS t.toNat rd.toNat (BitVec.ofNat 64 k))) ∧
       exec (.popc t rd a) s =
         .next (s.finS t.toNat rd.toNat (BitVec.ofNat 64 (((List.range 64).map fun i =>
           ((s.tile t.toNat).rs a.toNat).toNat / 2 ^ i % 2).sum)))) ∧
     (∀ (sh : BitVec 2) (imm : BitVec 16), Executes s t [.s rd.toNat] →
       ∃ v : Word, exec (.moveWide t rd sh true imm) s = .next (s.finS t.toNat rd.toNat v) ∧
         ∀ i, i < 64 → v.getLsbD i =
           (if i / 16 = sh.toNat then imm.getLsbD (i % 16) else ((s.tile t.toNat).rs rd.toNat).getLsbD i)))

/-- What the retirement of a scalar instruction with an s destination changes when no loop body ends and the tile does not
single-step: the destination (s0 discards), the pc by 4, and the retirement count. -/
def Obligations.ScalarRetirementFrame : Prop :=
  ∀ (s : State) (t : Nat) (rd : Nat) (v : Word), InSequence s t →
    let u := s.finS t rd v
    let x := s.tile t
    let y := u.tile t
    (∀ r, y.rs r = if r = 0 then 0 else if r = rd then v else x.rs r) ∧
    y.pc = x.pc + 4 ∧
    y.c csrInstret = x.c csrInstret + 1 ∧
    (∀ n, n ≠ csrInstret → n ≠ csrStatus → y.c n = x.c n) ∧
    (x.c csrInstret ≠ BitVec.allOnes 64 → y.c csrStatus = x.c csrStatus) ∧
    (∀ r, y.rf r = x.rf r) ∧ (∀ r, y.rv r = x.rv r) ∧ (∀ r, y.rp r = x.rp r) ∧
    y.acc = x.acc ∧ y.inbox = x.inbox ∧ y.outbox = x.outbox ∧ y.dmQueue = x.dmQueue ∧ y.dmSlots = x.dmSlots ∧
    y.kUnit = x.kUnit ∧ y.dUnit = x.dUnit ∧ y.raised = x.raised ∧ y.waits = x.waits ∧
    TileOnly s u t

/-- R62: at the last instruction of an active body, a COUNT above 1 decreases and the pc becomes lsN; a COUNT of 1 becomes 0 and
execution falls through; lc1's back-edge comes first, and lc0's applies only when lc1 falls through. -/
def Obligations.LoopBackEdge : Prop :=
  ∀ (s : State) (t : Nat), ((s.tile t).user && (s.tile t).cf csrStatus stSstep == 1) = false →
    let x := s.tile t
    let y := (s.retire1 t).tile t
    (x.atLoopEnd 1 = true → 1 < x.cf (csrLc 1) lcCount →
      y.pc = (x.c (csrLs 1)).setWidth 48 ∧ y.cf (csrLc 1) lcCount = x.cf (csrLc 1) lcCount - 1 ∧ y.c (csrLc 0) = x.c (csrLc 0)) ∧
    (x.atLoopEnd 1 = true → x.cf (csrLc 1) lcCount = 1 → x.atLoopEnd 0 = false →
      y.pc = x.pc + 4 ∧ y.cf (csrLc 1) lcCount = 0 ∧ y.c (csrLc 0) = x.c (csrLc 0)) ∧
    ((x.atLoopEnd 1 = false ∨ x.cf (csrLc 1) lcCount = 1) → x.atLoopEnd 0 = true →
      (1 < x.cf (csrLc 0) lcCount →
        y.pc = (x.c (csrLs 0)).setWidth 48 ∧ y.cf (csrLc 0) lcCount = x.cf (csrLc 0) lcCount - 1) ∧
      (x.cf (csrLc 0) lcCount = 1 → y.pc = x.pc + 4 ∧ y.cf (csrLc 0) lcCount = 0))

/-- jal, jalr, the conditional branches and loop, outside the end of a loop body and without a single step: the pc goes to the
target (or in sequence), the link register holds pc + 4, and loop sets lcN and lsN. R67: ecall goes to entryN at supervisor level
with s31 holding the address after it, without a frame; cret returns to s31 at user level. -/
def Obligations.ControlTransfers : Prop :=
  (∀ (s : State) (t : BitVec 8), InSequence s t.toNat →
     let x := s.tile t.toNat
     (∀ rd off, Executes s t [] → ∃ u, exec (.jal t rd off) s = .next u ∧
       (u.tile t.toNat).pc = BitVec.ofInt 48 (x.pc.toNat + 4 * off.toInt) ∧
       (∀ r, (u.tile t.toNat).rs r = if r = 0 then 0 else if r = rd.toNat then (x.pc + 4).setWidth 64 else x.rs r) ∧
       TileOnly s u t.toNat) ∧
     (∀ rd a imm, Executes s t [.s a.toNat] → ∃ u, exec (.jalr t rd a imm) s = .next u ∧
       let target := (BitVec.ofInt 64 ((x.rs a.toNat).toInt + imm.toInt)).toNat / 4 * 4
       (u.tile t.toNat).pc.toNat = target % 2 ^ 48 ∧ (u.tile t.toNat).pcHigh.toNat = target / 2 ^ 48 ∧
       (∀ r, (u.tile t.toNat).rs r = if r = 0 then 0 else if r = rd.toNat then (x.pc + 4).setWidth 64 else x.rs r) ∧
       TileOnly s u t.toNat) ∧
     (∀ cond a b off, Executes s t [.s a.toNat, .s b.toNat] → cond.toNat < 6 →
       ∃ u, exec (.conditionalBranch t cond a b off) s = .next u ∧
       (u.tile t.toNat).pc =
         (if branchTaken cond.toNat (x.rs a.toNat) (x.rs b.toNat) then BitVec.ofInt 48 (x.pc.toNat + 4 * off.toInt) else x.pc + 4) ∧
       (∀ r, (u.tile t.toNat).rs r = x.rs r) ∧ TileOnly s u t.toNat) ∧
     (∀ pair a body, Executes s t [.s a.toNat] → x.drainBusy = false → (x.rs a.toNat).toNat % 2 ^ 32 ≠ 0 →
       ∃ u, exec (.loopStart t pair a body) s = .next u ∧
       let n := if pair then 1 else 0
       (u.tile t.toNat).pc = x.pc + 4 ∧
       (u.tile t.toNat).cf (csrLc n) lcCount = (x.rs a.toNat).toNat % 2 ^ 32 ∧
       (u.tile t.toNat).cf (csrLc n) lcBody = body.toNat ∧
       (u.tile t.toNat).c (csrLs n) = (x.pc + 4).setWidth 64 ∧
       (∀ r, (u.tile t.toNat).rs r = x.rs r) ∧ TileOnly s u t.toNat) ∧
     (∀ pair a body, Executes s t [.s a.toNat] → x.drainBusy = false → (x.rs a.toNat).toNat % 2 ^ 32 = 0 →
       ∃ u, exec (.loopStart t pair a body) s = .next u ∧
       (u.tile t.toNat).pc.toNat = (x.pc.toNat + 4 + 4 * (body.toNat + 1)) % 2 ^ 48 ∧
       (u.tile t.toNat).cf (csrLc (if pair then 1 else 0)) lcCount = 0 ∧ TileOnly s u t.toNat)) ∧
  (∀ (s : State) (t : BitVec 8), InSequence s t.toNat → (s.tile t.toNat).drainBusy = false →
     let x := s.tile t.toNat
     (∀ n : BitVec 2, Executes s t [.csr (0x008 + n.toNat)] → ∃ u, exec (.ecall t n) s = .next u ∧
       (u.tile t.toNat).pc.toNat = (x.c (0x008 + n.toNat)).toNat % 2 ^ 48 ∧ (u.tile t.toNat).user = false ∧
       (u.tile t.toNat).rs 31 = (x.pc + 4).setWidth 64 ∧ (∀ r, r ≠ 31 → (u.tile t.toNat).rs r = x.rs r) ∧
       (u.tile t.toNat).c csrFsp = x.c csrFsp ∧ TileOnly s u t.toNat) ∧
     (Executes s t [.s 31] → x.user = false → ∃ u, exec (.cret t) s = .next u ∧
       (u.tile t.toNat).pc.toNat = (x.rs 31).toNat / 4 * 4 % 2 ^ 48 ∧ (u.tile t.toNat).user = true ∧
       (∀ r, (u.tile t.toNat).rs r = x.rs r) ∧ TileOnly s u t.toNat) ∧
     (Executes s t [.s 31] → x.user = true → ∃ w, exec (.cret t) s = .next (s.exc t.toNat 0x02 0 w)))

/-- A shift immediate with a nonzero imm14[13:6] raises ILLEGAL with SUB 0 and writes nothing of its own. ebreak raises BREAK and
completes in the entry of R78: epc and the frame hold its pc, cause the code 0x0E, and the core goes on at supervisor level at the
address of entry 0x0E; an ILLEGAL word raises ILLEGAL with the subcode of its fault, and a fetch fault raises the code of its check.
R68 to R70, R76: an access whose address has bits [63:48] set, or at user level meets no entry or lacks a permission, raises the
code of its check and leaves memory and registers alone. R65, R66: a CSR number that is not assigned raises ILLEGAL, a user access
that the level does not allow raises PRIVILEGED, and a write with a nonzero RSV bit raises ILLEGAL with SUB 1. -/
def Obligations.ScalarCoreTraps : Prop :=
  (∀ (s : State) (t : BitVec 8) (rd a : BitVec 5) (imm : BitVec 14), 64 ≤ imm.toNat → Executes s t [.s a.toNat] →
     (∃ w, exec (.slli t rd a imm) s = .next (s.exc t.toNat 0x01 0 w)) ∧
     (∃ w, exec (.srli t rd a imm) s = .next (s.exc t.toNat 0x01 0 w)) ∧
     (∃ w, exec (.srai t rd a imm) s = .next (s.exc t.toNat 0x01 0 w))) ∧
  (∀ (s : State) (t : BitVec 8), Executes s t [] →
     (InSequence s t.toNat → (s.tile t.toNat).drainBusy = false → exec (.ebreak t) s = .next (s.exc t.toNat 0x0E 0 0)) ∧
     (InSequence s t.toNat → (s.tile t.toNat).drainBusy = false → TrapReady s t.toNat 0x0E → ∃ u, exec (.ebreak t) s = .next u ∧
       ((u.tile t.toNat).c csrEpc).toNat = (s.tile t.toNat).pc.toNat ∧ ((u.tile t.toNat).c csrCause).toNat = 0x0E ∧
       (u.tile t.toNat).c csrTval = 0 ∧ (u.tile t.toNat).user = false ∧ (u.tile t.toNat).cf csrStatus stFm = 1 ∧
       (u.tile t.toNat).cf csrMask mkLevel = 7 ∧ (u.tile t.toNat).mode = .running ∧
       ((u.tile t.toNat).c csrFsp).toNat = ((s.tile t.toNat).c csrFsp).toNat - 256 ∧
       u.bytes (((s.tile t.toNat).c csrFsp).toNat - 256) 8 = (s.tile t.toNat).pc.toNat ∧
       (u.tile t.toNat).pc.toNat = s.bytes (((s.tile t.toNat).c csrTbase).toNat + 8 * 0x0E) 8 / 4 * 4 % 2 ^ 48 ∧
       (∀ r, (u.tile t.toNat).rs r = (s.tile t.toNat).rs r) ∧ (∀ r, (u.tile t.toNat).rf r = (s.tile t.toNat).rf r) ∧
       (∀ k, k ≠ t.toNat → u.tile k = s.tile k) ∧ ∀ a, u.rd a = s.rd a) ∧
     (∀ (w : BitVec 32) (sub : Nat), illegalSub w.toNat = some sub →
       exec (.illegalInstruction t w) s = .next (s.exc t.toNat 0x01 sub (w.setWidth 64))) ∧
     (∀ (rd a b : BitVec 5), -- group 0x0 with a nonzero unused field, and an unlisted group
       illegalSub (rd.toNat * 2 ^ 23 + a.toNat * 2 ^ 18 + b.toNat * 2 ^ 13 + 2 ^ 6) = some 0) ∧
     illegalSub 0xF0000000 = some 2 ∧
     (∀ (w : BitVec 32) (sub : Nat), illegalSub w.toNat = some sub → sub ≤ 2) ∧
     (∀ code, s.translate t.toNat (s.tile t.toNat).user .fetch (s.tile t.toNat).pc.toNat = .error code →
       exec (.instructionFetchFault t) s = .next (s.exc t.toNat code 0 ((s.tile t.toNat).pc.setWidth 64))) ∧
     (∀ a, s.translate t.toNat (s.tile t.toNat).user .fetch (s.tile t.toNat).pc.toNat = .ok a →
       inStore t.toNat a 4 = false →
       exec (.instructionFetchFault t) s = .next (s.exc t.toNat 0x03 0 ((s.tile t.toNat).pc.setWidth 64)))) ∧
  (∀ (s : State) (t : BitVec 8) (rd a : BitVec 5) (imm : BitVec 14),
     let va := (BitVec.ofInt 64 (((s.tile t.toNat).rs a.toNat).toInt + imm.toInt)).toNat
     (Executes s t [.s a.toNat] → 2 ^ 48 ≤ va → exec (.ld t rd a imm) s = .next (s.exc t.toNat 0x0A 0 (BitVec.ofNat 64 va))) ∧
     (Executes s t [.s rd.toNat, .s a.toNat] → 2 ^ 48 ≤ va →
       exec (.sd t rd a imm) s = .next (s.exc t.toNat 0x0B 0 (BitVec.ofNat 64 va))) ∧
     (Executes s t [.s a.toNat] → va < 2 ^ 48 → (s.tile t.toNat).user = true → (∀ i, i < 1024 → s.xlatHit t.toNat va i = false) →
       exec (.lbu t rd a imm) s = .next (s.exc t.toNat 0x04 0 (BitVec.ofNat 64 va))) ∧
     (Executes s t [.s rd.toNat, .s a.toNat] → va < 2 ^ 48 → (s.tile t.toNat).user = true →
       (∀ i, i < 1024 → s.xlatHit t.toNat va i = false) →
       exec (.sb t rd a imm) s = .next (s.exc t.toNat 0x05 0 (BitVec.ofNat 64 va)))) ∧
  (∀ (s : State) (t : BitVec 8) (rd a : BitVec 5) (csr : BitVec 12),
     let n := csr.toNat
     (csrDesc n = none → Executes s t [.csr n] → ∃ w, exec (.csrRead t rd a csr) s = .next (s.exc t.toNat 0x01 0 w)) ∧
     (∀ d, csrDesc n = some d → d.sup = true → (s.tile t.toNat).user = true →
       (Executes s t [.csr n] → ∃ w, exec (.csrRead t rd a csr) s = .next (s.exc t.toNat 0x02 0 w)) ∧
       (Executes s t [.csr n, .s a.toNat] → ∃ w, exec (.csrWrite t rd a csr) s = .next (s.exc t.toNat 0x02 0 w))) ∧
     (∀ d, CsrMay s t n 1 a d → d.ro = false → (s.tile t.toNat).rs a.toNat &&& d.rsv ≠ 0 → n ≠ csrCycle →
       Executes s t [.csr n, .s a.toNat] → ∃ w, exec (.csrWrite t rd a csr) s = .next (s.exc t.toNat 0x01 1 w)))

/-- R77: an instruction that retires at user level with SSTEP set raises SSTEP before the next instruction, as every integer
instruction shows; at supervisor level or with SSTEP clear it does not, and eret to user level with SSTEP set is not stepped. -/
def Obligations.SingleStepRaisesSstep : Prop :=
  (∀ (s : State) (t : Nat), (s.tile t).atLoopEnd 0 = false → (s.tile t).atLoopEnd 1 = false →
    let x := { (s.tile t).countRet with pc := (s.tile t).pc + 4, mode := .running }
    s.retire1 t = (if (s.tile t).user = true ∧ (s.tile t).cf csrStatus stSstep = 1
      then (s.setTile t x).exc t 0x0F 0 0 else s.setTile t x)) ∧
  (∀ (s : State) (i : Instr) (t : BitVec 8) (reads : List ParReg) (rd : BitVec 5) (v : Word), integerResult s i = some (t, reads, rd, v) →
    Executes s t reads → (s.tile t.toNat).atLoopEnd 0 = false → (s.tile t.toNat).atLoopEnd 1 = false →
    (s.tile t.toNat).user = true → (s.tile t.toNat).cf csrStatus stSstep = 1 →
    exec i s = .next ((s.setTile t.toNat { ((s.tile t.toNat).setS rd.toNat v).countRet with
      pc := (s.tile t.toNat).pc + 4, mode := .running }).exc t.toNat 0x0F 0 0)) ∧
  (∀ (s : State) (t : BitVec 8), InSequence s t.toNat → (s.tile t.toNat).drainBusy = false → Executes s t [] → (s.tile t.toNat).user = false →
    (s.tile t.toNat).kPause = .none → inStore t.toNat ((s.tile t.toNat).c csrFsp).toNat 256 = true →
    GoodBytes s (t.toNat / 32) ((s.tile t.toNat).c csrFsp).toNat 256 → ∃ u, exec (.eret t) s = .next u ∧
    (u.tile t.toNat).c csrCause = (s.tile t.toNat).c csrCause ∧
    (u.tile t.toNat).pc.toNat = s.bytes ((s.tile t.toNat).c csrFsp).toNat 8 / 4 * 4 % 2 ^ 48)

/-- R78: an exception outside a handler saves epc, cause and tval, enters supervisor level with FM set and LEVEL 7, stacks the frame
of Table 3.13 below fsp, and goes to the address that its entry of the trap table holds. R80: an exception while FM is 1, and a trap
entry that finds fsp − 256 below fsl, freeze the tile; TIL_ESC records kind, CODE, SUB, epc and tval, no frame is stacked, and the
Cox is told. -/
def Obligations.TrapEntryAndEscalation : Prop :=
  (∀ (s : State) (t code sub : Nat) (tval : Word), TrapReady s t code → code < 0x30 → sub < 256 →
     let x := s.tile t
     let u := s.exc t code sub tval
     let y := u.tile t
     let fsp := (x.c csrFsp).toNat
     (y.c csrEpc).toNat = x.pcHigh.toNat * 2 ^ 48 + x.pc.toNat ∧ (y.c csrCause).toNat = sub * 256 + code ∧ y.c csrTval = tval ∧
     y.user = false ∧ y.cf csrStatus stFm = 1 ∧ y.cf csrMask mkLevel = 7 ∧ (y.c csrFsp).toNat = fsp - 256 ∧
     (∀ f : Fld, f.len = 1 → f.lo ≠ 0 → f.lo ≠ 8 → f.lo < 64 → y.cf csrStatus f = x.cf csrStatus f) ∧
     y.pc.toNat = s.bytes ((x.c csrTbase).toNat + 8 * code) 8 / 4 * 4 % 2 ^ 48 ∧
     y.pcHigh.toNat = s.bytes ((x.c csrTbase).toNat + 8 * code) 8 / 2 ^ 48 ∧
     (∀ r, y.rs r = x.rs r) ∧ (∀ r, y.rf r = x.rf r) ∧
     u.bytes (fsp - 256) 8 = x.pcHigh.toNat * 2 ^ 48 + x.pc.toNat ∧ u.bytes (fsp - 248) 8 = (x.c csrStatus).toNat ∧
     u.bytes (fsp - 240) 8 = (x.c csrMask).toNat ∧ u.bytes (fsp - 232) 8 = sub * 256 + code ∧
     u.bytes (fsp - 224) 8 = tval.toNat ∧
     u.bytes (fsp - 216) 8 = (x.c (csrLc 0)).toNat ∧ u.bytes (fsp - 208) 8 = (x.c (csrLs 0)).toNat ∧
     u.bytes (fsp - 200) 8 = (x.c (csrLc 1)).toNat ∧ u.bytes (fsp - 192) 8 = (x.c (csrLs 1)).toNat ∧
     (∀ k, k < 23 → u.bytes (fsp - 184 + 8 * k) 8 = (x.rs (k + 1)).toNat) ∧
     (∀ a, a < fsp - 256 ∨ fsp ≤ a → u.byte a = s.byte a) ∧ (∀ a, u.rd a = s.rd a) ∧
     (∀ k, k ≠ t → u.tile k = s.tile k)) ∧
  (∀ (s : State) (t code sub : Nat) (tval : Word), t < 256 → code < 256 → sub < 256 →
     ∀ kind, (((s.tile t).cf csrStatus stFm = 1 ∧ kind = 1) ∨
         ((s.tile t).cf csrStatus stFm = 0 ∧ ((s.tile t).c csrFsp).toNat < 256 + ((s.tile t).c csrFsl).toNat ∧ kind = 2)) →
     let u := s.exc t code sub tval
     (u.tile t).mode = .frozen ∧ u.fld (TIL_ESC t) TIL_ESC_VALID = 1 ∧ u.fld (TIL_ESC t) TIL_ESC_KIND = kind ∧
     u.fld (TIL_ESC t) TIL_ESC_CODE = code ∧ u.fld (TIL_ESC t) TIL_ESC_SUB = sub ∧
     (u.rd (TIL_ESC_EPC t)).toNat = (s.tile t).pc.toNat ∧ (u.rd (TIL_ESC_TVAL t)).toNat = tval.toNat % 2 ^ 48 ∧
     (u.tile t).pc = (s.tile t).pc ∧ (u.tile t).s = (s.tile t).s ∧ (u.tile t).f = (s.tile t).f ∧
     (kind = 1 → ∀ c, c ≠ csrMprog → (u.tile t).c c = (s.tile t).c c) ∧
     (kind = 2 → (u.tile t).c csrEpc = (s.tile t).pc.setWidth 64 + (s.tile t).pcHigh.setWidth 64 * 2 ^ 48 ∧
       ((u.tile t).c csrCause).toNat = sub * 256 + code ∧ (u.tile t).c csrTval = tval ∧ (u.tile t).user = false ∧
       (u.tile t).cf csrStatus stFm = 1 ∧ (u.tile t).cf csrMask mkLevel = 7 ∧ (u.tile t).c csrFsp = (s.tile t).c csrFsp) ∧
     ((s.tile t).kPause = .none → (u.tile t).cf csrMprog mpPaused = 1 ∧ ∀ k, (s.tile t).kUnit.head? = some k → k.kind = .stream →
       k.started = true → (u.tile t).cf csrMprog mpValid = 1 ∧ (u.tile t).cf csrMprog mpKdone = k.done % 2 ^ 32) ∧
     (u.tile t).acc = (s.tile t).acc ∧ (∀ a, u.byte a = s.byte a) ∧
     u.links.notes = s.links.notes ++ [⟨TIL_ESC t, 63, some ⟨3, kind, 0, t⟩⟩])

/-- R79: eret restores the pc, status, mask, the loop CSRs and s1 to s23 from the frame at fsp and frees the frame; at user level it
raises PRIVILEGED. -/
def Obligations.TrapReturnRestoresFrame : Prop :=
  ∀ (s : State) (t : BitVec 8), InSequence s t.toNat → (s.tile t.toNat).drainBusy = false → Executes s t [] →
    let x := s.tile t.toNat
    let fsp := (x.c csrFsp).toNat
    let w (k : Nat) : Word := BitVec.ofNat 64 (s.bytes (fsp + 8 * k) 8)
    (x.user = true → ∃ v, exec (.eret t) s = .next (s.exc t.toNat 0x02 0 v)) ∧
    (x.user = false → inStore t.toNat fsp 256 = true → GoodBytes s (t.toNat / 32) fsp 256 → x.kPause = .none →
      ∃ u, exec (.eret t) s = .next u ∧
      (u.tile t.toNat).pc.toNat = (w 0).toNat / 4 * 4 % 2 ^ 48 ∧
      (u.tile t.toNat).cf csrStatus stPriv = stPriv.get (w 1) ∧ (u.tile t.toNat).cf csrStatus stFm = stFm.get (w 1) ∧
      (u.tile t.toNat).cf csrMask mkLevel = mkLevel.get (w 2) ∧
      (u.tile t.toNat).cf (csrLc 0) lcCount = lcCount.get (w 5) ∧ (u.tile t.toNat).cf (csrLc 1) lcCount = lcCount.get (w 7) ∧
      (∀ k, k < 23 → (u.tile t.toNat).rs (k + 1) = w (9 + k)) ∧
      (∀ r, 24 ≤ r → (u.tile t.toNat).rs r = x.rs r) ∧
      ((u.tile t.toNat).c csrFsp).toNat = fsp + 256 ∧ TileOnly s u t.toNat)

/-- R84, R85, R194 and R58: the waiting instructions retire when what they wait for is over, and hold the tile as it is until then;
wfi puts the core to wait, and a pending and enabled interrupt ends the wait. R85: a tile that waits in wfi retires it once an
interrupt is pending and enabled. -/
def Obligations.WaitingAndInterrupts : Prop :=
  (∀ (s : State) (t : BitVec 8), Executes s t [] →
     let x := s.tile t.toNat
     let quiet (m : BitVec 3) : Bool := !x.drainBusy && (!m.getLsbD 0 || x.matWaited) &&
       (!m.getLsbD 1 || (x.dmQueue.isEmpty && x.dmSlots.isEmpty)) && (!m.getLsbD 2 || x.waits == 0)
     let sent (m : BitVec 3) : Bool := !(m.getLsbD 0 && s.store.outStores.any (·.tile == t.toNat)) &&
       !(m.getLsbD 1 && !x.outbox.isEmpty) && !(m.getLsbD 2 && s.links.ops.any fun o => o.tile == t.toNat && o.signals)
     (x.drainBusy = false → exec (.ifence t) s = .next (s.retire1 t.toNat)) ∧
     (x.drainBusy = false → s.wakes t.toNat = true → exec (.wfi t) s = .next (s.retire1 t.toNat)) ∧
     (x.drainBusy = false → s.wakes t.toNat = false → exec (.wfi t) s = .next (s.setTile t.toNat { x with mode := .wfi })) ∧
     (∀ m, quiet m = true → x.kErr = none → x.kPause = .none → exec (.ofence t m) s = .next (s.retire1 t.toNat)) ∧
     (∀ m, quiet m = false → x.kErr = none → x.kPause = .none → exec (.ofence t m) s = .next s) ∧
     (x.kErr = none → x.kPause = .none → x.matWaited = true → x.trapsOn ((x.c csrFflags).toNat % 32) = false →
       exec (.afence t) s = .next (s.retire1 t.toNat)) ∧
     (x.kErr = none → x.kPause = .none → x.matWaited = true → x.trapsOn ((x.c csrFflags).toNat % 32) = true →
       ∃ y, exec (.afence t) s = .next ((s.setTile t.toNat y).exc t.toNat 0x0D 0 0) ∧
         asFlags.get (y.c csrAsum) = Nat.lor (asFlags.get (x.c csrAsum)) (Nat.land ((x.c csrFflags).toNat % 32) ((x.c csrFtrap).toNat % 32))) ∧
     (∀ m, sent m = true → exec (.mfence t m) s = .next (s.retire1 t.toNat)) ∧
     (∀ m, sent m = false → exec (.mfence t m) s = .next s)) ∧
  (∀ (s : State) (t : BitVec 8), s.stilled t.toNat = false →
     ((s.tile t.toNat).mode = .wfi → s.wakes t.toNat = true → exec (.wfiWake t) s = .next (s.retire1 t.toNat)) ∧
     ((s.tile t.toNat).mode = .wfi → s.wakes t.toNat = false → exec (.wfiWake t) s = .next s) ∧
     (∀ c, s.recognised t.toNat = some c → (s.tile t.toNat).mode = .running → (c = 1 ∨ c = 2 ∨ c = 3) →
       exec (.interrupt t) s = .next (s.enterTrap t.toNat c 0 true 0 (0x30 + c) (irqLevel c))) ∧
     (∀ c, s.recognised t.toNat = some c → (s.tile t.toNat).mode = .running → (c = 4 ∨ c = 5 ∨ c = 6 ∨ c = 8) →
       exec (.interrupt t) s = .next ((s.setTile t.toNat { s.tile t.toNat with
         latched := (s.tile t.toNat).latched &&& ~~~ BitVec.ofNat 64 (2 ^ c) }).enterTrap t.toNat c 0 true 0 (0x30 + c) (irqLevel c))) ∧
     (s.recognised t.toNat = some 7 → (s.tile t.toNat).mode = .running →
       ∃ u, exec (.interrupt t) s = .next u ∧ (u.tile t.toNat).mode = .frozen) ∧
     (s.recognised t.toNat = none → exec (.interrupt t) s = .next s))

/-- R71, R72 and R74: a translation entry's words and the Cox note are written as the spec says. A CSR read answers the value of the
CSR and changes none; a write, set or clear of a plain CSR answers the old value and gives each RW field the new one. R87, R90: a
write of grp reduces len to the new VLMAX, and a write of len is capped at VLMAX; R120: a write that changes accmode.MODE with both
matrix units idle zeroes the accumulators; R139: writing 1 to mprog.VALID discards the K-stream unit. -/
def Obligations.TileRegistersAndModeCsrs : Prop :=
  (∀ (s : State) (t : BitVec 8) (v : Word),
     (∀ (m : Master) (i : BitVec 10), (m = .cox ∨ m = .tile t.toNat) → rsvBad (TIL_XLAT_W1 t.toNat i.toNat) v = false →
       ∃ u, exec (.tilXlatWrite m t i true v) s = .next u ∧ u.rd (TIL_XLAT_W1 t.toNat i.toNat) = v ∧
         u.fld (TIL_XLAT_W0 t.toNat i.toNat) TIL_XLAT_W0_V = 0 ∧
         (∀ a, a ≠ TIL_XLAT_W1 t.toNat i.toNat → a ≠ TIL_XLAT_W0 t.toNat i.toNat → u.rd a = s.rd a) ∧
         u = { s with mmio := u.mmio }) ∧
     (∀ (m : Master) (i : BitVec 10), (m = .cox ∨ m = .tile t.toNat) → rsvBad (TIL_XLAT_W0 t.toNat i.toNat) v = false →
       TIL_XLAT_W0_SIZE.get v = 0 →
       exec (.tilXlatWrite m t i false v) s = .next (s.wr (TIL_XLAT_W0 t.toNat i.toNat) v)) ∧
     (∀ (m : Master) (i : BitVec 10), (m = .cox ∨ m = .tile t.toNat) → rsvBad (TIL_XLAT_W0 t.toNat i.toNat) v = true →
       ∃ u, exec (.tilXlatWrite m t i false v) s = .next u ∧ u.fld (TIL_XLAT_ERR t.toNat) TIL_XLAT_ERR_ERR = 1 ∧
         u.fld (TIL_XLAT_ERR t.toNat) TIL_XLAT_ERR_INDEX = i.toNat ∧
         (∀ a, a ≠ TIL_XLAT_ERR t.toNat → u.rd a = s.rd a)) ∧
     (rsvBad (TIL_COX_NOTE t.toNat) v = false →
       ∃ u, exec (.tilCoxNoteWrite t v) s = .next u ∧
         u.fld (TIL_COX_NOTE t.toNat) TIL_COX_NOTE_NOTE = TIL_COX_NOTE_NOTE.get v ∧
         u.fld (TIL_COX_NOTE t.toNat) TIL_COX_NOTE_UNREAD = 1 ∧
         (s.fld (TIL_COX_NOTE t.toNat) TIL_COX_NOTE_UNREAD = 1 → u.fld (TIL_COX_NOTE t.toNat) TIL_COX_NOTE_OVR = 1) ∧
         (u.tile t.toNat).latched.getLsbD 6 = true)) ∧
  (∀ (s : State) (t : BitVec 8) (rd a : BitVec 5) (csr : BitVec 12) (d : CsrDesc),
     let n := csr.toNat
     let old := (s.tile t.toNat).c n
     let v := (s.tile t.toNat).rs a.toNat
     (CsrMay s t n 0 a d → Executes s t [.csr n] → n ≠ csrCycle → n ≠ csrTid → n ≠ csrPloc → n ≠ csrIpend →
       exec (.csrRead t rd a csr) s = .next (s.finS t.toNat rd.toNat old)) ∧
     (CsrMay s t n 0 a d → Executes s t [.csr n] → n = csrTid →
       exec (.csrRead t rd a csr) s = .next (s.finS t.toNat rd.toNat (t.setWidth 64))) ∧
     (Executes s t [.csr n, .s a.toNat] → d.ro = false → n ∉ [csrLen, csrGrp, csrFflags, csrVfx, csrAccmode, csrMprog] →
       (CsrMay s t n 1 a d → v &&& d.rsv = 0 → ∃ w, exec (.csrWrite t rd a csr) s =
         .next ((s.setTile t.toNat ((s.tile t.toNat).setC n w)).finS t.toNat rd.toNat old) ∧
         w &&& d.rw = v &&& d.rw ∧ w &&& ~~~ (d.rw ||| d.w1c) = old &&& ~~~ (d.rw ||| d.w1c)) ∧
       (CsrMay s t n 2 a d → v &&& d.rsv = 0 → ∃ w, exec (.csrSet t rd a csr) s =
         .next ((s.setTile t.toNat ((s.tile t.toNat).setC n w)).finS t.toNat rd.toNat old) ∧
         w &&& d.rw = (old ||| v) &&& d.rw ∧ w &&& ~~~ (d.rw ||| d.w1c) = old &&& ~~~ (d.rw ||| d.w1c)) ∧
       (CsrMay s t n 3 a d → ∃ w, exec (.csrClear t rd a csr) s =
         .next ((s.setTile t.toNat ((s.tile t.toNat).setC n w)).finS t.toNat rd.toNat old) ∧
         w &&& d.rw = old &&& ~~~ v &&& d.rw ∧ w &&& ~~~ d.rw = old &&& ~~~ d.rw))) ∧
  (∀ (s : State) (t : BitVec 8) (rd a : BitVec 5) (op : BitVec 2),
     let x := s.tile t.toNat
     let v := x.rs a.toNat
     (∀ d, CsrMay s t csrAccmode 1 a d → Executes s t [.csr csrAccmode, .s a.toNat] → v &&& d.rsv = 0 → op.toNat ≤ 1 →
       v.getLsbD 0 ≠ (x.c csrAccmode).getLsbD 0 → x.isPaused = false → x.cf csrMprog mpHeld = 0 → x.matIdle = true →
       ∃ u : Tile, exec (.accmodeChange t op rd a) s = .next ((s.setTile t.toNat u).finS t.toNat rd.toNat (x.c csrAccmode)) ∧
         u.acc = [] ∧ (u.c csrAccmode).getLsbD 0 = v.getLsbD 0) ∧
     (∀ d, CsrMay s t csrMprog 1 a d → Executes s t [.csr csrMprog, .s a.toNat] → v = BitVec.ofNat 64 (2 ^ 63) → op.toNat ≤ 1 →
       x.cf csrMprog mpValid = 1 →
       ∃ u : State, exec (.mprogDiscard t op rd a) s = .next (u.finS t.toNat rd.toNat (x.c csrMprog)) ∧
         (u.tile t.toNat).kUnit = [] ∧ (u.tile t.toNat).cf csrMprog mpValid = 0 ∧ (u.tile t.toNat).cf csrMprog mpHeld = 0 ∧
         (u.tile t.toNat).acc = x.acc) ∧
     (∀ d, CsrMay s t csrGrp 1 a d → Executes s t [.csr csrGrp, .s a.toNat] → v &&& d.rsv = 0 →
       ∃ u : Tile, exec (.csrWrite t rd a 0x011) s = .next ((s.setTile t.toNat u).finS t.toNat rd.toNat (x.c csrGrp)) ∧
         (u.c csrLen).toNat = min (x.c csrLen).toNat (vlmaxOf (u.c csrGrp)) ∧ u.c csrGrp &&& 0xF = v &&& 0xF) ∧
     (∀ d, CsrMay s t csrLen 1 a d → Executes s t [.csr csrLen, .s a.toNat] → v &&& d.rsv = 0 → x.c csrLen &&& ~~~ d.rw = 0 →
       ∃ u : Tile, exec (.csrWrite t rd a 0x010) s = .next ((s.setTile t.toNat u).finS t.toNat rd.toNat (x.c csrLen)) ∧
         (u.c csrLen).toNat = min v.toNat x.vlmax))

/-- An FP64 instruction computes its result and flags and ends as R81 says (`fpFin`). fsgnj, fsgnjn and fsgnjx join a sign to a
magnitude, fclass writes a one-hot class, fmv.d.x moves bits: none raises a flag. -/
def Obligations.FloatInstructionResults : Prop :=
  (∀ (s : State) (i : Instr) (t : BitVec 8) (reads : List ParReg) (toF : Bool) (rd : BitVec 5) (v fl : Nat),
     fpResult s i = some (t, reads, toF, rd, v, fl) → Executes s t reads →
     exec i s = .next (s.fpFin t.toNat fl fun x =>
       if toF then x.setF rd.toNat (BitVec.ofNat 64 v) else x.setS rd.toNat (BitVec.ofNat 64 v))) ∧
  (∀ (s : State) (t : BitVec 8) (rd a b : BitVec 5),
     let A := (s.tile t.toNat).rf a.toNat
     let B := (s.tile t.toNat).rf b.toNat
     (Executes s t [.f a.toNat, .f b.toNat] →
       (∃ v : Word, exec (.fsgnj t rd a b) s = .next (s.finF t.toNat rd.toNat v) ∧
         v.toNat % 2 ^ 63 = A.toNat % 2 ^ 63 ∧ v.getLsbD 63 = B.getLsbD 63) ∧
       (∃ v : Word, exec (.fsgnjn t rd a b) s = .next (s.finF t.toNat rd.toNat v) ∧
         v.toNat % 2 ^ 63 = A.toNat % 2 ^ 63 ∧ v.getLsbD 63 = !B.getLsbD 63) ∧
       (∃ v : Word, exec (.fsgnjx t rd a b) s = .next (s.finF t.toNat rd.toNat v) ∧
         v.toNat % 2 ^ 63 = A.toNat % 2 ^ 63 ∧ v.getLsbD 63 = (A.getLsbD 63 != B.getLsbD 63))) ∧
     (Executes s t [.f a.toNat] →
       exec (.fclass t rd a) s = .next (s.finS t.toNat rd.toNat (BitVec.ofNat 64 (2 ^ fp64Class A)))) ∧
     (Executes s t [.s a.toNat] →
       exec (.fmvDX t rd a) s = .next (s.finF t.toNat rd.toNat ((s.tile t.toNat).rs a.toNat))))

/-- R81: the flags are ORed into fflags; with one of them enabled in ftrap, ARITH is raised, asum.SCALAR and asum.FLAGS are set and
no destination is written; with none enabled, the destination is written and the instruction retires. -/
def Obligations.ScalarFlagsTrapOrRetire : Prop :=
  ∀ (s : State) (t fl : Nat) (w : Tile → Tile), fl < 32 →
    let x := s.tile t
    ∃ y : Tile, (y.c csrFflags).toNat % 32 = Nat.lor ((x.c csrFflags).toNat % 32) fl ∧
      y.cf csrFflags ffFrm = x.cf csrFflags ffFrm ∧
      (∀ r, y.rs r = x.rs r) ∧ (∀ r, y.rf r = x.rf r) ∧ y.pc = x.pc ∧
      ((Nat.land fl ((x.c csrFtrap).toNat % 32) = 0 → s.fpFin t fl w = (s.setTile t (w y)).retire1 t) ∧
       (Nat.land fl ((x.c csrFtrap).toNat % 32) ≠ 0 → ∃ z : Tile, s.fpFin t fl w = (s.setTile t z).exc t 0x0D 0 0 ∧
          z.cf csrAsum asScalar = 1 ∧
          asFlags.get (z.c csrAsum) = Nat.lor (asFlags.get (x.c csrAsum)) (Nat.land fl ((x.c csrFtrap).toNat % 32)) ∧
          z.c csrFflags = y.c csrFflags ∧ (∀ r, z.rs r = x.rs r) ∧ (∀ r, z.rf r = x.rf r) ∧ z.pc = x.pc))

/-- R150: rounding ±m × 2^e to a multiple of 2^q gives, by mode, the nearest multiple with ties to even (0), the one toward zero
(1), toward minus infinity (2), toward plus infinity (3), or the nearest with ties away (4); exact values stay, and the inexact mark
says whether the value changed. -/
def Obligations.RoundingByMode : Prop :=
  ∀ (mode : Nat) (neg : Bool) (m : Nat) (e q : Int),
    let r := roundAt mode neg m e q false
    let want := realOf neg m e
    let got := realOf neg r.1 q
    (r.2 = false ↔ got = want) ∧
    (mode = 0 → |got - want| * 2 ≤ (2 : ℚ) ^ q ∧ (|got - want| * 2 = (2 : ℚ) ^ q → r.1 % 2 = 0)) ∧
    (mode = 1 → |got| ≤ |want| ∧ |want| < |got| + (2 : ℚ) ^ q) ∧
    (mode = 2 → got ≤ want ∧ want < got + (2 : ℚ) ^ q) ∧
    (mode = 3 → want ≤ got ∧ got < want + (2 : ℚ) ^ q) ∧
    (mode = 4 → |got - want| * 2 ≤ (2 : ℚ) ^ q ∧ (|got - want| * 2 = (2 : ℚ) ^ q → |want| < |got|))

/-- The sum and the product of two finite numbers are exact before they are rounded. -/
def Obligations.FloatSumAndProductExact : Prop :=
  ∀ (n1 n2 : Bool) (m1 m2 : Nat) (e1 e2 : Int),
    (((addExact n1 m1 e1 n2 m2 e2).1 : ℚ) * (2 : ℚ) ^ (addExact n1 m1 e1 n2 m2 e2).2 = realOf n1 m1 e1 + realOf n2 m2 e2) ∧
    (∃ n m e, mulV (.fin n1 m1 e1) (.fin n2 m2 e2) = (.fin n m e, 0) ∧ realOf n m e = realOf n1 m1 e1 * realOf n2 m2 e2)

/-- A load from the populated own store, at supervisor level and with good parity, answers its bytes, least significant first, sign-
or zero-extended; flw widens FP32 to FP64. A store to the populated own store at supervisor level, whose data do not stay bad
(R369), writes the low bytes of its register, least significant first, at the address that its base and immediate give, and no other
byte; fsw narrows by FRM. -/
def Obligations.OwnStoreLoadsAndStores : Prop :=
  (∀ (s : State) (t : BitVec 8) (rd a : BitVec 5) (imm : BitVec 14), Executes s t [.s a.toNat] → (s.tile t.toNat).user = false →
     let va := (BitVec.ofInt 64 (((s.tile t.toNat).rs a.toNat).toInt + imm.toInt)).toNat
     let ok (n : Nat) : Prop := inStore t.toNat va n = true ∧ GoodBytes s (t.toNat / 32) va n
     let S (v : Word) : State := s.finS t.toNat rd.toNat v
     (ok 1 → exec (.lb t rd a imm) s = .next (S ((BitVec.ofNat 8 (s.bytes va 1)).signExtend 64)) ∧
             exec (.lbu t rd a imm) s = .next (S (BitVec.ofNat 64 (s.bytes va 1)))) ∧
     (ok 2 → exec (.lh t rd a imm) s = .next (S ((BitVec.ofNat 16 (s.bytes va 2)).signExtend 64)) ∧
             exec (.lhu t rd a imm) s = .next (S (BitVec.ofNat 64 (s.bytes va 2)))) ∧
     (ok 4 → exec (.lw t rd a imm) s = .next (S ((BitVec.ofNat 32 (s.bytes va 4)).signExtend 64)) ∧
             exec (.lwu t rd a imm) s = .next (S (BitVec.ofNat 64 (s.bytes va 4))) ∧
             exec (.flw t rd a imm) s = .next (s.fpFin t.toNat (fp64.ofV 0 (fp32.decode (s.bytes va 4))).2 fun x =>
               x.setF rd.toNat (BitVec.ofNat 64 (fp64.ofV 0 (fp32.decode (s.bytes va 4))).1))) ∧
     (ok 8 → exec (.ld t rd a imm) s = .next (S (BitVec.ofNat 64 (s.bytes va 8))) ∧
             exec (.fld t rd a imm) s = .next (s.finF t.toNat rd.toNat (BitVec.ofNat 64 (s.bytes va 8))))) ∧
  (∀ (s : State) (t : BitVec 8) (rd a : BitVec 5) (imm : BitVec 14), (s.tile t.toNat).user = false → InSequence s t.toNat →
     let va := (BitVec.ofInt 64 (((s.tile t.toNat).rs a.toNat).toInt + imm.toInt)).toNat
     let ok (n : Nat) : Prop := inStore t.toNat va n = true ∧ s.dataBad va n = false
     let wrote (u : State) (n v : Nat) : Prop :=
       (∀ i, i < n → u.byte (va + i) = BitVec.ofNat 8 (v / 256 ^ i)) ∧ (∀ c, c < va ∨ va + n ≤ c → u.byte c = s.byte c) ∧
       (∀ r, (u.tile t.toNat).rs r = (s.tile t.toNat).rs r) ∧ (∀ r, (u.tile t.toNat).rf r = (s.tile t.toNat).rf r) ∧
       (u.tile t.toNat).pc = (s.tile t.toNat).pc + 4 ∧ (∀ k, k ≠ t.toNat → u.tile k = s.tile k) ∧ (∀ c, u.rd c = s.rd c)
     (Executes s t [.s rd.toNat, .s a.toNat] →
       (ok 1 → ∃ u, exec (.sb t rd a imm) s = .next u ∧ wrote u 1 ((s.tile t.toNat).rs rd.toNat).toNat) ∧
       (ok 2 → ∃ u, exec (.sh t rd a imm) s = .next u ∧ wrote u 2 ((s.tile t.toNat).rs rd.toNat).toNat) ∧
       (ok 4 → ∃ u, exec (.sw t rd a imm) s = .next u ∧ wrote u 4 ((s.tile t.toNat).rs rd.toNat).toNat) ∧
       (ok 8 → ∃ u, exec (.sd t rd a imm) s = .next u ∧ wrote u 8 ((s.tile t.toNat).rs rd.toNat).toNat)) ∧
     (Executes s t [.f rd.toNat, .s a.toNat] →
       (ok 8 → ∃ u, exec (.fsd t rd a imm) s = .next u ∧ wrote u 8 ((s.tile t.toNat).rf rd.toNat).toNat) ∧
       (ok 4 →
         let r := fp32.ofV (s.tile t.toNat).frm (fp64.decode ((s.tile t.toNat).rf rd.toNat).toNat)
         (s.tile t.toNat).trapsOn r.2 = false → ∃ u, exec (.fsw t rd a imm) s = .next u ∧ wrote u 4 r.1)))

/-- R92, R99 to R103: an element-wise instruction gives every active element below len its value, keeps an inactive one or zeroes it
as PM selects, and leaves the rest of the vector registers; it then ends as R83 and R99 say (`vecFin`). R83, R99, R102: a vector
instruction ORs its flags into fflags, sets VXSAT where an element saturated, and retires; in precise mode a flag enabled in ftrap
raises ARITH instead, with asum naming the vector engine. -/
def Obligations.VectorElementwiseResults : Prop :=
  (∀ (s : State) (i : Instr) (v : VecForm), vectorForm s i = some v → v.ok (s.tile v.t.toNat) →
     VecExecutes s v.t (v.reads (s.tile v.t.toNat)) ((s.tile v.t.toNat).groupOf v.d (fmtW v.fmt)) →
     let x := s.tile v.t.toNat
     let w := fmtW v.fmt
     let q (j : Nat) : Nat := if v.opnd = 0 then x.elem v.b w j else if v.opnd = 1 then (x.scalarOp v.fmt v.b).1 else 0
     ∃ (y : Tile) (fl : Nat) (sat : Bool), exec i s = .next ((s.setTile v.t.toNat { x with vecGated := false }).vecFin v.t.toNat y 1 fl sat) ∧
       (∀ j, j < x.len → x.activeAt v.pm j = true → y.elem v.d w j = v.val (x.elem v.a w j) (q j) (x.elem v.d w j) % 2 ^ w) ∧
       (∀ j, j < x.len → x.activeAt v.pm j = false → y.elem v.d w j = (if 8 ≤ v.pm then 0 else x.elem v.d w j)) ∧
       VecOnly x y fun r => ∃ j, j < x.len ∧ r = v.d + j * w / 16384) ∧
  (∀ (s : State) (t fl : Nat) (y : Tile) (sat : Bool), fl < 32 →
     let on := y.cf csrStatus stPrecise = 1 ∧ Nat.land fl ((y.c csrFtrap).toNat % 32) ≠ 0
     ∃ z : Tile, (z.c csrFflags).toNat % 32 = Nat.lor ((y.c csrFflags).toNat % 32) fl ∧
       z.c csrVfx = (if sat then y.c csrVfx ||| 4 else y.c csrVfx) ∧ z.v = y.v ∧ z.p = y.p ∧ z.s = y.s ∧ z.f = y.f ∧ z.pc = y.pc ∧
       (¬ on → s.vecFin t y 1 fl sat = (s.setTile t z).retire1 t) ∧
       (on → s.vecFin t y 1 fl sat = (s.setTile t z).exc t 0x0D 0 0 ∧ z.cf csrAsum asVector = 1))

/-- vsetl, vsplat, nclip, vcvt and vext. R105, R106, R93: compares set one predicate bit for each active element and zero the
others; plogic, pset, pcount and pfirst work on the bits below len. R107, R108: an integer sum adds every active element to the
scalar, whatever the order of the tree; vmaxi and vmini keep the best value and its index; with no active element the scalar stays. -/
def Obligations.VectorConvertPredicateReduce : Prop :=
  (∀ (s : State) (t : BitVec 8),
     let x := s.tile t.toNat
     let go (y : Tile) (fl : Nat) (sat : Bool) : State :=
       (s.setTile t.toNat { x with vecGated := false }).vecFin t.toNat y 1 fl sat
     (∀ (rd a : BitVec 5) (gf ew : BitVec 2), Executes s t [.s a.toNat] → x.drainBusy = false →
       let l := min (x.rs a.toNat).toNat (2 ^ gf.toNat * 16384 / (8 * 2 ^ ew.toNat))
       ∃ y : Tile, exec (.vsetl t rd a gf ew) s = .next ((s.setTile t.toNat y).finS t.toNat rd.toNat (BitVec.ofNat 64 l)) ∧
         y.len = l ∧ y.gf = 2 ^ gf.toNat ∧ y.ew = 8 * 2 ^ ew.toNat ∧ y = { x with csr := y.csr }) ∧
     (∀ (d r f : BitVec 5) (pm : BitVec 4), isFIQ f.toNat = true → pm.toNat ≠ 8 → GroupOk x d.toNat (fmtW f.toNat) →
       VecExecutes s t (scalarReg f.toNat r.toNat :: pmReads pm.toNat) (x.groupOf d.toNat (fmtW f.toNat)) →
       ∃ y fl, exec (.vsplat t d r f pm) s = .next (go y fl false) ∧
         (∀ j, j < x.len → x.activeAt pm.toNat j = true →
           y.elem d.toNat (fmtW f.toNat) j = (x.scalarOp f.toNat r.toNat).1 % 2 ^ fmtW f.toNat)) ∧
     (∀ (d a r f : BitVec 5) (pm : BitVec 4) (g : Nat), nclipDst f.toNat = some g → pm.toNat ≠ 8 →
       GroupOk x d.toNat (fmtW f.toNat / 2) → GroupOk x a.toNat (fmtW f.toNat) →
       overlapBad d.toNat (x.nregs (fmtW f.toNat / 2)) a.toNat (x.nregs (fmtW f.toNat)) = false →
       VecExecutes s t (vregs x a.toNat (fmtW f.toNat) ++ [.s r.toNat] ++ pmReads pm.toNat) (x.groupOf d.toNat (fmtW f.toNat / 2)) →
       ∃ y fl sat, exec (.nclip t d a r f pm) s = .next (go y fl sat) ∧
         (∀ j, j < x.len → x.activeAt pm.toNat j = true → y.elem d.toNat (fmtW f.toNat / 2) j =
           (heldIn g (roundoff (intOf f.toNat (x.elem a.toNat (fmtW f.toNat) j)) ((x.rs r.toNat).toNat % fmtW f.toNat) x.vxrm) %
             2 ^ (fmtW f.toNat / 2)).toNat)) ∧
     (∀ (d a g f : BitVec 5) (pm : BitVec 4), isFIQ f.toNat = true → isFIQ g.toNat = true → cvtPair f.toNat g.toNat = true →
       pm.toNat ≠ 8 → GroupOk x d.toNat (regW g.toNat) → GroupOk x a.toNat (regW f.toNat) →
       overlapBad d.toNat (x.nregs (regW g.toNat)) a.toNat (x.nregs (regW f.toNat)) = false →
       VecExecutes s t (vregs x a.toNat (regW f.toNat) ++ pmReads pm.toNat) (x.groupOf d.toNat (regW g.toNat)) →
       ∃ y fl sat, exec (.vcvt t d a g f pm) s = .next (go y fl sat) ∧
         (∀ j, j < x.len → x.activeAt pm.toNat j = true → y.elem d.toNat (regW g.toNat) j =
           (cvtElem x.vfrm x.vxrm f.toNat g.toNat (x.elem a.toNat (regW f.toNat) j)).1 % 2 ^ regW g.toNat)) ∧
     (∀ (rd v f : BitVec 5), clsIQ f.toNat = true → GroupOk x v.toNat (fmtW f.toNat) → 0 < x.len →
       VecExecutes s t (vregs x v.toNat (fmtW f.toNat)) [] →
       exec (.vext t rd v f) s = .next (go ({ x with vecGated := false }.setS rd.toNat
         (BitVec.ofInt 64 (intOf f.toNat (x.elem v.toNat (fmtW f.toNat) 0)))) 0 false)) ∧
     (∀ (rd v f : BitVec 5), clsIQ f.toNat = true → GroupOk x v.toNat (fmtW f.toNat) → x.len = 0 →
       VecExecutes s t (vregs x v.toNat (fmtW f.toNat)) [] → ∃ u w, exec (.vext t rd v f) s =
         .next (State.vecFin u t.toNat ({ x with vecGated := false }.setS rd.toNat w) 1 0 false)) ∧
     (x.mode ≠ .frozen → ∃ u, exec (.vectorGate t) s = .next u ∧ (u.tile t.toNat).vecGated = true ∧ TileOnly s u t.toNat)) ∧
  (∀ (s : State) (t : BitVec 8),
     let x := s.tile t.toNat
     let go (y : Tile) (fl : Nat) : State := (s.setTile t.toNat { x with vecGated := false }).vecFin t.toNat y 1 fl false
     let cmp (cond : Nat) (a b : Int) : Prop := match cond with
       | 0 => a = b | 1 => a ≠ b | 2 => a < b | 3 => a ≤ b | 4 => b < a | _ => b ≤ a
     (∀ (pd cond gov : BitVec 3) (a b f : BitVec 5), clsIQ f.toNat = true → cond.toNat < 6 → GroupOk x a.toNat (fmtW f.toNat) →
       (GroupOk x b.toNat (fmtW f.toNat) →
         VecExecutes s t (vregs x a.toNat (fmtW f.toNat) ++ vregs x b.toNat (fmtW f.toNat) ++ pmReads gov.toNat) [] →
         ∃ y : Tile, exec (.vcmpVv t pd cond a b f gov) s = .next (go y 0) ∧
           ∀ j, j < 16384 → ((y.rp pd.toNat).getLsbD j = true ↔ (x.activeAt gov.toNat j = true ∧
             cmp cond.toNat (intOf f.toNat (x.elem a.toNat (fmtW f.toNat) j)) (intOf f.toNat (x.elem b.toNat (fmtW f.toNat) j))))) ∧
       (VecExecutes s t (vregs x a.toNat (fmtW f.toNat) ++ [.s b.toNat] ++ pmReads gov.toNat) [] →
         ∃ y : Tile, exec (.vcmpVs t pd cond a b f gov) s = .next (go y 0) ∧
           ∀ j, j < 16384 → ((y.rp pd.toNat).getLsbD j = true ↔ (x.activeAt gov.toNat j = true ∧
             cmp cond.toNat (intOf f.toNat (x.elem a.toNat (fmtW f.toNat) j)) (intOf f.toNat (x.rs b.toNat).toNat))))) ∧
     (∀ pd pa pb fn : BitVec 3, VecExecutes s t [.p pa.toNat, .p pb.toNat] [] →
       ∃ y : Tile, exec (.plogic t pd pa pb fn) s = .next (go y 0) ∧ ∀ j, j < 16384 → (y.rp pd.toNat).getLsbD j =
         (decide (j < x.len) && pfn fn.toNat ((x.rp pa.toNat).getLsbD j) ((x.rp pb.toNat).getLsbD j))) ∧
     (∀ (pd : BitVec 3) (b : Bool), VecExecutes s t [] [] →
       ∃ y : Tile, exec (.pset t pd b) s = .next (go y 0) ∧ ∀ j, j < 16384 → (y.rp pd.toNat).getLsbD j = (decide (j < x.len) && b)) ∧
     (∀ (rd : BitVec 5) (pa : BitVec 3), VecExecutes s t [.p pa.toNat] [] →
       exec (.pcount t rd pa) s = .next (go ({ x with vecGated := false }.setS rd.toNat
         (BitVec.ofNat 64 ((List.range x.len).countP fun j => (x.rp pa.toNat).getLsbD j))) 0)) ∧
     (∀ (rd : BitVec 5) (pa : BitVec 3) (k : Nat), VecExecutes s t [.p pa.toNat] [] → k < x.len →
       (x.rp pa.toNat).getLsbD k = true → (∀ j, j < k → (x.rp pa.toNat).getLsbD j = false) →
       exec (.pfirst t rd pa) s = .next (go ({ x with vecGated := false }.setS rd.toNat (BitVec.ofNat 64 k)) 0)) ∧
     (∀ (rd : BitVec 5) (pa : BitVec 3), VecExecutes s t [.p pa.toNat] [] → (∀ j, j < x.len → (x.rp pa.toNat).getLsbD j = false) →
       exec (.pfirst t rd pa) s = .next (go ({ x with vecGated := false }.setS rd.toNat (BitVec.allOnes 64)) 0))) ∧
  (∀ (s : State) (t : BitVec 8) (rd a f : BitVec 5) (pm : BitVec 4), clsIQ f.toNat = true → pm.toNat ≠ 8 →
     let x := s.tile t.toNat
     let w := fmtW f.toNat
     let go (y : Tile) (fl : Nat) : State := (s.setTile t.toNat { x with vecGated := false }).vecFin t.toNat y 1 fl false
     let act := (List.range x.len).filter (x.activeAt pm.toNat)
     let val (j : Nat) : Int := intOf f.toNat (x.elem a.toNat w j)
     GroupOk x a.toNat w →
     (VecExecutes s t (vregs x a.toNat w ++ .s rd.toNat :: pmReads pm.toNat) [] →
       (act ≠ [] → ∃ y : Tile, exec (.vred t rd a 0 f pm) s = .next (go y 0) ∧
         y = { x with vecGated := false }.setS rd.toNat (BitVec.ofInt 64 ((x.rs rd.toNat).toInt + (act.map val).sum))) ∧
       (act = [] → exec (.vred t rd a 0 f pm) s = .next (go { x with vecGated := false } 0))) ∧
     (∀ k : BitVec 5, 1 ≤ k.toNat → k.toNat ≤ 30 →
       VecExecutes s t (vregs x a.toNat w ++ .s rd.toNat :: .s k.toNat :: .s (k.toNat + 1) :: pmReads pm.toNat) [] →
       (act = [] → exec (.vmaxi t rd a k f pm) s = .next (go { x with vecGated := false } 0) ∧
         exec (.vmini t rd a k f pm) s = .next (go { x with vecGated := false } 0)) ∧
       (act ≠ [] → f.toNat ≠ 8 → rd.toNat ≠ k.toNat → rd.toNat ≠ 0 →
         (∃ y : Tile, exec (.vmaxi t rd a k f pm) s = .next (go y 0) ∧ (x.rs rd.toNat).toInt ≤ (y.rs rd.toNat).toInt ∧
           (∀ j ∈ act, val j ≤ (y.rs rd.toNat).toInt) ∧
           ((y.rs rd.toNat = x.rs rd.toNat ∧ y.rs k.toNat = x.rs k.toNat) ∨
             ∃ j ∈ act, val j = (y.rs rd.toNat).toInt ∧ y.rs k.toNat = x.rs (k.toNat + 1) + BitVec.ofNat 64 j)) ∧
         (∃ y : Tile, exec (.vmini t rd a k f pm) s = .next (go y 0) ∧ (y.rs rd.toNat).toInt ≤ (x.rs rd.toNat).toInt ∧
           (∀ j ∈ act, (y.rs rd.toNat).toInt ≤ val j) ∧
           ((y.rs rd.toNat = x.rs rd.toNat ∧ y.rs k.toNat = x.rs k.toNat) ∨
             ∃ j ∈ act, val j = (y.rs rd.toNat).toInt ∧ y.rs k.toNat = x.rs (k.toNat + 1) + BitVec.ofNat 64 j)))))

/-- R94 to R98, R106: vector and predicate loads and stores move elements between the own store and registers, in address order and
least significant byte first; a first-fault load whose upper page faults stops at the first element in it and reduces len. R109:
vchain runs the chain of a sound descriptor over its elements and raises its flags as chain flags; a descriptor that is not 16-byte
aligned raises VEC_CONFIG with SUB 7. -/
def Obligations.VectorMemoryAndChain : Prop :=
  (∀ (s : State) (t : BitVec 8) (a : BitVec 5), (s.tile t.toNat).user = false → LensWithin s →
     let x := s.tile t.toNat
     let va := (x.rs a.toNat).toNat
     let ok (n : Nat) : Prop := inStore t.toNat va n = true ∧ GoodBytes s (t.toNat / 32) va n
     let fin (y : Tile) : Host.Outcome State Fault Refusal := .next (((s.setTile t.toNat { x with vecGated := false }).setTile t.toNat y).retire1 t.toNat)
     (∀ (d f : BitVec 5), isFIQ f.toNat = true → GroupOk x d.toNat (fmtW f.toNat) → ok (x.len * (fmtW f.toNat / 8)) →
       VecExecutes s t [.s a.toNat] (x.groupOf d.toNat (fmtW f.toNat)) →
       (∃ y, exec (.vld t d a f 0 false) s = fin y ∧
         (∀ j, j < x.len → y.elem d.toNat (fmtW f.toNat) j = s.bytes (va + j * (fmtW f.toNat / 8)) (fmtW f.toNat / 8)) ∧
         VecOnly x y fun r => ∃ j, j < x.len ∧ r = d.toNat + j * fmtW f.toNat / 16384) ∧
       (inStore t.toNat (va / 65536 * 65536 + 65536) 65536 = true → ∃ y, exec (.vldFf t d a f 0) s = fin y ∧
         (∀ j, j < x.len → y.elem d.toNat (fmtW f.toNat) j = s.bytes (va + j * (fmtW f.toNat / 8)) (fmtW f.toNat / 8)) ∧
         VecOnly x y fun r => ∃ j, j < x.len ∧ r = d.toNat + j * fmtW f.toNat / 16384)) ∧
     (∀ (d f : BitVec 5) (k : Nat), isFIQ f.toNat = true → GroupOk x d.toNat (fmtW f.toNat) → 0 < k → k < x.len →
       va / 65536 * 65536 + 65536 = storeBase t.toNat + 0x600000 → ok (k * (fmtW f.toNat / 8)) →
       storeBase t.toNat + 0x600000 < va + (k + 1) * (fmtW f.toNat / 8) →
       VecExecutes s t [.s a.toNat] (x.groupOf d.toNat (fmtW f.toNat)) →
       ∃ y, exec (.vldFf t d a f 0) s = fin y ∧ y.len = k ∧
         (∀ j, j < k → y.elem d.toNat (fmtW f.toNat) j = s.bytes (va + j * (fmtW f.toNat / 8)) (fmtW f.toNat / 8))) ∧
     (∀ (d : BitVec 5), d.toNat % x.gf = 0 → ok (2048 * x.gf) →
       (VecExecutes s t [.s a.toNat] ((List.range x.gf).map (d.toNat + ·)) →
         ∃ y, exec (.vld t d a 0 0 true) s = fin y ∧
           ∀ j, j < x.gf → (y.rv (d.toNat + j)).toNat = s.bytes (va + 2048 * j) 2048)) ∧
     (∀ (r f : BitVec 5), isFIQ f.toNat = true → GroupOk x r.toNat (fmtW f.toNat) → inStore t.toNat va (x.len * (fmtW f.toNat / 8)) = true →
       s.dataBad va (x.len * (fmtW f.toNat / 8)) = false → InSequence s t.toNat → VecExecutes s t (.s a.toNat :: vregs x r.toNat (fmtW f.toNat)) [] →
       ∃ u, exec (.vst t r a f 0 false) s = .next u ∧
         (∀ j, j < x.len → u.bytes (va + j * (fmtW f.toNat / 8)) (fmtW f.toNat / 8) = x.elem r.toNat (fmtW f.toNat) j) ∧
         (∀ c, c < va ∨ va + x.len * (fmtW f.toNat / 8) ≤ c → u.byte c = s.byte c) ∧ (u.tile t.toNat).v = x.v ∧
         (∀ c, u.rd c = s.rd c) ∧ (∀ k, k ≠ t.toNat → u.tile k = s.tile k)) ∧
     (∀ p : BitVec 3, ok 2048 → VecExecutes s t [.s a.toNat] [] →
       ∃ y : Tile, exec (.pld t p a) s = fin y ∧ (y.rp p.toNat).toNat = s.bytes va 2048 ∧ y.v = x.v) ∧
     (∀ p : BitVec 3, inStore t.toNat va 2048 = true → s.dataBad va 2048 = false → InSequence s t.toNat → VecExecutes s t [.s a.toNat, .p p.toNat] [] →
       ∃ u, exec (.pst t p a) s = .next u ∧ u.bytes va 2048 = (x.rp p.toNat).toNat ∧
         (∀ c, c < va ∨ va + 2048 ≤ c → u.byte c = s.byte c))) ∧
  (∀ (s : State) (t : BitVec 8) (d a r f : BitVec 5) (pm : BitVec 4), isFIQ f.toNat = true → pm.toNat ≠ 8 →
     let x := s.tile t.toNat
     let x' : Tile := { x with vecGated := false }
     let va := (x.rs r.toNat).toNat
     GroupOk x a.toNat (fmtW f.toNat) → Executes s t (.s r.toNat :: (vregs x a.toNat (fmtW f.toNat) ++ pmReads pm.toNat)) →
     x.user = false → inStore t.toNat va 80 = true →
     (va % 16 ≠ 0 → ∃ w, exec (.vchain t d a r f pm) s = .next ((s.setTile t.toNat x').exc t.toNat 0x10 7 w)) ∧
     (va % 16 = 0 → GoodBytes s (t.toNat / 32) va 80 → x.dUnit = [] →
       let ws := (List.range 10).map fun i => BitVec.ofNat 64 (s.bytes (va + 8 * i) 8)
       x.chainChk ws f.toNat pm.toNat d.toNat a.toNat = none →
       (∀ g ∈ (chainOf ws).stages, 2 ≤ g.opnd → ∀ q ∈ vregs x g.vreg (fmtW g.arg), x.parBad.contains q = false) →
       ∃ (y : Tile) (fl : Nat) (marks : List Nat), exec (.vchain t d a r f pm) s =
           .next (((s.setTile t.toNat x').observe t.toNat (chainOf ws).tag marks).vecFin t.toNat y 3 fl false) ∧
         (y, fl, marks) = x'.chainRun (chainOf ws) f.toNat pm.toNat d.toNat a.toNat))

/-- R117: a reserved PM, a class the operation does not take and a register group that grp does not allow raise their exceptions
before any state changes; a code of R20 raises VERSION. -/
def Obligations.VectorChecksTrap : Prop :=
  ∀ (s : State) (t : BitVec 8) (vs : Bool) (d a b f : BitVec 5) (pm : BitVec 4), Executes s t [] →
    let x := s.tile t.toNat
    (24 ≤ f.toNat → ∃ w, exec (.vadd t vs d a b f pm) s = .next (s.exc t.toNat 0x12 0 w)) ∧
    (f.toNat < 24 → (pm.toNat = 8 ∨ isFIQ f.toNat = false) → ∃ w, exec (.vadd t vs d a b f pm) s = .next (s.exc t.toNat 0x01 0 w)) ∧
    (isFIQ f.toNat = true → pm.toNat ≠ 8 → ¬ GroupOk x d.toNat (fmtW f.toNat) →
      ∃ w, exec (.vadd t vs d a b f pm) s = .next (s.exc t.toNat 0x10 0 w)) ∧
    (isF f.toNat = true → pm.toNat ≠ 8 → GroupOk x d.toNat (fmtW f.toNat) → GroupOk x a.toNat (fmtW f.toNat) →
      GroupOk x b.toNat (fmtW f.toNat) → 2 < x.gf * fmtW f.toNat / x.ew →
      ∃ w, exec (.vdiv t vs d a b f pm) s = .next (s.exc t.toNat 0x10 4 w))

/-- R129, R144: mzero makes every element of its bank +0, mload copies the image at s_a, and madd adds the image to it with one
rounding; the other banks keep their elements. R140, R133: a drain whose checks pass is handed off with its descriptor, layout and
bank; when its bank is free it writes its rows as the chain gives them and leaves its unit; an idle array gates its clock. -/
def Obligations.AccumulatorsAndDrains : Prop :=
  (∀ (s : State) (t : BitVec 8) (bank : BitVec 2), MatrixIdle (s.tile t.toNat) → InSequence s t.toNat → bank.toNat < 3 →
     (s.tile t.toNat).bankBad bank.toNat = false →
     let x := s.tile t.toNat
     let w := if bank.toNat = 2 then 8 else 4
     let image (a e : Nat) : Nat := s.bytes (a + e * w) w
     let f := bankFmt bank.toNat
     (Executes s t [] → ∃ u, exec (.mzero t bank) s = .next u ∧ (∀ e, e < 16384 → (u.tile t.toNat).accAt bank.toNat e = 0) ∧
       BankKept x (u.tile t.toNat) bank.toNat ∧ (u.tile t.toNat).pc = x.pc + 4 ∧ TileOnly s u t.toNat) ∧
     (∀ r : BitVec 5, Executes s t [.s r.toNat] → x.user = false →
       let a := (x.rs r.toNat).toNat
       a % 128 = 0 → inStore t.toNat a (16384 * w) = true → GoodBytes s (t.toNat / 32) a (16384 * w) →
       (∃ u, exec (.mload t r bank) s = .next u ∧ (∀ e, e < 16384 → (u.tile t.toNat).accAt bank.toNat e = image a e) ∧
         BankKept x (u.tile t.toNat) bank.toNat ∧ (u.tile t.toNat).pc = x.pc + 4 ∧ TileOnly s u t.toNat) ∧
       (x.parBad.contains (.acc bank.toNat) = false → ∃ u, exec (.madd t r bank) s = .next u ∧
         (∀ e, e < 16384 → (u.tile t.toNat).accAt bank.toNat e =
           (f.addV 0 (f.decode (x.accAt bank.toNat e)) (f.decode (image a e))).1 % 2 ^ 64) ∧
         BankKept x (u.tile t.toNat) bank.toNat ∧ (u.tile t.toNat).pc = x.pc + 4 ∧ TileOnly s u t.toNat))) ∧
  (∀ (s : State) (t : BitVec 8),
     let x := s.tile t.toNat
     (∀ (dst desc par arg : BitVec 5) (bank : BitVec 2) (panel : Bool), MatrixIdle x → InSequence s t.toNat → x.user = false →
       Executes s t [.s dst.toNat, .s desc.toNat, .s par.toNat, .s arg.toNat] → bank.toNat < 3 → x.bankBad bank.toNat = false →
       let va := (x.rs desc.toNat).toNat
       let ws := (List.range 10).map fun i => BitVec.ofNat 64 (s.bytes (va + 8 * i) 8)
       let p := x.rs par.toNat
       let o := (x.rs dst.toNat).toNat
       let rec_ := (x.rs arg.toNat).toNat
       va % 16 = 0 → inStore t.toNat va 80 = true → GoodBytes s (t.toNat / 32) va 80 →
       chainVersion ws = false → chainInconsistent ws true = false → drainBad (chainOf ws) bank.toNat p panel arg.toNat = false →
       o % (if panel then 128 else 16) = 0 → inStore t.toNat o (drainBytes (chainOf ws) p panel) = true →
       (arg.toNat ≠ 0 → rec_ % 16 = 0 ∧ inStore t.toNat rec_ (16 * parRows p) = true) →
       ∃ u d, exec (.mdrain t dst desc par arg bank panel) s = .next u ∧ (u.tile t.toNat).dUnit = [d] ∧ d.bank = bank.toNat ∧
         d.words = ws ∧ d.dst = o ∧ d.par = p ∧ d.panel = panel ∧ d.arg = arg.toNat ∧ (u.tile t.toNat).pc = x.pc + 4 ∧
         (u.tile t.toNat).acc = x.acc ∧ TileOnly s u t.toNat) ∧
     (∀ d, x.dUnit = [d] → x.kUnit = [] → x.mode = .running → s.stilled t.toNat = false → x.parBad = [] → d.pages = [] →
       d.panel = false → d.arg = 0 → isMX (chainOf d.words).outFmt = false →
       drainRow (chainOf d.words).outFmt ≤ 16 * parStride d.par →
       s.dataBad d.dst ((parRows d.par - 1) * 16 * parStride d.par + drainRow (chainOf d.words).outFmt) = false →
       ∃ u, exec (.mdrainComplete t) s = .next u ∧ (u.tile t.toNat).dUnit = [] ∧ (u.tile t.toNat).acc = x.acc ∧
         (∀ r, r < parRows d.par → u.bytes (d.dst + r * 16 * parStride d.par) (16 * fmtW (chainOf d.words).outFmt) =
           packBits (fmtW (chainOf d.words).outFmt) (((chainOf d.words).rowOut (x.drainMids d (chainOf d.words) r)).1.map (·.1))) ∧
         (∀ c, c < d.dst ∨ d.dst + ((parRows d.par - 1) * 16 * parStride d.par + drainRow (chainOf d.words).outFmt) ≤ c →
           u.byte c = s.byte c)) ∧
     (x.mode ≠ .frozen → x.matIdle = true → ∃ u, exec (.matrixGate t) s = .next u ∧ (u.tile t.toNat).matGated = true ∧
       TileOnly s u t.toNat))

/-- R132: a K-stream without a ring whose checks pass is handed off with what it latched: it is the one operation of its unit, its
bank zeroed where ZERO is 1, and the pc passes both words; an operand fault or a failed check raises its exception. R126, R132: a
plain K-stream of one panel completes with every accumulator element holding the rounded running sum of its products in K order, and
leaves its unit; at a boundary the unit pauses with its progress in mprog. R125: a ring panel whose ready count has been given is
worked through: the free buckle gains one, and the count is used up. -/
def Obligations.KStreams : Prop :=
  (∀ (s : State) (t : BitVec 8) (r1 r2 r3 : BitVec 5) (bank : BitVec 2) (zero : Bool) (desc : BitVec 32),
     Executes s t [.s r1.toNat, .s r2.toNat, .s r3.toNat] → MatrixIdle (s.tile t.toNat) → (s.tile t.toNat).user = false →
     let x := s.tile t.toNat
     let d := kdescOf desc
     let a := (x.rs r1.toNat).toNat
     let b := (x.rs r2.toNat).toNat
     let n := (x.rs r3.toNat).toNat % 2 ^ 32
     (kChecks x bank.toNat d a b n = none → d.ring = 0 →
       inStore t.toNat a ((n + 127) / 128 * panelStride d.afmt) = true → inStore t.toNat b ((n + 127) / 128 * panelStride d.bfmt) = true →
       InSequence (s.setTile t.toNat { x with pc := x.pc + 4 }) t.toNat →
       ∃ u k, exec (.kStream t r1 r2 r3 bank zero desc) s = .next u ∧ (u.tile t.toNat).kUnit = [k] ∧ k.kind = .stream ∧
         k.bank = bank.toNat ∧ k.a = a ∧ k.b = b ∧ k.k = n ∧ k.kbase = (x.rs r3.toNat).toNat / 2 ^ 32 ∧ k.afmt = d.afmt ∧
         k.bfmt = d.bfmt ∧ k.started = true ∧ k.done = 0 ∧ (u.tile t.toNat).pc = x.pc + 8 ∧
         (zero = true → ∀ e, e < 16384 → (u.tile t.toNat).accAt bank.toNat e = 0) ∧
         (zero = false → (u.tile t.toNat).acc = x.acc) ∧ BankKept x (u.tile t.toNat) bank.toNat ∧ TileOnly s u t.toNat) ∧
     (∀ e, kChecks x bank.toNat d a b n = some e → ∃ w, exec (.kStream t r1 r2 r3 bank zero desc) s =
       .next ((s.setTile t.toNat { x with matGated := false }).exc t.toNat e.1 e.2 w))) ∧
  (∀ (s : State) (t : BitVec 8) (k : KOp), PlainStream s t.toNat k → k.ring = 0 →
     let x := s.tile t.toNat
     (GoodBytes s (t.toNat / 32) k.a (k.k * 16 * fmtW k.afmt) → GoodBytes s (t.toNat / 32) k.b (k.k * 16 * fmtW k.bfmt) →
       ∃ u, exec (.kstreamComplete t) s = .next u ∧ (u.tile t.toNat).kUnit = [] ∧
         (∀ i j, i < 128 → j < 128 → (u.tile t.toNat).accAt k.bank (i * 128 + j) =
           (s.cellPlain k t.toNat 0 k.a k.b i j 0 1 k.k (x.accAt k.bank (i * 128 + j), 0)).1 % 2 ^ 64) ∧
         BankKept x (u.tile t.toNat) k.bank ∧ (u.tile t.toNat).cf csrMprog mpValid = 0 ∧ TileOnly s u t.toNat) ∧
     (s.badIn k.a (k.k * 16 * fmtW k.afmt) = true → ∃ u, exec (.deferredError t) s = .next u ∧
       (u.tile t.toNat).kErr = some (0x0C, k.a) ∧ (u.tile t.toNat).kUnit = [] ∧ (u.tile t.toNat).cf csrMprog mpErr = 1 ∧
       (u.tile t.toNat).acc = x.acc) ∧
     (∀ f, ∃ u, exec (.kstreamPause t 0) (s.setTile t.toNat { x with kPause := .asked f }) = .next u ∧
       (u.tile t.toNat).kPause = .paused f ∧ (u.tile t.toNat).cf csrMprog mpPaused = 1 ∧ (u.tile t.toNat).cf csrMprog mpKdone = 0 ∧
       (u.tile t.toNat).cf csrMprog mpValid = 1 ∧ (u.tile t.toNat).acc = x.acc)) ∧
  (∀ (s : State) (t : BitVec 8) (k : KOp), PlainStream s t.toNat k → k.ring = 1 →
     k.taken = 0 → k.free < 64 → s.bkBehind t.toNat (64 * t.toNat + k.free) = false → k.rdy ≠ k.free → GoodBytes s (t.toNat / 32) k.a (k.k * 16 * fmtW k.afmt) →
     GoodBytes s (t.toNat / 32) k.b (k.k * 16 * fmtW k.bfmt) → s.links.done = [.ring t.toNat] →
     (s.buckle (64 * t.toNat + k.free)).waiters = [] → (s.buckle (64 * t.toNat + k.free)).count < 0xFFFFFFFE →
     (∃ u q, exec (.ringTake t) s = .next u ∧ (u.tile t.toNat).kUnit = [q] ∧ q.taken = 1 ∧ q.done = k.k ∧ u.links.done = [] ∧
       (u.buckle (64 * t.toNat + k.free)).count = (s.buckle (64 * t.toNat + k.free)).count + 1) ∧
     exec (.ringTake t) { s with links := { s.links with done := [] } } = .next { s with links := { s.links with done := [] } })

/-- R165 to R169: a count item adds its elements to SEEN, which stays at all-ones; a write of 1 to EN opens the watch; a THR write
with CLR zeroes the three counters of its tag; a tile of another die may not write the block. -/
def Obligations.NumericsWatchCommands : Prop :=
  ∀ (s : State),
    (∀ (t : BitVec 9) (w : WatchItem), (s.watch.find? fun q => q.tile == t.toNat) = some w → t.toNat < 264 → w.tag < 256 →
      ∃ u, exec (.nwtCount t) s = .next u ∧ u.watch = s.watch.erase w ∧
        u.fld (NWT_SEEN (watchDie t.toNat) w.tag) NWT_SEEN_COUNT =
          min (s.fld (NWT_SEEN (watchDie t.toNat) w.tag) NWT_SEEN_COUNT + w.marks.length) (2 ^ 64 - 1)) ∧
    (∀ (d : BitVec 3), s.drain? (.watch d.toNat) = none →
      exec (.nwtEn .cox d 1) s = .next (s.setf (NWT_CTRL d.toNat) NWT_CTRL_EN 1)) ∧
    (∀ (d : BitVec 3), s.drain? (.watch d.toNat) = none → s.bit (NWT_CTRL d.toNat) NWT_CTRL_EN = true → s.watchBusy d.toNat = true →
      ∃ u, exec (.nwtEn .cox d 0) s = .next u ∧ u.fld (NWT_CTRL d.toNat) NWT_CTRL_EN = 0 ∧
        u.fld (NWT_STATUS d.toNat) NWT_STATUS_ACTIVE = 1) ∧
    (∀ (d : BitVec 3) (g : BitVec 8), g ≠ 0 → ∃ u, exec (.nwtClear .cox d g (BitVec.ofNat 64 (2 ^ 32))) s = .next u ∧
      u.rd (NWT_SEEN d.toNat g.toNat) = 0 ∧ u.rd (NWT_ZS d.toNat g.toNat) = 0 ∧ u.rd (NWT_NF d.toNat g.toNat) = 0) ∧
    (∀ (t d : Nat) (v : Word), t / 32 ≠ d → d < 8 → exec (.nwtEn (.tile t) (BitVec.ofNat 3 d) v) s =
      .next (s.setf (NWT_STATUS d) NWT_STATUS_PERM_ERR 1))

/-- R184 to R186: msend queues a message, MSG delivers the head of the queue in order or marks it refused, mrecv takes the oldest
message into the own store with its header, and mcount counts. R187: a write to TIL_MSG_CTRL.EN opens the inbox, or closes it once
nothing is on its way; at the second catch after, senders whose messages the closed inbox still refuses drop them and set ABORT. -/
def Obligations.Messages : Prop :=
  (∀ (s : State) (t : BitVec 8),
     let x := s.tile t.toNat
     (∀ (rt rs : BitVec 5) (n : BitVec 3) (tag : BitVec 11), rs.toNat + n.toNat ≤ 31 →
       Executes s t (.s rt.toNat :: (List.range (n.toNat + 1)).map fun i => .s (rs.toNat + i)) →
       let m : Msg := { who := (x.rs rt.toNat).toNat, tag := tag.toNat, payload := (List.range (n.toNat + 1)).map fun j => x.rs (rs.toNat + j) }
       ((x.rs rt.toNat).toNat ≤ 255 → x.outbox.length < 8 →
         exec (.msend t rt rs n tag) s = .next ((s.setTile t.toNat { x with outbox := x.outbox ++ [m] }).retire1 t.toNat)) ∧
       ((x.rs rt.toNat).toNat ≤ 255 → 8 ≤ x.outbox.length → exec (.msend t rt rs n tag) s = .next s) ∧
       (255 < (x.rs rt.toNat).toNat → exec (.msend t rt rs n tag) s = .next (s.exc t.toNat 0x15 0 (x.rs rt.toNat)))) ∧
     (∀ (m : Msg) (rest : List Msg), x.outbox = m :: rest → m.who ≠ t.toNat → s.stilled t.toNat = false → s.stilled m.who = false →
       s.flows (t.toNat / 32) (m.who / 32) = true →
       let y := s.tile m.who
       (x.refused = false → y.inbox.length < 64 → s.bit (TIL_MSG_CTRL m.who) TIL_MSG_CTRL_EN = true → s.drain? (.inbox m.who) = none →
         ∃ u, exec (.msg t) s = .next u ∧ (u.tile t.toNat).outbox = rest ∧
           (u.tile m.who).inbox = y.inbox ++ [{ who := t.toNat, tag := m.tag, payload := m.payload }] ∧ ∀ c, u.byte c = s.byte c) ∧
       (x.refused = false → 64 ≤ y.inbox.length →
         ∃ u, exec (.msg t) s = .next u ∧ (u.tile t.toNat).outbox = x.outbox ∧ (u.tile t.toNat).refused = true ∧ u.tile m.who = y) ∧
       (x.refused = true → y.inbox.length < 64 → s.bit (TIL_MSG_CTRL m.who) TIL_MSG_CTRL_EN = true → s.drain? (.inbox m.who) = none →
         ∃ u, exec (.messageRefusalRetry t) s = .next u ∧ (u.tile t.toNat).outbox = rest ∧ (u.tile t.toNat).refused = false ∧
           (u.tile m.who).inbox = y.inbox ++ [{ who := t.toNat, tag := m.tag, payload := m.payload }])) ∧
     (∀ (rd a : BitVec 5) (m : Msg) (rest : List Msg), x.inbox = m :: rest → m.payload.length ≤ 8 → x.user = false →
       InSequence s t.toNat → Executes s t [.s a.toNat] → (x.rs a.toNat).toNat % 64 = 0 → inStore t.toNat (x.rs a.toNat).toNat 64 = true →
       s.dataBad (x.rs a.toNat).toNat 64 = false → ∃ u, exec (.mrecv t rd a) s = .next u ∧ (u.tile t.toNat).inbox = rest ∧
         (∀ i, i < m.payload.length → u.bytes ((x.rs a.toNat).toNat + 8 * i) 8 = (m.payload.getD i 0).toNat) ∧
         (∀ r, (u.tile t.toNat).rs r = if r = 0 then 0 else if r = rd.toNat then msgHeader m else x.rs r) ∧
         (∀ c, c < (x.rs a.toNat).toNat ∨ (x.rs a.toNat).toNat + 64 ≤ c → u.byte c = s.byte c)) ∧
     (∀ (rd : BitVec 5), Executes s t [] → exec (.mcount t rd) s = .next (s.finS t.toNat rd.toNat (BitVec.ofNat 64 x.inbox.length)))) ∧
  (∀ (s : State) (t : BitVec 8),
     (s.drain? (.inbox t.toNat) = none → exec (.tilMsgEn .cox t 1) s = .next (s.setf (TIL_MSG_CTRL t.toNat) TIL_MSG_CTRL_EN 1)) ∧
     (s.drain? (.inbox t.toNat) = none → s.bit (TIL_MSG_CTRL t.toNat) TIL_MSG_CTRL_EN = true → (∀ p ∈ s.tiles, p.2.outbox = []) →
       ∃ u, exec (.tilMsgEn .cox t 0) s = .next u ∧ u.fld (TIL_MSG_CTRL t.toNat) TIL_MSG_CTRL_EN = 0 ∧
         u.fld (TIL_MSG_STATUS t.toNat) TIL_MSG_STATUS_ACTIVE = 0 ∧ u.tiles = s.tiles) ∧
     (∀ (v : Nat) (x : Tile) (m : Msg), s.tiles = [(v, x)] → x.refused = true → x.outbox = [m] → m.who = t.toNat → v < 256 →
       s.drains = [⟨.inbox t.toNat, 2, false⟩] →
       ∃ u, exec (.msgDrainLimit t) s = .next u ∧ (u.tile v).outbox = [] ∧ (u.tile v).refused = false ∧
         u.fld (TIL_MSG_STATUS v) TIL_MSG_STATUS_ABORT = 1 ∧ u.fld (TIL_MSG_STATUS v) TIL_MSG_STATUS_ABORT_TILE = t.toNat ∧
         u.drains = []))

/-- R188 to R193: the buckle instructions send their operation to the buckle's home, which performs it in order: bsig adds with
saturation, bset sets, bread answers the count, bwait completes when its count is there. R188, R189, R192, R193: at its home an add
saturates at 2³² − 1 with BUCKLE_SAT, a set replaces, a read answers the count, and a wait or take at the head of the queue takes
its count when it is there; a TIL_BKL write sets. -/
def Obligations.Buckles : Prop :=
  (∀ (s : State) (t : BitVec 8),
     let x := s.tile t.toNat
     let send (b : Nat) (k : BkKind) (y : Tile) : State :=
       { s.setTile t.toNat y with links := { s.links with ops := s.links.ops ++ [⟨t.toNat, b, k⟩] } }
     let same (b : Nat) (k : BkKind) : State := { s with links := { s.links with ops := s.links.ops ++ [⟨t.toNat, b, k⟩] } }
     (∀ rb rn : BitVec 5, Executes s t [.s rb.toNat, .s rn.toNat] → (x.rs rb.toNat).toNat ≤ 16383 → x.user = false →
       exec (.bsig t rb rn) s = .next ((same (x.rs rb.toNat).toNat (.add ((x.rs rn.toNat).toNat % 2 ^ 32))).retire1 t.toNat) ∧
       exec (.bset t rb rn) s = .next ((same (x.rs rb.toNat).toNat (.put ((x.rs rn.toNat).toNat % 2 ^ 32))).retire1 t.toNat) ∧
       (∀ irq, x.waits < 8 → exec (.bwait t rb rn irq) s = .next ((send (x.rs rb.toNat).toNat
         (.wait ((x.rs rn.toNat).toNat % 2 ^ 32) irq) { x with waits := x.waits + 1 }).retire1 t.toNat)) ∧
       (∀ irq, 8 ≤ x.waits → exec (.bwait t rb rn irq) s = .next s)) ∧
     (∀ (b : BitVec 14) (n : BitVec 10), Executes s t [] → x.user = false →
       exec (.bsigi t b n) s = .next ((same b.toNat (.add (n.toNat + 1))).retire1 t.toNat)) ∧
     (∀ rd rb : BitVec 5, Executes s t [.s rb.toNat] → (x.rs rb.toNat).toNat ≤ 16383 → x.user = false →
       exec (.bread t rd rb) s = .next (send (x.rs rb.toNat).toNat .read { x with mode := .bread rd.toNat })) ∧
     (∀ rb rn : BitVec 5, Executes s t [.s rb.toNat, .s rn.toNat] → 16383 < (x.rs rb.toNat).toNat →
       exec (.bsig t rb rn) s = .next (s.exc t.toNat 0x14 0 (x.rs rb.toNat))) ∧
     (∀ (rd : Nat) (v : Nat), x.mode = .bread rd → s.stilled t.toNat = false →
       s.holds (SMap.get (fun _ => t.toNat / 32) s.links.readHome t.toNat) (t.toNat / 32) = false →
       (s.links.reads.find? fun r => r.1 == t.toNat) = some (t.toNat, v) →
       exec (.breadResult t) s = .next ((({ s with links := { s.links with reads := s.links.reads.erase (t.toNat, v) } } : State).setTile
         t.toNat { x with mode := .running }).finS t.toNat rd (BitVec.ofNat 64 v))) ∧
     (∀ irq, s.stilled t.toNat = false → ((s.links.homesOf (.tile t.toNat irq)).head?.all fun q => !s.holds q.2 (t.toNat / 32)) = true → WaitWho.tile t.toNat irq ∈ s.links.done →
       ∃ u, exec (.waitComplete t irq) s = .next u ∧ (u.tile t.toNat).waits = x.waits - 1 ∧
         u.links.done = s.links.done.erase (.tile t.toNat irq) ∧
         (irq = true → u.fld (TIL_BKL_EVT t.toNat) TIL_BKL_EVT_WAIT_DONE = 1))) ∧
  (∀ (s : State) (t h : BitVec 8) (o : BkOp), s.stilled h.toNat = false →
     (s.links.ops.find? fun o => o.tile == t.toNat &&
       (o.buckle / 64 == h.toNat || t.toNat / 32 != h.toNat / 32 && o.buckle / 2048 == h.toNat / 32)) = some o → o.buckle / 64 = h.toNat →
     s.flows (t.toNat / 32) (h.toNat / 32) = true → (s.buckle o.buckle).waiters = [] →
     let c := (s.buckle o.buckle).count
     (∀ n, o.kind = .add n → ∃ u, exec (.bkl t h) s = .next u ∧ (u.buckle o.buckle).count = min (c + n) 0xFFFFFFFF ∧
       (0 < n → 0xFFFFFFFF ≤ c + n → u.fld (TIL_BKL_EVT h.toNat) TIL_BKL_EVT_SAT = 1) ∧ u.links.ops = s.links.ops.erase o) ∧
     (∀ n, o.kind = .put n → ∃ u, exec (.bkl t h) s = .next u ∧ (u.buckle o.buckle).count = min n 0xFFFFFFFF ∧
       u.links.ops = s.links.ops.erase o) ∧
     (o.kind = .read → ∃ u, exec (.bkl t h) s = .next u ∧ u.links.reads = s.links.reads ++ [(o.tile, c)] ∧
       u.links.buckles = s.links.buckles) ∧
     (∀ n irq, o.kind = .wait n irq → 0 < n → n ≤ c → c < 0xFFFFFFFF → ∃ u, exec (.bkl t h) s = .next u ∧
       (u.buckle o.buckle).count = c - n ∧ u.links.done = s.links.done ++ [.tile o.tile irq]) ∧
     (∀ n irq, o.kind = .wait n irq → c < n → ∃ u, exec (.bkl t h) s = .next u ∧
       (u.buckle o.buckle).count = c ∧ (u.buckle o.buckle).waiters = [⟨.tile o.tile irq, n⟩] ∧ u.links.done = s.links.done) ∧
     (∀ n w, o.kind = .take n w → 0 < n → n ≤ c → c < 0xFFFFFFFF → ∃ u, exec (.bkl t h) s = .next u ∧
       (u.buckle o.buckle).count = c - n ∧ u.links.done = s.links.done ++ [w]) ∧
     (∀ (i : BitVec 6) (v : Word), (s.buckle (64 * h.toNat + i.toNat)).waiters = [] → rsvBad (tilBase h.toNat + (0x8000 + 16 * i.toNat)) v = false →
       ∃ u, exec (.tilBklWrite .cox h i v) s = .next u ∧ (u.buckle (64 * h.toNat + i.toNat)).count = v.toNat % 2 ^ 32))

/-- R174, R175: dmpost of a good descriptor queues it with the next ticket, which it answers; with EN 0, or with 64 descriptors in
place and NB set, it answers all ones; without NB it waits. dmstat counts the descriptors in place. R176, R177, R179: a queued
descriptor enters a free slot in order, waits there at its gate, and completes: a copy of one unit moves its bytes, counts them, and
leaves its slot; at the fifth catch of a drain what is left completes. R180, R181: a child of a REDUCE_PUT whose levels are combined
writes its partial into its parent's staging slot of its level and marks it there, once. -/
def Obligations.DataMover : Prop :=
  (∀ (s : State) (t : BitVec 8) (rd a : BitVec 5) (nb : Bool) (op : Nat) (i : Instr) (ws : List Word),
     (op, i) ∈ [(0, Instr.copy t rd a nb), (1, Instr.gather t rd a nb), (2, Instr.scatter t rd a nb), (3, Instr.put t rd a nb),
       (4, Instr.getOp t rd a nb), (5, Instr.reducePut t rd a nb)] →
     Executes s t [.s a.toNat] → PostOk s t.toNat ((s.tile t.toNat).rs a.toNat).toNat op ws →
     let x := s.tile t.toNat
     let k := s.fld (TIL_DM_STATUS t.toNat) TIL_DM_STATUS_TICKET
     let full := 64 ≤ x.dmQueue.length + x.dmSlots.length
     (s.bit (TIL_DM_CTRL t.toNat) TIL_DM_CTRL_EN = true → ¬ full →
       exec i s = .next (((s.setf (TIL_DM_STATUS t.toNat) TIL_DM_STATUS_TICKET (k + 1)).setTile t.toNat { x with
         dmQueue := x.dmQueue ++ [{ words := ws, ticket := k, user := false, crec := 0 }] }).finS t.toNat rd.toNat (BitVec.ofNat 64 k))) ∧
     (s.bit (TIL_DM_CTRL t.toNat) TIL_DM_CTRL_EN = false → exec i s = .next (s.finS t.toNat rd.toNat (BitVec.allOnes 64))) ∧
     (s.bit (TIL_DM_CTRL t.toNat) TIL_DM_CTRL_EN = true → full → nb = true →
       exec i s = .next (s.finS t.toNat rd.toNat (BitVec.allOnes 64))) ∧
     (s.bit (TIL_DM_CTRL t.toNat) TIL_DM_CTRL_EN = true → full → nb = false → exec i s = .next s) ∧
     (Executes s t [] → exec (.dmstat t rd) s = .next (s.finS t.toNat rd.toNat (BitVec.ofNat 64 (x.dmQueue.length + x.dmSlots.length))))) ∧
  (∀ (s : State) (t : BitVec 8),
     let x := s.tile t.toNat
     (∀ (e : DmEntry) (rest : List DmEntry), x.dmQueue = e :: rest → x.dmSlots.length < 4 → x.mode ≠ .frozen → s.stilled t.toNat = false →
       (dmFence e.words = true → x.dmSlots = []) →
       ∃ u q, exec (.descriptorEnterSlot t) s = .next u ∧ (u.tile t.toNat).dmQueue = rest ∧ (u.tile t.toNat).dmSlots = x.dmSlots ++ [q] ∧
         q.entry = e ∧ q.gated = dmGbv e.words ∧ q.next = dmStart e.words) ∧
     (∀ (q : DmSlot) (k : BitVec 32), x.dmSlots = [q] → q.entry.ticket = k.toNat → q.gated = true →
       WaitWho.gate t.toNat k.toNat ∈ s.links.done →
       ∃ u, exec (.gateSatisfied t k) s = .next u ∧ (u.tile t.toNat).dmSlots = [{ q with gated := false }] ∧
         u.links.done = s.links.done.erase (.gate t.toNat k.toNat)) ∧
     (∀ (q : DmSlot) (k : BitVec 32), OneUnitCopy s t.toNat q → q.entry.ticket = k.toNat → x.dmQueue = [] →
       ∃ u, exec (.descriptorComplete t k) s = .next u ∧ (u.tile t.toNat).dmSlots = [] ∧
         u.bytes (dmDst q.entry.words) (dmSize q.entry.words) = s.bytes (dmSrc q.entry.words) (dmSize q.entry.words) ∧
         (∀ c, c < dmDst q.entry.words ∨ dmDst q.entry.words + dmSize q.entry.words ≤ c → u.byte c = s.byte c) ∧
         u.fld (TIL_DM_CNT_BYTES t.toNat) TIL_DM_CNT_BYTES_COUNT =
           (s.fld (TIL_DM_CNT_BYTES t.toNat) TIL_DM_CNT_BYTES_COUNT + dmSize q.entry.words) % 2 ^ TIL_DM_CNT_BYTES_COUNT.len ∧
         u.fld (TIL_DM_CNT_DESC t.toNat) TIL_DM_CNT_DESC_COUNT =
           (s.fld (TIL_DM_CNT_DESC t.toNat) TIL_DM_CNT_DESC_COUNT + 1) % 2 ^ TIL_DM_CNT_DESC_COUNT.len) ∧
     (s.drain? (.mover t.toNat) = none → exec (.tilDmEn .cox t 1) s = .next (s.setf (TIL_DM_CTRL t.toNat) TIL_DM_CTRL_EN 1)) ∧
     (∀ (q : DmSlot) (k : BitVec 32), OneUnitCopy { s with drains := [] } t.toNat q → q.entry.ticket = k.toNat → x.dmQueue = [] →
       s.drains = [⟨.mover t.toNat, 5, false⟩] →
       ∃ u, exec (.dmDrainLimit t 0) s = .next u ∧ (u.tile t.toNat).dmSlots = [] ∧ u.drains = [] ∧ (∀ c, u.byte c = s.byte c) ∧
         u.fld (TIL_DM_STATUS t.toNat) TIL_DM_STATUS_ACTIVE = 0)) ∧
  (∀ (s : State) (t : BitVec 8) (q : DmSlot) (k : BitVec 32), (s.tile t.toNat).dmSlots = [q] → q.entry.ticket = k.toNat →
     s.stilled t.toNat = false → s.stilled (rdFirst q.entry.words) = false → dmOp q.entry.words = 5 → dmStart q.entry.words = 0 → q.gated = false → q.started = true → q.fail = none → q.sent = false →
     rdPos q.entry.words t.toNat = some 1 → q.level = 0 → rdFirst q.entry.words ≠ t.toNat → rdFirst q.entry.words < 256 →
     (s.tile (rdFirst q.entry.words)).dmSlots = [] → s.links.partials = [] →
     s.flows (t.toNat / 32) (rdFirst q.entry.words / 32) = true → q.part < 256 ^ dmSize q.entry.words →
     let a := storeBase (rdFirst q.entry.words) + rdStage q.entry.words
     s.dataBad a (dmSize q.entry.words) = false →
     ∃ u, exec (.reducePartial t k) s = .next u ∧ u.bytes a (dmSize q.entry.words) = q.part ∧
       u.links.partials = [⟨rdFirst q.entry.words, rdStage q.entry.words, 0, rdKey q.entry.words, false, q.flags⟩] ∧
       (u.tile t.toNat).dmSlots = [{ q with sent := true }] ∧
       (∀ c, c < a ∨ a + dmSize q.entry.words ≤ c → u.byte c = s.byte c))

/-- R208, R210: the requester of a slot submits an operation by writing the slot's command register: CLEAN, FLUSH, INVALIDATE, ZERO,
PREFETCH, INVALIDATE_ALL, WAY_TO_SCRATCH, WAY_TO_CACHE, FLUSH_ALL, WAY_DISABLE and WAY_ENABLE join the queue of the Burnisher; a
command that does not pass ends at once with its RESULT; a busy slot sets BUSY_ERR; any other requester sets PERM_ERR. R209, R211,
R213, R214: the idle Burnisher takes the next command and ends it with ARG where its way has become unsuitable; the running command
completes with its effect: a CLEAN writes a dirty line back and keeps it clean, a FLUSH writes it back and invalidates it, an
INVALIDATE leaves no valid line in its range, a ZERO leaves the bytes of its range 0, a PREFETCH fills a free way with its line; a
cancelled range command ends with CANCELLED after the lines done; a cancelled command that waits ends with CANCELLED and 0 lines.
R206, R207, R211, R213, R217: INVALIDATE_ALL leaves no valid line and sets TAGS_VALID; FLUSH_ALL leaves no valid line;
WAY_TO_SCRATCH, WAY_TO_CACHE, WAY_DISABLE and WAY_ENABLE leave no valid line in their way and give it its new state, a scratch way
reading 0. R202, R203, R216 to R219: EN opens a slice whose tags are valid and begins its drain when cleared; the drain limit leaves
no dirty line and ends the drain; a write to a lost entry removes it; an automatic disable moves its way and the clean end disables
it. -/
def Obligations.BurnisherAndSlices : Prop :=
  (∀ (s : State) (m : Master) (d : BitVec 3) (slot : BitVec 6) (v : Word) (op : Nat) (i : Instr),
     (op, i) ∈ burnCommands m d slot v → slot.toNat ≤ 32 →
     let n := d.toNat
     let k := slot.toNat
     let c := burnCmdOf s n k op v
     let rsv := rsvBad (LLS_BURN_CMD n k) (LLS_BURN_CMD_OP.put v op)
     (OwnsSlot m n k → s.bit (LLS_BURN_STATUS n k) LLS_BURN_STATUS_BUSY = false → s.burnReject n c rsv = none →
       ∃ u, exec i s = .next u ∧ (u.burn n).queue = (s.burn n).queue ++ [c] ∧ (u.burn n).running = (s.burn n).running ∧
         u.bit (LLS_BURN_STATUS n k) LLS_BURN_STATUS_BUSY = true ∧ u.store.lines = s.store.lines ∧ Quiet s u) ∧
     (∀ r, OwnsSlot m n k → s.bit (LLS_BURN_STATUS n k) LLS_BURN_STATUS_BUSY = false → s.burnReject n c rsv = some r →
       ∃ u, exec i s = .next u ∧ u.burn n = s.burn n ∧ u.bit (LLS_BURN_STATUS n k) LLS_BURN_STATUS_BUSY = false ∧
         u.bit (LLS_BURN_STATUS n k) LLS_BURN_STATUS_DONE = true ∧ u.fld (LLS_BURN_STATUS n k) LLS_BURN_STATUS_RESULT = r ∧
         u.store.lines = s.store.lines ∧ Quiet s u) ∧
     (OwnsSlot m n k → s.bit (LLS_BURN_STATUS n k) LLS_BURN_STATUS_BUSY = true →
       exec i s = .next (s.setf (LLS_STATUS n) LLS_STATUS_BUSY_ERR 1)) ∧
     (¬ OwnsSlot m n k → exec i s = .next (s.setf (LLS_STATUS n) LLS_STATUS_PERM_ERR 1))) ∧
  (∀ (s : State) (d : BitVec 3) (c : BurnCmd) (lines : BitVec 32), c.slot ≤ 32 → (∀ b, c.cb = some b → b < 16384) → c.len < 2 ^ 32 →
     let n := d.toNat
     let st := LLS_BURN_STATUS n c.slot
     let runs (op : Nat) : Prop := (s.burn n).running = some c ∧ c.op = op ∧ (s.burn n).lost = false ∧ s.bit st LLS_BURN_STATUS_CANCEL = false
     (∀ cs, (s.burn n).running = none → (s.burn n).queue = c :: cs → (8 ≤ c.op → s.wayUnfit n c.op c.way = false) →
       ∃ u, exec (.burnisherStart d) s = .next u ∧ (u.burn n).running = some c ∧ (u.burn n).queue = cs ∧
         u.bit st LLS_BURN_STATUS_RUN = true ∧ (∀ w, w < 16 → u.way n 0 w = (s.way n 0 w || (c.way == w && [9, 10, 12].contains c.op))) ∧
         Quiet s u) ∧
     (∀ cs, (s.burn n).running = none → (s.burn n).queue = c :: cs → 8 ≤ c.op → s.wayUnfit n c.op c.way = true →
       ∃ u, exec (.burnisherStart d) s = .next u ∧ (u.burn n).running = none ∧ (u.burn n).queue = cs ∧ BurnEnded u n c 0x10 0 ∧ Quiet s u) ∧
     (∀ k, runs 1 → OneLineIn s n k c → s.waitsIn c.addr c.len = false →
       ∃ u, exec (.burnisherComplete d lines) s = .next u ∧ (u.burn n).running = none ∧ BurnEnded u n c 0 c.len ∧
         u.line k = { s.line k with dirty := false } ∧ (∀ j, j ≠ k → u.line j = s.line j) ∧ WrittenBack s u k) ∧
     (∀ k, runs 2 → OneLineIn s n k c → s.waitsIn c.addr c.len = false →
       ∃ u, exec (.burnisherComplete d lines) s = .next u ∧ (u.burn n).running = none ∧ BurnEnded u n c 0 c.len ∧
         (u.line k).valid = false ∧ (∀ j, j ≠ k → u.line j = s.line j) ∧ WrittenBack s u k) ∧
     (runs 3 → SMap.wf noLine s.store.lines = true →
       ∃ u, exec (.burnisherComplete d lines) s = .next u ∧ (u.burn n).running = none ∧ BurnEnded u n c 0 c.len ∧
         (∀ k, k / 1048576 = n → (u.line k).valid = true → (u.line k).addr < c.addr ∨ c.addr + 128 * c.len ≤ (u.line k).addr) ∧
         (∀ k, (s.line k).addr < c.addr ∨ c.addr + 128 * c.len ≤ (s.line k).addr → u.line k = s.line k) ∧ Quiet s u) ∧
     (runs 4 → c.addr % 128 = 0 → (∀ i, i < c.len → s.memDown (memOf (c.addr + 128 * i)) = false ∧ s.regionMode (c.addr + 128 * i) = none) →
       ∃ u, exec (.burnisherComplete d lines) s = .next u ∧ (u.burn n).running = none ∧ BurnEnded u n c 0 c.len ∧
         (∀ b, c.addr ≤ b → b < c.addr + 128 * c.len → u.byte b = 0) ∧
         (∀ b, b < c.addr ∨ c.addr + 128 * c.len ≤ b → u.byte b = s.byte b) ∧
         (∀ k, (s.line k).addr < c.addr ∨ c.addr + 128 * c.len ≤ (s.line k).addr → u.line k = s.line k)) ∧
     (∀ w, runs 5 → c.len = 1 → c.addr % 128 = 0 → s.bit (LLS_CTRL n) LLS_CTRL_EN = true → s.hit n c.addr = none →
       s.homeDown n (memOf c.addr) = false → s.lineListed n c.addr = false → s.pageListed n c.addr = false → s.cwErrors c.addr = [] →
       s.cwErrors (c.addr + 64) = [] → s.fillWay n c.addr = some w → (s.line (lineKey n c.addr w)).valid = false →
       ∃ u, exec (.burnisherComplete d lines) s = .next u ∧ (u.burn n).running = none ∧ BurnEnded u n c 0 1 ∧
         u.line (lineKey n c.addr w) =
           { valid := true, dirty := false, addr := c.addr, data := BitVec.ofNat 1024 (s.bytes c.addr 128), bad := 0 } ∧
         (∀ k, k ≠ lineKey n c.addr w → u.line k = s.line k) ∧ Quiet s u) ∧
     ((s.burn n).running = some c → c.op = 3 → s.bit st LLS_BURN_STATUS_CANCEL = true →
       ∃ u, exec (.burnisherComplete d lines) s = .next u ∧ (u.burn n).running = none ∧ BurnEnded u n c 1 (min lines.toNat c.len) ∧
         (∀ k, c.addr + 128 * min lines.toNat c.len ≤ (s.line k).addr → SMap.wf noLine s.store.lines = true → u.line k = s.line k) ∧ Quiet s u) ∧
     (∀ (m : Master) (slot : BitVec 6), slot.toNat = c.slot → OwnsSlot m n c.slot → s.bit st LLS_BURN_STATUS_BUSY = true →
       ((s.burn n).queue = [c] → ∃ u, exec (.burnisherCancel m d slot) s = .next u ∧ (u.burn n).queue = [] ∧ BurnEnded u n c 1 0 ∧ Quiet s u) ∧
       ((s.burn n).queue = [] → exec (.burnisherCancel m d slot) s = .next (s.setf st LLS_BURN_STATUS_CANCEL 1)))) ∧
  (∀ (s : State) (d : BitVec 3) (c : BurnCmd) (lines : BitVec 32), c.slot ≤ 32 → (∀ b, c.cb = some b → b < 16384) → c.way < 16 →
     let n := d.toNat
     let base := 0x030000000000 + n * 0x8000000 + c.way * 0x800000
     (s.burn n).running = some c → (s.burn n).lost = false →
     (c.op = 8 → ∃ u, exec (.burnisherComplete d lines) s = .next u ∧ (u.burn n).running = none ∧ (∃ l, BurnEnded u n c 0 l) ∧
       (∀ k, k / 1048576 = n → (u.line k).valid = false) ∧ u.bit (LLS_STATUS n) LLS_STATUS_TAGS_VALID = true ∧ Quiet s u) ∧
     (c.op = 9 → ∃ u, exec (.burnisherComplete d lines) s = .next u ∧ (u.burn n).running = none ∧ (∃ r, BurnEnded u n c r 65536) ∧
       WayCleared s u n c.way ∧ u.way n 0 c.way = false ∧ u.way n 16 c.way = true ∧
       ∀ b, base ≤ b → b < base + 0x800000 → u.byte b = 0) ∧
     (c.op = 10 → ∃ u, exec (.burnisherComplete d lines) s = .next u ∧ (u.burn n).running = none ∧ BurnEnded u n c 0 65536 ∧
       WayCleared s u n c.way ∧ u.way n 0 c.way = false ∧ u.way n 16 c.way = false ∧ Quiet s u) ∧
     (c.op = 11 → ∃ u, exec (.burnisherComplete d lines) s = .next u ∧ (u.burn n).running = none ∧ (∃ r l, BurnEnded u n c r l) ∧
       ∀ k, k / 1048576 = n → (u.line k).valid = false) ∧
     (c.op = 12 → ∃ u, exec (.burnisherComplete d lines) s = .next u ∧ (u.burn n).running = none ∧ (∃ r, BurnEnded u n c r 65536) ∧
       WayCleared s u n c.way ∧ u.way n 0 c.way = false ∧ u.way n 32 c.way = true ∧ u.bit (LLS_STATUS n) LLS_STATUS_WAY_EVT = true) ∧
     (c.op = 13 → ∃ u, exec (.burnisherComplete d lines) s = .next u ∧ (u.burn n).running = none ∧ BurnEnded u n c 0 65536 ∧
       WayCleared s u n c.way ∧ u.way n 32 c.way = false ∧ Quiet s u)) ∧
  (∀ (s : State) (d : BitVec 3),
     let n := d.toNat
     (∀ v : Word, v.getLsbD 0 = true → rsvBad (LLS_CTRL n) v = false → s.drain? (.store n) = none →
       (s.bit (LLS_STATUS n) LLS_STATUS_TAGS_VALID = true → exec (.llsEn .cox d v) s = .next (s.setf (LLS_CTRL n) LLS_CTRL_EN 1)) ∧
       (s.bit (LLS_STATUS n) LLS_STATUS_TAGS_VALID = false →
         exec (.llsEn .cox d v) s = .next (s.setf (LLS_STATUS n) LLS_STATUS_SEQ_ERR 1))) ∧
     (∀ v : Word, v.getLsbD 0 = false → rsvBad (LLS_CTRL n) v = false → s.drain? (.store n) = none → s.bit (LLS_CTRL n) LLS_CTRL_EN = true →
       ∃ u, exec (.llsEn .cox d v) s = .next u ∧ u.bit (LLS_CTRL n) LLS_CTRL_EN = false ∧ u.bit (LLS_STATUS n) LLS_STATUS_ACTIVE = true ∧
         u.drains = s.drains ++ [⟨.store n, 0, false⟩] ∧ u.store = s.store ∧ Quiet s u) ∧
     (∀ v : Word, rsvBad (LLS_CTRL n) v = true → exec (.llsEn .cox d v) s = .next (s.setf (LLS_STATUS n) LLS_STATUS_VER_ERR 1)) ∧
     (∀ v, exec (.llsEn .host d v) s = .next (s.setf (LLS_STATUS n) LLS_STATUS_PERM_ERR 1)) ∧
     (s.drain? (.store n) = some ⟨.store n, 1025, false⟩ →
       ∃ u, exec (.llsDrainLimit d) s = .next u ∧ NoDirtyLine u n ∧ u.drain? (.store n) = none ∧
         u.bit (LLS_STATUS n) LLS_STATUS_ACTIVE = false) ∧
     (∀ e : BitVec 6, ∃ u, exec (.lostEntryRemove .cox d e) s = .next u ∧ u.bit (LLS_LOST n e.toNat) LLS_LOST_V = false ∧
         (∀ a, a ≠ LLS_LOST n e.toNat → u.rd a = s.rd a) ∧ u.store = s.store ∧ Quiet s u) ∧
     (∀ w : BitVec 4, s.way n 0 w.toNat = false → s.way n 32 w.toNat = false → s.way n 16 w.toNat = false → 5 ≤ s.eligibleCount n →
       8 ≤ (SMap.get noHist s.store.parHist (n * 16 + w.toNat)).length →
       ∃ u, exec (.automaticWayDisable d w) s = .next u ∧ u.way n 0 w.toNat = true ∧ u.way n 32 w.toNat = false ∧
         (∀ v, v ≠ w.toNat → v < 16 → u.way n 0 v = s.way n 0 v) ∧ u.store.lines = s.store.lines ∧ Quiet s u) ∧
     (∀ w : BitVec 4, s.way n 0 w.toNat = true → s.burnMoves n w.toNat = false →
       ∃ u, exec (.wayCleanEnd d w) s = .next u ∧ u.way n 0 w.toNat = false ∧ u.way n 32 w.toNat = true ∧
         WayCleared s u n w.toNat ∧ u.bit (LLS_STATUS n) LLS_STATUS_WAY_EVT = true))

/-- R223, R224, R226, R229, R232 to R236, R471: thresholds are written where they are in order and legal; a sample sets the
temperature and moves the thermal state; a window ends, with the retraining it held; an unscheduled retraining is marked; patrol
corrects a codeword of one bad symbol and counts it; the end of the sweep leaves no bad symbol; an OFFLINE memory's drain limit
leaves no dirty line. -/
def Obligations.MemoryControllerCommands : Prop :=
  ∀ (s : State) (mem : BitVec 6),
    let m := mem.toNat
    let warn := s.fld (HBM_THR m) HBM_THR_WARN
    let throt := s.fld (HBM_THR m) HBM_THR_THROT
    let crit := s.fld (HBM_THR m) HBM_THR_CRIT
    (∀ v : Word, rsvBad (HBM_THR m) v = false → ∃ u, exec (.thrWrite .cox mem v) s = .next u ∧ Quiet s u ∧
      if HBM_THR_WARN.get v < HBM_THR_THROT.get v ∧ HBM_THR_THROT.get v < HBM_THR_CRIT.get v ∧ HBM_THR_CRIT.get v ≤ Config.critLimit m then
        u.fld (HBM_THR m) HBM_THR_WARN = HBM_THR_WARN.get v ∧ u.fld (HBM_THR m) HBM_THR_THROT = HBM_THR_THROT.get v ∧
        u.fld (HBM_THR m) HBM_THR_CRIT = HBM_THR_CRIT.get v ∧ ∀ a, a ≠ HBM_THR m → u.rd a = s.rd a
      else u = s.setf (HBM_STATE m) HBM_STATE_ARG_ERR 1) ∧
    (∀ v, exec (.thrWrite .host mem v) s = .next (s.setf (HBM_STATE m) HBM_STATE_PERM_ERR 1)) ∧
    (∀ (temp : BitVec 8) (ov : Bool) (left : BitVec 32), warn < throt → throt < crit →
      ∃ u, exec (.memoryTemperatureSample mem temp ov left) s = .next u ∧ u.fld (HBM_STATE m) HBM_STATE_TEMP = temp.toNat ∧
        (ov = true → u.bit (HBM_STATE m) HBM_STATE_OVERLIMIT = true) ∧
        (let st := s.fld (HBM_STATE m) HBM_STATE_TSTATE
         let new := u.fld (HBM_STATE m) HBM_STATE_TSTATE
         (3 ≤ st → new = st) ∧ (st < 3 → (∀ k, (s.crew k).state ≠ 2) → (crit : Int) ≤ temp.toInt → new = 3 ∧ (u.memInfo m).offlineAt = some s.now) ∧
         (st < 3 → (throt : Int) ≤ temp.toInt → temp.toInt < crit → new = 2) ∧
         (st = 0 → (warn : Int) ≤ temp.toInt → temp.toInt < throt → new = 1) ∧
         (st = 0 → temp.toInt < warn → new = 0) ∧
         (st = 1 → 15 ≤ (s.memInfo m).coolWarn → temp.toInt < (warn : Int) - 3 → new = 0) ∧
         (st = 1 → (warn : Int) - 3 ≤ temp.toInt → temp.toInt < throt → new = 1) ∧
         (st = 2 → temp.toInt < throt → new = 2))) ∧
    (∀ (e : Word) (retrain : Bool), (s.memInfo m).window = some (e, retrain) → after e s.now = false →
      ∃ u, exec (.memoryWindowEnd mem) s = .next u ∧ (u.memInfo m).window = none ∧
        (retrain = true → (u.memInfo m).lastRetrain = s.stroke.ticks ∧ u.fld (HBM_REPAIR m) HBM_REPAIR_PENDING = 0) ∧
        (retrain = false → u.mmio = s.mmio ∧ (u.memInfo m).lastRetrain = (s.memInfo m).lastRetrain) ∧ Quiet s u) ∧
    (s.memDown m = false → (s.memInfo m).lastRetrain + 3600000 ≤ s.stroke.ticks →
      ∃ u, exec (.unscheduledRetrain mem) s = .next u ∧ u.bit (HBM_STATE m) HBM_STATE_UNSCHED = true ∧
        (u.memInfo m).lastRetrain = s.stroke.ticks ∧ Quiet s u) ∧
    (∀ a : BitVec 48, regionOf a.toNat = .hbm m → s.memDown m = false → s.unswept m a.toNat = false → s.codeword a.toNat = 1 →
      (s.row (rowOf m a.toNat)).corrected.length < 3 →
      ∃ u, exec (.patrolScrub a) s = .next u ∧ u.codeword a.toNat = 0 ∧
        u.fld (HBM_CNT_CORR m) HBM_CNT_CORR_COUNT = min (s.fld (HBM_CNT_CORR m) HBM_CNT_CORR_COUNT + 1) (2 ^ 32 - 1) ∧
        s.now ∈ (u.row (rowOf m a.toNat)).corrected ∧ (∀ b, u.byte b = (s.decoded a.toNat).byte b) ∧
        (∀ b, b / 64 ≠ a.toNat / 64 → u.byte b = s.byte b) ∧ u.tiles = s.tiles) ∧
    (∀ a : BitVec 48, memEnd m ≤ a.toNat → s.bit (HBM_STATE m) HBM_STATE_SWEEP = true → SMap.get noNat s.store.sweepPos m < memEnd m →
      ∃ u, exec (.initialSweep mem a) s = .next u ∧ u.bit (HBM_STATE m) HBM_STATE_SWEEP = false ∧
        (∀ b, b % 64 = 0 → memOf b = m → b < memEnd m → u.codeword b = 0) ∧
        (∀ b, memOf (b / 64 * 64) = m → b < memEnd m → u.byte b = (s.differ b (s.cwErrors b)).byte b) ∧
        (∀ b, s.cwErrors b = [] → u.byte b = s.byte b) ∧ u.tiles = s.tiles) ∧
    (∀ n, (s.memInfo m).offlineAt = some n → 64 < (s.now - n).toNat →
      ∃ u, exec (.offlineDrainLimit mem) s = .next u ∧ (u.memInfo m).offlineAt = none ∧
        ∀ k, k / 1048576 = memDie m → memOf (u.line k).addr = m → ((u.line k).valid && (u.line k).dirty) = false)

/-- R242, R243: the four words of a slot, the last one written last, submit one command, or are rejected with a CODE in the slot's
SUB_STATUS. R241, R247 to R251: a command begins at its START; it ends with its last page, shown where that page is not valid, at
DUE without a frame with a record of STATUS 4, or with the drain of the streamer; a frame enters the pool or is refused; the pool is
placed; enables open the streamer and a context. -/
def Obligations.ContextStreamer : Prop :=
  (∀ (s : State) (m : Master) (d : BitVec 3) (i : BitVec 6) (w0 w1 w2 w3 : Word) (op : Nat) (c : Instr),
     (op, c) ∈ streamCommands m d i w0 w1 w2 w3 → (m = .cox ∧ i.toNat = 32 ∨ i.toNat < 32 ∧ m = .tile (32 * d.toNat + i.toNat)) →
     let n := d.toNat
     let v0 := Fld.put ⟨56, 4⟩ w0 op
     (s.cxsReject n v0 w2 w3 = none →
       ∃ u, exec c s = .next u ∧ u.cxsQueue n = s.cxsQueue n ++ [cxsCmdOf s i.toNat op w0 w1 w2 w3] ∧
         u.rd (CXS_SUB_STATUS n i.toNat) = 0 ∧ (∀ e, e ≠ n → u.cxsQueue e = s.cxsQueue e) ∧ Quiet s u) ∧
     (∀ code, s.cxsReject n v0 w2 w3 = some code →
       ∃ u, exec c s = .next u ∧ u.cxsQueue n = s.cxsQueue n ∧
         u.rd (CXS_SUB_STATUS n i.toNat) = BitVec.ofNat 64 (2 ^ 63 + code) ∧ Quiet s u)) ∧
  (∀ (s : State) (d : BitVec 3),
     let n := d.toNat
     let tail := s.addr (CXS_POOL_BASE n) CXS_POOL_BASE_BASE + 8 * ((s.fld (CXS_POOL_PTR n) CXS_POOL_PTR_HEAD + s.poolCount n) %
       2 ^ s.fld (CXS_POOL_BASE n) CXS_POOL_BASE_SZ)
     (∀ c, s.cxsQueue n = [c] → c.running = false → after c.start s.now = false → s.bit DEV_STATUS DEV_STATUS_EASY = false →
       ∃ u, exec (.cxsEligible d) s = .next u ∧ u.cxsQueue n = [{ c with running := true }] ∧ Quiet s u) ∧
     (∀ c v w, s.cxsQueue n = [c] → c.running = true → s.bit DEV_STATUS DEV_STATUS_EASY = false → c.count = c.done + 1 →
       c.ending = none → s.poolLate n = [] → c.crec = 0 → c.cb = none → c.op ∈ [1, 2, 5, 6] → s.drains = [] → v.cxsQueue n = [c] → v.drains = [] →
       s.cxsRead (s.addr (CXS_CTX_PT_BASE n c.ctx) CXS_CTX_PT_BASE_PT_BASE + 16 * (c.first + c.done)) 16 = (v, .ok w) →
       w / 2 ^ 48 % 2 ^ 16 = 0 → w / 2 ^ 112 = 0 →
       ∃ u, exec (.cxsComplete d 0) s = .next u ∧ u.cxsQueue n = [] ∧ u.mem = v.mem ∧
         u.fld (CXS_CNT_PAGES n) CXS_CNT_PAGES_VALUE = (v.fld (CXS_CNT_PAGES n) CXS_CNT_PAGES_VALUE + 1) % 2 ^ 64) ∧
     (∀ c t, s.cxsQueue n = [c] → c.running = true → c.waits = true → c.ending = none → after c.due s.now = false →
       s.poolCount n = 0 → s.bit DEV_STATUS DEV_STATUS_EASY = false → c.cb = none → regionOf c.crec = .store t → s.stilled t = false →
       s.flows n (dieOf c.crec) = true → s.dataBad c.crec 16 = false →
       ∃ u, exec (.cxsDue d 0) s = .next u ∧ u.cxsQueue n = [] ∧ u.bytes c.crec 8 = 4 * 2 ^ 56 + (c.first + c.done) % 2 ^ 24 ∧
         (∀ a, a < c.crec ∨ c.crec + 16 ≤ a → u.byte a = s.byte a)) ∧
     (∀ c, s.cxsQueue n = [c] → c.ending = none → c.cb = none → c.crec = 0 → s.bit DEV_STATUS DEV_STATUS_EASY = false → s.drains = [⟨.streamer n, 1025, false⟩] →
       ∃ u, exec (.cxsDrainLimit d 128) s = .next u ∧ u.cxsQueue n = [] ∧ u.drains = [] ∧
         u.bit (CXS_STATUS n) CXS_STATUS_ACTIVE = false ∧ Quiet s u) ∧
     (∀ (v : Word), let fr := CXS_POOL_ADD_FRAME.get v * 65536
       let asked : State := { s with store := { s.store with poolAdds := s.store.poolAdds ++ [(n, fr)] } }
       (v.toNat / 2 ^ 48 ≠ 0 → exec (.cxsPoolAdd .cox d v) s = .next (s.setf (CXS_STATUS n) CXS_STATUS_VER_ERR 1)) ∧
       (v.toNat / 2 ^ 48 = 0 → v.toNat % 65536 = 0 → dieHbm n fr 65536 = true → s.pageRetired (memOf fr) fr = false → s.poolLate n = [] →
         s.fld (CXS_POOL_BASE n) CXS_POOL_BASE_SZ ≤ 20 → 0 < s.fld (CXS_POOL_BASE n) CXS_POOL_BASE_SZ →
         s.poolCount n < 2 ^ s.fld (CXS_POOL_BASE n) CXS_POOL_BASE_SZ → (asked.memWrite .cxs n tail 8 fr).2 = none →
         ∃ u, exec (.cxsPoolAdd .cox d v) s = .next u ∧ u.poolCount n = s.poolCount n + 1) ∧
       (v.toNat / 2 ^ 48 = 0 → (v.toNat % 65536 ≠ 0 ∨ dieHbm n fr 65536 = false ∨ s.pageRetired (memOf fr) fr = true) →
         exec (.cxsPoolAdd .cox d v) s = .next (s.setf (CXS_STATUS n) CXS_STATUS_POOL_ERR 1))) ∧
     (∀ v : Word, rsvBad (CXS_POOL_BASE n) v = false → s.bit (CXS_CTRL n) CXS_CTRL_EN = false →
       s.bit (CXS_STATUS n) CXS_STATUS_ACTIVE = false → 4 ≤ CXS_POOL_BASE_SZ.get v → CXS_POOL_BASE_SZ.get v ≤ 20 →
       dieHbm n (CXS_POOL_BASE_BASE.get v * 4096) (8 * 2 ^ CXS_POOL_BASE_SZ.get v) = true →
       ∃ u, exec (.cxsPoolBaseWrite .cox d v) s = .next u ∧ u.fld (CXS_POOL_BASE n) CXS_POOL_BASE_SZ = CXS_POOL_BASE_SZ.get v ∧
         u.fld (CXS_POOL_BASE n) CXS_POOL_BASE_BASE = CXS_POOL_BASE_BASE.get v ∧ u.rd (CXS_POOL_PTR n) = 0 ∧ Quiet s u) ∧
     (∀ v : Word, rsvBad (CXS_CTRL n) v = false → v.getLsbD 0 = true → s.drains = [] →
       ∃ u, exec (.cxsEn .cox d v) s = .next u ∧ u.bit (CXS_CTRL n) CXS_CTRL_EN = true ∧
         u.fld (CXS_CTRL n) CXS_CTRL_SHARE = CXS_CTRL_SHARE.get v ∧ u.store = s.store ∧ Quiet s u) ∧
     (∀ (c : BitVec 7) (v : Word), rsvBad (CXS_CTX_CTRL n c.toNat) v = false → CXS_CTX_CTRL_EN.get v = 1 → s.drains = [] →
       s.bit (CXS_CTX_CTRL n c.toNat) CXS_CTX_CTRL_EN = false → s.bit (CXS_CTX_CTRL n c.toNat) CXS_CTX_CTRL_ACTIVE = false →
       (s.ctxBad n c.toNat v = 0 → ∃ u, exec (.contextEn .cox d c v) s = .next u ∧ u.bit (CXS_CTX_CTRL n c.toNat) CXS_CTX_CTRL_EN = true ∧
         u.fld (CXS_CTX_CTRL n c.toNat) CXS_CTX_CTRL_HBM_FMT = CXS_CTX_CTRL_HBM_FMT.get v ∧
         u.fld (CXS_CTX_CTRL n c.toNat) CXS_CTX_CTRL_BULK_FMT = CXS_CTX_CTRL_BULK_FMT.get v ∧ u.store = s.store ∧ Quiet s u) ∧
       (s.ctxBad n c.toNat v = 2 → ∃ u, exec (.contextEn .cox d c v) s = .next u ∧
         u.bit (CXS_CTX_CTRL n c.toNat) CXS_CTX_CTRL_EN = false ∧ u.bit (CXS_STATUS n) CXS_STATUS_ARG_ERR = true ∧ Quiet s u)))

/-- R255 to R258, R263 to R265, R267: a port takes the new flit it expects and the flits of a replay, and rejects damaged flits and
other SEQs, the eighth attempt at one SEQ starting a recovery; no flit passes a port that holds its traffic; a recovery starts, ends
with spares in use, and fails; a port trains at full width or with a module out, is enabled, and drains. R197, R225, R262, R268,
Table 10.6: a read or write of a line reaches its home and is answered, with the data of the cache line or of memory, or with an
error, or it waits there; its answer returns; a store on its way is performed; a note reaches the Cox. -/
def Obligations.VekinPortsAndMessages : Prop :=
  (∀ (s : State) (k : BitVec 4) (p : BitVec 3), isPort k.toNat p.toNat = true →
     let n := k.toNat
     let q := p.toNat
     let x := s.port n q
     let peer := peerOf n q
     let y := s.port peer.1 peer.2
     let runs (k p : Nat) : Prop := s.portState k p = 2 ∨ s.portState k p = 3
     let head (f : BitVec 2048) := flitW f 0
     let good (f : BitVec 2048) : Prop := flitCrc f = BitVec.ofNat 64 (flitW f 0xF0) ∧ flitGrowth f = false ∧
       (head f).testBit 33 = false ∧ bitsAt (head f) 48 12 = x.expect
     (∀ f ready, runs n q → runs peer.1 peer.2 → good f → (head f).testBit 35 = false → (head f).testBit 34 = false →
       bitsAt (head f) 14 11 = 0 → bitsAt (head f) 0 11 = 0 → (∀ c, c < 14 → flitMap f c = 0) →
       y.replay = 0 → y.sinceAck < 31 → y.nak = false → y.nextSeq = x.expect → y.unacked.length < 512 →
       x.credits.length = 8 → (∀ c, c < 8 → x.credits.getD c 0 ≤ portBuffers.getD c 0) →
       ∃ u, exec (.flit k p f ⟨0, 0⟩ ⟨false, ready⟩) s = .next u ∧ (u.port n q).expect = (x.expect + 1) % 4096 ∧ (u.port n q).rejRun = 0 ∧
         (u.port n q).waits = false ∧ (u.port n q).unacked = x.unacked ∧ u.portState n q = s.portState n q ∧
         (u.port peer.1 peer.2).nextSeq = (y.nextSeq + 1) % 4096 ∧ (u.port peer.1 peer.2).unacked = y.unacked ++ [f] ∧ Quiet s u) ∧
     (∀ f ready, runs n q → runs peer.1 peer.2 → 0 < y.replay → y.replay ≤ y.unacked.length →
       let g := y.unacked.getD (y.unacked.length - y.replay) 0
       ∃ u, exec (.flit k p f ⟨0, 0⟩ ⟨true, ready⟩) s = .next u ∧ (u.port peer.1 peer.2).replay = y.replay - 1 ∧
         (u.port peer.1 peer.2).unacked = y.unacked ∧ (good g → (u.port n q).expect = (x.expect + 1) % 4096 ∧ (u.port n q).waits = false) ∧
         u.mem = s.mem) ∧
     (∀ f err perr ready t, runs n q → runs peer.1 peer.2 → s.sendFlit peer.1 peer.2 f ready = some t →
       (flitCrc (f ^^^ err) ≠ BitVec.ofNat 64 (flitW (f ^^^ err) 0xF0) ∨ flitParity (f ^^^ err) ≠ flitParity f ^^^ perr) →
       (x.rejRun < 7 → x.rejStroke ≠ s.now → ∃ u, exec (.flit k p f ⟨err, perr⟩ ⟨false, ready⟩) s = .next u ∧ (u.port n q).expect = x.expect ∧
         (u.port n q).nak = true ∧ (u.port n q).waits = true ∧ u.portState n q = s.portState n q ∧
         u.fld (VKN_CNT_CRC n q) VKN_CNT_CRC_COUNT = min (s.fld (VKN_CNT_CRC n q) VKN_CNT_CRC_COUNT + 1) (2 ^ 32 - 1) ∧ u.mem = s.mem) ∧
       (x.rejRun = 7 → flitSeq f = some x.expect →
         ∃ u, exec (.flit k p f ⟨err, perr⟩ ⟨false, ready⟩) s = .next u ∧ u.portState n q = 4 ∧ u.mem = s.mem)) ∧
     (∀ f ready t, runs n q → runs peer.1 peer.2 → s.sendFlit peer.1 peer.2 f ready = some t → (head f).testBit 33 = false →
       bitsAt (head f) 48 12 ≠ x.expect → x.rejRun < 7 → x.rejStroke ≠ s.now →
       ∃ u, exec (.flit k p f ⟨0, 0⟩ ⟨false, ready⟩) s = .next u ∧ (u.port n q).expect = x.expect ∧ (u.port n q).nak = true ∧
         (u.port n q).waits = true ∧ u.portState n q = s.portState n q ∧ u.mem = s.mem) ∧
     (∀ f err perr again ready, ¬ runs n q ∨ ¬ runs peer.1 peer.2 → exec (.flit k p f ⟨err, perr⟩ ⟨again, ready⟩) s = .next s) ∧
     (runs n q → rsvBad (VKN_PCTRL n q) (s.rd (VKN_PCTRL n q) &&& 1 ||| 2) = false →
       ∃ u, exec (.recov .cox k p) s = .next u ∧ u.portState n q = 4 ∧ (u.port n q).fails = 0 ∧
         u.bit (VKN_PCTRL n q) VKN_PCTRL_EN = s.bit (VKN_PCTRL n q) VKN_PCTRL_EN ∧ u.mem = s.mem) ∧
     (s.portState n q = 4 → (∀ m, m < fullWidth n q → (s.rd (VKN_PLANES n q)).getLsbD (4 * m + 3) = false) → x.weak = [] →
       (∃ u, exec (.recoveryEnd k p (some [])) s = .next u ∧ u.portState n q = 2 ∧ (u.port n q).fails = 0 ∧
         (u.port n q).replay = x.unacked.length ∧ u.mem = s.mem) ∧
       (s.fld (VKN_PLANES n q) ⟨0, 3⟩ ≤ 3 → x.deadSpares.getD 0 0 = 0 → ∃ u, exec (.recoveryEnd k p (some [1])) s = .next u ∧
         u.fld (VKN_PLANES n q) ⟨0, 3⟩ = s.fld (VKN_PLANES n q) ⟨0, 3⟩ + 1 ∧ u.portState n q = 2 ∧ u.mem = s.mem)) ∧
     (s.portState n q = 4 → x.fails < 2 →
       exec (.recoveryEnd k p none) s = .next (s.setPort n q { x with fails := x.fails + 1 })) ∧
     (s.portState n q = 4 → x.fails = 2 → ∃ u, exec (.recoveryEnd k p none) s = .next u ∧ u.portState n q = 5 ∧
       u.bit (VKN_PSTATUS n q) VKN_PSTATUS_FAIL = true) ∧
     (s.portState n q = 1 →
       (∃ u, exec (.vknPortTrained k p []) s = .next u ∧ u.portState n q = 2 ∧ u.port n q = Port.init ∧ u.rd (VKN_PLANES n q) = 0 ∧
         u.mem = s.mem) ∧
       (∃ u, exec (.vknPortTrained k p [(5, 0)]) s = .next u ∧ u.portState n q = 3 ∧ u.bit (VKN_PSTATUS n q) VKN_PSTATUS_DEGRADE = true ∧
         u.rd (VKN_PLANES n q) = 8)) ∧
     (∀ v : Word, rsvBad (VKN_PCTRL n q) (v &&& ~~~ 2) = false → s.drain? (.rigger n q) = none →
       (v.getLsbD 0 = true → s.portState n q = 0 → ∃ u, exec (.vknPortEn .cox k p v) s = .next u ∧
         u.bit (VKN_PCTRL n q) VKN_PCTRL_EN = true ∧ u.portState n q = 1 ∧ u.mem = s.mem) ∧
       (v.getLsbD 0 = false → s.bit (VKN_PCTRL n q) VKN_PCTRL_EN = true → ∃ u, exec (.vknPortEn .cox k p v) s = .next u ∧
         u.bit (VKN_PCTRL n q) VKN_PCTRL_EN = false ∧ u.bit (VKN_PSTATUS n q) VKN_PSTATUS_ACTIVE = true ∧ u.mem = s.mem)) ∧
     (s.drain? (.rigger n q) = some ⟨.rigger n q, 2, false⟩ → s.bit (VKN_PCTRL n q) VKN_PCTRL_EN = false →
       (∀ w ∈ s.vekin.old, w.link ≠ linkOf n q) →
       ∃ u, exec (.vknDrainLimit k p) s = .next u ∧ u.portState n q = 0 ∧ u.bit (VKN_PSTATUS n q) VKN_PSTATUS_ACTIVE = false ∧
         u.drain? (.rigger n q) = none ∧ (u.port n q).unacked = [] ∧ u.mem = s.mem)) ∧
  (∀ (s : State),
     (∀ (cls : BitVec 3) (src : BitVec 4) (unit : BitVec 12) (tag : BitVec 16) (a : BitVec 48) (c : Cls), clsOf cls.toNat = some c →
       let l := a.toNat / 128 * 128
       let n := homeDie l
       let answer (e : Option Nat) (v : Option (BitVec 1024)) : Rsp := ⟨dieOf l, src.toNat, unit.toNat, tag.toNat, e, v, c⟩
       let told (w : State) (r : Rsp) : State := { w with vekin := { w.vekin with rsp := w.vekin.rsp ++ [r] } }
       s.flows src.toNat (dieOf l) = true →
       (∀ w v, s.memRead c l 128 = (w, .ok v) → exec (.rd cls src unit tag a) s = .next (told w (answer none (some (BitVec.ofNat 1024 v))))) ∧
       (∀ w e b, s.memRead c l 128 = (w, .error (e, b)) → exec (.rd cls src unit tag a) s =
         .next (if e = .held then w else told w (answer (some (errArg c false e)) none))) ∧
       (∀ (v : BitVec 1024) w, s.memWrite c unit.toNat l 128 v.toNat = (w, none) →
         exec (.wr cls src unit tag a v) s = .next (told w (answer none none))) ∧
       (∀ (v : BitVec 1024) w e b, s.memWrite c unit.toNat l 128 v.toNat = (w, some (e, b)) → exec (.wr cls src unit tag a v) s =
         .next (if e = .held then w else told w (answer (some (errArg c true e)) none))) ∧
       (∀ w, LineServed s l → s.hit n l = some w → (s.line (lineKey n l w)).bad = 0 → ∃ u, exec (.rd cls src unit tag a) s = .next u ∧
         u.vekin.rsp = s.vekin.rsp ++ [answer none (some (s.line (lineKey n l w)).data)] ∧ Quiet s u) ∧
       (MemoryServes s c l 128 →
         (∃ u, exec (.rd cls src unit tag a) s = .next u ∧
           u.vekin.rsp = s.vekin.rsp ++ [answer none (some (BitVec.ofNat 1024 (s.bytes l 128)))] ∧ Quiet s u) ∧
         (∀ v, WriteFree s l 128 → ∃ u, exec (.wr cls src unit tag a v) s = .next u ∧
           u.vekin.rsp = s.vekin.rsp ++ [answer none none] ∧ Stored s u l 128 v.toNat))) ∧
     (∀ (t a w v : Nat), s.store.outStores = [⟨t, a, w, v, false⟩] →
       exec (.wrp 0) s = .next (s.performStore ⟨t, a, w, v, false⟩).1 ∧
       (MemoryServes s .scalar a w → WriteFree s a w → s.flows (t / 32) (dieOf a) = true →
         ∃ u, exec (.wrp 0) s = .next u ∧ u.store.outStores = [] ∧ Stored s u a w v)) ∧
     (∀ (dst : BitVec 4) (unit : BitVec 12) (r : Rsp), s.vekin.rsp = [r] → r.dst = dst.toNat → r.unit = unit.toNat →
       s.holds r.src r.dst = false →
       let done : State := { s with vekin := { s.vekin with rsp := [] } }
       (r.data.isSome = true → exec (.rdata dst unit) s = .next done ∧ exec (.wack dst unit) s = .next s) ∧
       (r.data = none → r.err = none → exec (.wack dst unit) s = .next done ∧ exec (.err dst unit) s = .next s) ∧
       (r.err.isSome = true → exec (.err dst unit) s = .next done)) ∧
     (∀ (d : BitVec 3) (i : CoxIrq), s.links.notes = [i] → (i.reg - dieBase 0) / 0x02000000 = d.toNat → s.flows d.toNat 8 = true →
       let v : State := { s with links := { s.links with notes := [] }, coxIrq := s.coxIrq ++ [i] }
       (i.ev = none → exec (.note d) s = .next v) ∧ (∀ e, i.ev = some e → exec (.note d) s = .next (v.event e))))

/-- R236, R269: a tile's write to any register of a memory controller or of a VKN_ block is discarded and sets PERM_ERR, and a
tile's read of any of them answers the register. -/
def Obligations.LinkAndMemoryRegistersAreTheCoxs : Prop :=
  ∀ (s : State) (a : Nat), a < 2 ^ 52 → a % 8 = 0 → (descOf a).isSome = true →
    (∀ (t : Nat) (v : Word),
      (∀ k, k ≤ 8 → vknBase k ≤ a → a < vknBase k + 0x100000 →
        exec (.registerWrite (.tile t) (BitVec.ofNat 52 a) v) s = .next (s.setf (VKN_STATUS k) VKN_STATUS_PERM_ERR 1)) ∧
      (∀ m, m < 64 → memBase m ≤ a → a < memBase m + (if m < 16 then 0x40000 else 0x1000) →
        exec (.registerWrite (.tile t) (BitVec.ofNat 52 a) v) s = .next (s.setf (HBM_STATE m) HBM_STATE_PERM_ERR 1))) ∧
    (((∃ k, k ≤ 8 ∧ vknBase k ≤ a ∧ a < vknBase k + 0x100000) ∨
        (∃ m, m < 64 ∧ memBase m ≤ a ∧ a < memBase m + (if m < 16 then 0x40000 else 0x1000))) →
      ∀ (t : BitVec 8), s.flows (t.toNat / 32) (dieOf a) = true → s.store.outStores = [] → s.links.ctlReads = [⟨t.toNat, a, 8, none⟩] →
        exec (.crd t) s = .next { s with links := { s.links with ctlReads := [⟨t.toNat, a, 8, some (s.rd a).toNat⟩] } })

/-- R25 to R36, R54: pulses, missed windows, Syncs and the loss of Sync move the lock; the source and the period are selected; a
load is armed and cancelled. -/
def Obligations.StrokeSourceAndLock : Prop :=
  ∀ (s : State), (∀ k, (s.crew k).state ≠ 2) → s.pllRuns = true →
    let period := s.stroke.period
    let ptpPeriod := s.fld STK_PERIOD STK_PERIOD_PERIOD_NS
    let comp := s.fld STK_IN_COMP STK_IN_COMP_COMP_NS
    (∀ (w : BitVec 16) t iv, w.toNat < 100 ∨ 400 < w.toNat ∧ w.toNat < 800 ∨ 1600 < w.toNat →
      exec (.strokePulse w t iv) s = .next (s.stick STK_CNT_SPUR STK_CNT_SPUR_COUNT 1)) ∧
    (∀ (w : BitVec 16) (t : BitVec 24), s.src = 1 → 100 ≤ w.toNat → w.toNat ≤ 400 → comp ≤ t.toNat →
      1024 * (t.toNat - comp) ≤ period → 0 < period →
      (s.stkState = 2 → ∃ u, exec (.strokePulse w t none) s = .next u ∧ u.stroke.edgeCatch = some s.now ∧ u.stroke.missRun = 0 ∧
        u.mmio = s.mmio ∧ Quiet s u) ∧
      (s.stkState = 1 → s.stroke.slewed = false → s.bit STK_CTRL STK_CTRL_STEP_OK = false →
        ∃ u, exec (.strokePulse w t none) s = .next u ∧ u.stkState = 1 ∧ u.stroke.slewed = true ∧ u.stroke.qual = 0) ∧
      (s.stkState = 1 → s.stroke.qual = 15 → s.stroke.slewed = true → s.bit STK_CTRL STK_CTRL_STEP_OK = false →
        ∃ u, exec (.strokePulse w t none) s = .next u ∧ u.stkState = 2 ∧
        u.stroke.lockedOnce = true ∧ u.now = s.now ∧ Quiet s u)) ∧
    (∀ (w : BitVec 16) (t : BitVec 24), s.src = 1 → 800 ≤ w.toNat → w.toNat ≤ 1600 → t.toNat = comp → 0 < period → s.stkState = 2 →
      s.now.toNat % 65536 ≠ 0 → s.bit STK_NUM_LOAD STK_NUM_LOAD_PEND = false →
      ∃ u, exec (.strokePulse w t none) s = .next u ∧ u.bit STK_STATUS STK_STATUS_MARK_ERR = true ∧ u.now = s.now) ∧
    (s.src = 1 → s.stroke.edgeCatch ≠ some s.now →
      ∃ u, exec .missedWindow s = .next u ∧
        u.fld STK_CNT_MISS STK_CNT_MISS_COUNT = min (s.fld STK_CNT_MISS STK_CNT_MISS_COUNT + 1) (2 ^ 32 - 1) ∧
        (s.stroke.missRun = 0 → u.stkState = s.stkState ∧ u.stroke.missRun = 1) ∧
        (1 ≤ s.stroke.missRun → s.stkState = 2 → u.stkState = 3) ∧ Quiet s u) ∧
    (∀ (p : BitVec 3) (dom : BitVec 8) (tr : BitVec 2) (iv : BitVec 8) (time : BitVec 64) (offset : BitVec 17) (gm : BitVec 64),
      s.src = 2 → s.fabUp p.toNat = true → p.toNat = s.fld STK_CTRL STK_CTRL_PTP_PORT →
      -7 ≤ iv.toInt → iv.toInt ≤ 0 → dom.toNat = s.stroke.ptp.getD 0 0 →
      (tr.toNat ≠ s.stroke.ptp.getD 1 0 → exec (.ptpSync p time offset ⟨dom, tr, iv, gm⟩) s = .next (s.fabDrop p.toNat)) ∧
      (tr.toNat = s.stroke.ptp.getD 1 0 → s.stroke.grandmaster = none → s.stkState = 1 →
        s.stroke.lockedOnce = false → s.stroke.qual = 15 → s.stroke.slewed = true → s.bit STK_CTRL STK_CTRL_STEP_OK = false →
        (s.rd STK_EPOCH).toNat ≤ time.toNat → 0 < ptpPeriod → 1024 * offset.toInt.natAbs ≤ ptpPeriod →
        ∃ u, exec (.ptpSync p time offset ⟨dom, tr, iv, gm⟩) s = .next u ∧ u.stkState = 2 ∧
          u.now = BitVec.ofInt 64 ((time.toNat - (s.rd STK_EPOCH).toNat + offset.toInt) / ptpPeriod) ∧
          u.stroke.grandmaster = some gm.toNat ∧ .fabric p.toNat 2 (1 :: s.stroke.ptp) ∈ u.sent ∧ Quiet s u)) ∧
    (s.src = 2 → s.stkState = 2 → ∃ u, exec .syncIntervalLoss s = .next u ∧ u.stkState = 3 ∧
      u.rd STK_HOLD_CNT = s.rd STK_HOLD_CNT ∧ u.now = s.now ∧ Quiet s u) ∧
    (65536 ≤ s.fld STK_HOLD_CNT STK_HOLD_CNT_COUNT → s.stkState = 3 → ∃ u, exec .holdoverAged s = .next u ∧
      u.bit STK_STATUS STK_STATUS_AGED = true ∧ u.now = s.now ∧ Quiet s u) ∧
    (∀ v : Word, rsvBad STK_CTRL v = false → STK_CTRL_SRC.get v ≠ 3 → STK_CTRL_SRC.get v ≠ s.src → s.drains = [] →
      STK_CTRL_EVT_EN.get v = s.fld STK_CTRL STK_CTRL_EVT_EN →
      ∃ u, exec (.stkSourceSelect .cox v) s = .next u ∧ u.src = STK_CTRL_SRC.get v ∧ u.stkState = 0 ∧ u.stroke.lockedOnce = false ∧
        u.bit STK_NUM_LOAD STK_NUM_LOAD_PEND = false ∧ u.now = s.now ∧ Quiet s u) ∧
    (∀ v : Word, rsvBad STK_PERIOD v = false →
      (s.stkState = 0 → 2000 ≤ STK_PERIOD_PERIOD_NS.get v → STK_PERIOD_PERIOD_NS.get v ≤ 100000 →
        exec (.stkPeriodWrite .cox v) s = .next (s.wr STK_PERIOD v)) ∧
      (s.stkState ≠ 0 ∨ STK_PERIOD_PERIOD_NS.get v < 2000 ∨ 100000 < STK_PERIOD_PERIOD_NS.get v →
        exec (.stkPeriodWrite .cox v) s = .next (s.stkRaise STK_STATUS_ARG_ERR))) ∧
    (∀ v : Word, v &&& 0xFFFC = 0 →
      (s.src ≠ 2 → ∃ u, exec (.stkNumLoad .cox v) s = .next u ∧ u.bit STK_NUM_LOAD STK_NUM_LOAD_PEND = true ∧
        u.fld STK_NUM_LOAD STK_NUM_LOAD_NUM_HI = STK_NUM_LOAD_NUM_HI.get v ∧ Quiet s u) ∧
      (s.src = 2 → exec (.stkNumLoad .cox v) s = .next (s.stkRaise STK_STATUS_ARG_ERR)) ∧
      exec (.strokeLoadCancel .cox v) s = .next ((s.setf STK_NUM_LOAD STK_NUM_LOAD_PEND 0).strk fun k => { k with loadNext := none }))

/-- R42 to R45, R47 to R50, R474: an entry is written, armed, freed, fires and repeats; its event reaches its target; EVT_EN drains.
R22, R23, R28, R40: a catch on which nothing waits advances the stroke number by one, or takes the loaded number, and clears the
phase; a management tick counts and latches its place. -/
def Obligations.CatchesAndEvents : Prop :=
  (∀ (s : State) (i : BitVec 9), s.drains = [] →
     let n := i.toNat
     let cnt := s.fld (STK_EVT_W3 n) STK_EVT_W3_FIRE_CNT
     (∀ (j : BitVec 2) (v : Word), j.toNat < 3 → s.evtOwner n = 0 →
       (s.evtState n ≠ 1 → rsvBad (STK_EVT_DUE n + 8 * j.toNat) v = false →
         exec (.catchEventWrite .cox i j v) s = .next (s.wr (STK_EVT_DUE n + 8 * j.toNat) v)) ∧
       (s.evtState n = 1 → exec (.catchEventWrite .cox i j v) s = .next (s.stkRaise STK_STATUS_BUSY_ERR))) ∧
     (∀ t, s.evtOwner n ≠ t / 32 + 1 → exec (.catchEventArm (.tile t) i) s = .next (s.stkRaise STK_STATUS_PERM_ERR)) ∧
     (s.evtOwner n = 0 → s.evtState n ≠ 1 →
       (s.armBad n = none → ∃ u, exec (.catchEventArm .cox i) s = .next u ∧ u.rd (STK_EVT_W3 n) = 1 ∧ n ∈ u.stroke.armedNow ∧
         (∀ a, a ≠ STK_EVT_W3 n → u.rd a = s.rd a) ∧ Quiet s u) ∧
       (∀ f, s.armBad n = some f → exec (.catchEventArm .cox i) s = .next (s.stkRaise f))) ∧
     (s.evtOwner n = 0 → s.firesNow n = false →
       exec (.catchEventFree .cox i) s = .next (s.setf (STK_EVT_W3 n) STK_EVT_W3_STATE 0)) ∧
     (∀ p, s.evtNext = some (p, n) → s.evtDue n = s.now → p < 1024 → s.bit STK_CTRL STK_CTRL_EVT_EN = true → s.easy = false →
       s.evtKind n ∈ [0, 4, 7, 8] →
       ∃ u, exec (.eventFire i) s = .next u ∧ u.stkPhase = p ∧ u.fld (STK_EVT_W3 n) STK_EVT_W3_FIRE_CNT = min (cnt + 1) 65535 ∧
         u.stroke.inFlight = (if s.evtKind n = 0 then s.stroke.inFlight
           else s.stroke.inFlight ++ [⟨n, s.evtKind n, s.evtTarget n, s.evtArg n, s.now⟩]) ∧
         (s.fld (STK_EVT_W2 n) STK_EVT_W2_REPEAT = 0 → u.evtState n = 2) ∧
         (0 < s.fld (STK_EVT_W2 n) STK_EVT_W2_REPEAT → u.evtState n = s.evtState n ∧
           u.rd (STK_EVT_DUE n) = s.rd (STK_EVT_DUE n) + BitVec.ofNat 64 (s.fld (STK_EVT_W2 n) STK_EVT_W2_REPEAT)) ∧ Quiet s u) ∧
     (∀ p, s.evtNext = some (p, n) → s.bit STK_CTRL STK_CTRL_EVT_EN = false →
       ∃ u, exec (.eventFire i) s = .next u ∧ u.evtState n = 3 ∧ u.stroke = s.stroke ∧ Quiet s u) ∧
     (∀ e : EventMsg, s.stroke.inFlight = [e] → e.entry = n → s.flows 8 e.die = true →
       let v : State := { s with stroke := { s.stroke with inFlight := [] } }
       (e.kind = 4 → exec (.evt i) s = .next (v.openWindow e.target e.arg e.fired)) ∧
       (e.kind = 7 → exec (.evt i) s = .next (v.bkAdd e.target e.arg)) ∧
       (e.kind = 8 → s.ring (e.arg / 8) = none → 
         let w := v.latchIrq e.target 4
         exec (.evt i) s = .next (if w.evtState n = 2 then w.coxFree n else w))) ∧
     (∀ e : EventMsg, s.stroke.inFlight = [e] → e.entry = n →
       ∃ u, exec .evtDrainLimit { s with drains := [⟨.events, 2, false⟩] } = .next u ∧ u.evtState n = 3 ∧ u.stroke.inFlight = [] ∧
         u.bit STK_STATUS STK_STATUS_EVT_ACTIVE = false ∧ u.drains = [] ∧ Quiet s u) ∧
     (∀ on, STK_CTRL_SRC.get (s.rd STK_CTRL) ≠ 3 →
       rsvBad STK_CTRL (STK_CTRL_EVT_EN.put (s.rd STK_CTRL) (if on then 1 else 0)) = false → s.stroke.inFlight = [] →
       ∃ u, exec (.evtEn .cox on) s = .next u ∧ u.bit STK_CTRL STK_CTRL_EVT_EN = on ∧
         u.src = s.src ∧ u.drains = [] ∧ u.stroke = s.stroke ∧ Quiet s u) ∧
     (∀ held, s.stroke.inFlight = [] → ∃ u, exec .drainEnd { s with drains := [⟨.events, 0, held⟩] } = .next u ∧ u.drains = [] ∧
       u.bit STK_STATUS STK_STATUS_EVT_ACTIVE = false ∧ (held = true → u.bit STK_CTRL STK_CTRL_EVT_EN = true) ∧
       u.stroke = s.stroke ∧ Quiet s u)) ∧
  (∀ (s : State), s.evtNext = none → s.pllRuns = true →
     (∀ vin iin pin : BitVec 16, s.fabric.crews = [] → s.fabric.ctxs = [] → s.fabric.waits = [] → s.fabric.ops = [] → s.store.memInfo = [] →
       s.host.posted = [] → s.host.reads = [] → s.boot.dataReset = none →
       (s.src ≠ 0 ∨ s.bit STK_NUM_LOAD STK_NUM_LOAD_PEND = false) →
       ∃ u, exec (.catchCmd vin iin pin) s = .next u ∧ u.now = s.stroke.loadNext.getD (s.now + 1) ∧ u.stkPhase = 0 ∧
         u.stroke.loadNext = none ∧ u.stroke.armedNow = [] ∧
         u.fld PWR_MEAS PWR_MEAS_PIN = pin.toNat ∧ u.mem = s.mem ∧ u.pending = s.pending) ∧
     (∀ (p : BitVec 10) (inlet outlet : BitVec 8), s.stkPhase ≤ p.toNat → s.bit DEV_STATUS DEV_STATUS_COX_RST = false →
       ∃ u, exec (.managementTick p inlet outlet) s = .next u ∧ u.stroke.ticks = s.stroke.ticks + 1 ∧ u.stkPhase = p.toNat ∧
         u.fld STK_TICK_LATCH STK_TICK_LATCH_TICK = (s.stroke.ticks + 1) % 2 ^ 22 ∧
         u.fld STK_TICK_LATCH STK_TICK_LATCH_PHASE = p.toNat ∧ u.now = s.now ∧ Quiet s u))

/-- R275, R280: in the order of the checks, a request with a growth field is answered VERSION, one without an open session
NO_SESSION, one whose role is too low DENIED; none of them has an effect but the answer. R277, R468: an answer of the BAR0 origin
stands in the mailbox's response area, which enters DONE, or FREE after a reset; one of an MCTP endpoint leaves with its tag; the
log gains two records. -/
def Obligations.CoxRequestsAndAnswers : Prop :=
  (∀ (s : State) (code need : Nat) (member refused : Bool) (i : Instr) (r : CoxReq), IsCoxCommand refused code need member i →
     s.cox.queue = [r] → r.cmd = code → s.coxIdle = false →
     (r.growth = true → CoxDone s i r s.coxPop (Ans.at 7 0xFFFF)) ∧
     (r.growth = false → s.sessionOf r = none → CoxDone s i r s.coxPop (Ans.err 5)) ∧
     (∀ x, r.growth = false → (s.sessionOf r).isSome = true → (taken s r).sessionOf r = some x → roleOk x.role need member = false →
       CoxDone s i r (taken s r) (Ans.err 6))) ∧
  (∀ (s : State) (r : CoxReq) (a : Ans),
     (∀ m, r.origin = .bar0 m → a.payload.length ≤ 504 → let u := s.coxAnswer r a
       (∀ i, i < 8 + a.payload.length → u.mailWord m (512 + i) = (s.ansWords r a).getD i 0) ∧
       ((s.mailbox m).freeAtEnd = false → (u.mailbox m).state = 3) ∧ ((s.mailbox m).freeAtEnd = true → u.mailbox m = Mailbox.free) ∧
       u.cox.sessions = s.cox.sessions ∧ u.cox.lops = s.cox.lops ∧ u.mmio = s.mmio ∧ Quiet s u) ∧
     (∀ ep tag, r.origin = .mctp ep tag → let u := s.coxAnswer r a
       u.sent = .management 0 ([ep, tag] ++ mctpHead ++ (s.ansWords r a).map BitVec.toNat) :: s.sent ∧ u.mmio = s.mmio ∧ Quiet s u) ∧
     (∀ m, r.origin = .bar0 m → s.cox.log.length + 2 ≤ 4096 → (s.coxAnswer r a).cox.log.length = s.cox.log.length + 2))

/-- R271 to R274, R276: claim, doorbell, release and expiry move a mailbox through its states while no request of the host waits; a
request joins the queue of the Cox, an MCTP endpoint's ninth one is answered BUSY, and an MCTP message that is no command has no
effect (the model's choice, log 166). R279 to R282, R288: HELLO opens a session with the lowest free number, BYE and the lease's
expiry close it, PING answers the time, EVENT_READ takes records in order, EVENT_MASK replaces the mask; a full event queue counts
an event as lost, and an event in an MCTP session's queue asserts ALERT_N. -/
def Obligations.MailboxesAndSessions : Prop :=
  (∀ (s : State) (m : BitVec 9),
     let k := m.toNat
     let x := s.mailbox k
     (s.hostOpen = true → s.host.posted = [] → s.host.reads = [] →
       (∀ tag : BitVec 14, x.state = 0 → (∀ j, j < k → (s.mailbox j).state ≠ 0) →
         ∃ u, exec (.mbClaim tag) s = .next u ∧ u.mailbox k = { state := 1, tick := s.stroke.ticks, freeAtEnd := false } ∧
           u.host.cpls = s.host.cpls ++ [⟨tag.toNat, 0, 8, k⟩] ∧ u.mmio = s.mmio ∧ Quiet s u) ∧
       (∀ tag : BitVec 14, (∀ j, j < 512 → (s.mailbox j).state ≠ 0) →
         exec (.mbClaim tag) s = .next (s.complete tag.toNat 0 8 (2 ^ 63))) ∧
       (x.state = 1 ∨ x.state = 3 → s.cox.queue = [] →
         (coxCodes.contains (s.mailReq k).cmd = true →
           ∃ u, exec (.mbDoorbell (BitVec.ofNat 64 k)) s = .next u ∧ u.cox.queue = [s.mailReq k] ∧ (u.mailbox k).state = 2 ∧
             u.mmio = s.mmio ∧ Quiet s u) ∧
         (coxCodes.contains (s.mailReq k).cmd = false → s.coxIdle = false → (s.mailReq k).growth = false → x.freeAtEnd = false →
           (s.sessionOf (s.mailReq k)).isSome = true →
           ∃ u, exec (.mbDoorbell (BitVec.ofNat 64 k)) s = .next u ∧ u.cox.queue = [] ∧ (u.mailbox k).state = 3 ∧
             (u.mailWord k 512).toNat % 65536 = 3 ∧ Quiet s u)) ∧
       (x.state = 0 ∨ x.state = 2 → exec (.mbDoorbell (BitVec.ofNat 64 k)) s = .next (s.mbErr 1 k)) ∧
       (x.state = 1 ∨ x.state = 3 → exec (.mbRelease (BitVec.ofNat 64 k)) s = .next (s.setMailbox k Mailbox.free)) ∧
       (x.state = 0 ∨ x.state = 2 → exec (.mbRelease (BitVec.ofNat 64 k)) s = .next (s.mbErr 2 k))) ∧
     (x.state = 1 → x.tick + 1000 ≤ s.stroke.ticks → exec (.claimExpiry m) s = .next ((s.setMailbox k Mailbox.free).mbErr 4 k)) ∧
     (∀ (ep tag typ : BitVec 8) (vendor : BitVec 16) (code : BitVec 8) (h0 h1 : Word) (rest : Bool) (ws : List Word),
       let q : CoxReq := { origin := .mctp ep.toNat tag.toNat, h0 := h0, h1 := h1, rest := rest, tick := s.stroke.ticks, words := ws }
       let call := exec (.mctpRequest ep ⟨tag, typ, vendor, code⟩ h0 h1 rest ws) s
       (typ = 0x7E → vendor = 0x1F3C → code = 0x01 →
         (s.cox.queue = [] → coxCodes.contains q.cmd = true → call = .next { s with cox := { s.cox with queue := [q] } }) ∧
         (∀ p : CoxReq, s.cox.queue = List.replicate 8 { p with origin := .mctp ep.toNat 0 } →
           ∃ u, call = .next u ∧ u.cox = s.cox ∧
             u.sent = .management 0 ([ep.toNat, tag.toNat] ++ mctpHead ++ (s.ansWords q (Ans.err 2)).map BitVec.toNat) :: s.sent)) ∧
       (typ ≠ 0x7E ∨ vendor ≠ 0x1F3C ∨ code ≠ 0x01 → call = .next s))) ∧
  (∀ (s : State) (r : CoxReq),
     (∀ n, s.cox.queue = [r] → r.cmd = 1 → r.session = 0 → s.coxIdle = false → r.growth = false → r.len = 24 → r.origin.party ≠ 2 →
       let w0 := r.words.getD 0 0
       field w0 31 30 < 2 → field w0 17 0 = 0 → r.w 2 < 8192 → r.w 2 % 2 = 0 → field w0 63 56 = 2 → field w0 47 40 ≤ 2 →
       2 ≤ field w0 39 32 → s.cox.sessions.length < 4096 → (∀ x ∈ s.cox.sessions, x.num ≠ 0) → s.freeSession = some n →
       ∃ v a x, CoxDone s .hello r v a ∧ a.status = 0 ∧ v.cox.sessions = s.cox.sessions ++ [x] ∧ x.num = n ∧
         x.party = r.origin.party ∧ x.client = r.words.getD 1 0 ∧ x.role = field w0 31 30 ∧ x.mask = r.w 2 ∧ x.queue = [] ∧
         x.minor = min (field w0 55 48) (s.fld FW_IFACE_VER FW_IFACE_VER_MINOR) ∧ (a.payload.getD 0 0).toNat / 2 ^ 48 = n % 65536 ∧ Quiet s v) ∧
     (∀ x, CoxServes s 2 0 true r x → r.len = 0 → (∀ l ∈ s.cox.lops, l.session ≠ x.num) →
       ∃ v, CoxDone s .bye r v (Ans.ok []) ∧ (∀ y ∈ v.cox.sessions, y.num ≠ x.num) ∧ v.cox.lops = s.cox.lops ∧
         (x.num, s.stroke.ticks) ∈ v.cox.closed ∧ Quiet s v) ∧
     (∀ x, CoxServes s 3 0 true r x → r.len = 0 → CoxDone s .ping r (taken s r) (Ans.ok [s.tickStroke])) ∧
     (∀ x, CoxServes s 4 0 false r x → r.kept = none → r.len = 8 → 0 < r.w 0 → r.w 0 ≤ 251 →
       (taken s r).cox.sessions.find? (·.num == x.num) = some x →
       ∃ v a, CoxDone s .eventRead r v a ∧ a.status = 0 ∧
         a.payload = BitVec.ofNat 64 ((x.queue.take (r.w 0)).length * 2 ^ 48 + min x.lost 65535 * 2 ^ 32) ::
           (x.queue.take (r.w 0)).flatMap EvRec.words ∧
         v.cox.sessions.find? (·.num == x.num) = some { x with queue := x.queue.drop (r.w 0), lost := 0 } ∧ Quiet s v) ∧
     (∀ x, CoxServes s 5 0 false r x → r.kept = none → r.len = 8 → r.w 0 < 8192 → r.w 0 % 2 = 0 →
       (taken s r).cox.sessions.find? (·.num == x.num) = some x →
       ∃ v, CoxDone s .eventMask r v (Ans.ok [BitVec.ofNat 64 x.mask]) ∧
         v.cox.sessions.find? (·.num == x.num) = some { x with mask := r.w 0 } ∧ Quiet s v) ∧
     (∀ x e, s.cox.sessions.find? (·.num == x.num) = some x → let u := s.sessionEvent x e
       (64 ≤ x.queue.length → u.cox.sessions.find? (·.num == x.num) = some { x with lost := x.lost + 1 }) ∧
       (x.queue.length < 64 → ∃ k : EvRec, k.ev = e ∧ u.cox.sessions.find? (·.num == x.num) = some { x with queue := x.queue ++ [k] }) ∧
       (x.party = 1 → u.alertLow = true)) ∧
     (∀ (n : BitVec 16) x, s.cox.sessions.find? (·.num == n.toNat) = some x → s.lastDoor x + 1000 ≤ s.stroke.ticks →
       s.bit DEV_STATUS DEV_STATUS_COX_RST = false → s.cox.lops = [] →
       ∃ u, exec (.sessionLeaseExpiry n) s = .next u ∧ u.cox.sessions = s.cox.sessions.filter (fun y => y.num ≠ n.toNat) ∧
         (n.toNat, s.stroke.ticks) ∈ u.cox.closed ∧ u.mmio = s.mmio ∧ Quiet s u))

/-- R286, R287: the commands about long operations query, suspend, resume, cancel and list the client's own; an ended handle expires
after 60,000 ticks. R286, R289: a long command whose arguments pass its checks starts an operation, QUEUED, and is accepted with its
handle. R287, R226, R295: an operation starts, works from safe point to safe point, and ends: RUNNING with its start tick; suspended
where that was asked; DONE once its work is complete. -/
def Obligations.LongOperations : Prop :=
  (∀ (s : State) (r : CoxReq) (x : Session) (l : Lop),
     ((taken s r).lop (r.w 0) = some l → l.party = x.party → l.client = x.client → r.len = 8 →
       (CoxServes s 0x10 0 false r x → CoxDone s .lopQuery r (taken s r) (Ans.ok l.record)) ∧
       (CoxServes s 0x11 1 false r x → l.cmd ∈ [0x60, 0x92, 0xA0] → l.state = 0 →
         ∃ v a, CoxDone s .lopSuspend r v a ∧ a.status = 0 ∧ v.lop (r.w 0) = some { l with state := 2, status := 8 } ∧ Quiet s v) ∧
       (CoxServes s 0x11 1 false r x → l.cmd ∈ [0x60, 0x92, 0xA0] → l.state = 1 →
         ∃ v a, CoxDone s .lopSuspend r v a ∧ a.status = 0 ∧ v.lop (r.w 0) = some { l with suspend := true } ∧ Quiet s v) ∧
       (CoxServes s 0x12 1 false r x → l.state = 2 →
         ∃ v a, CoxDone s .lopResume r v a ∧ a.status = 0 ∧ v.lop (r.w 0) = some { l with state := 0, status := 0, suspend := false } ∧
           Quiet s v) ∧
       (CoxServes s 0x13 1 false r x → l.cmd ∈ [0x60, 0x92, 0xA0] → l.state = 0 ∨ l.state = 2 →
         ∃ v a, CoxDone s .lopCancel r v a ∧ a.status = 0 ∧
           v.lop (r.w 0) = some { l with state := 4, status := 9, cause := 0, endTick := s.tick32 } ∧ Quiet s v) ∧
       (CoxServes s 0x13 1 false r x → l.cmd ∈ [0x60, 0x92, 0xA0] → l.state = 1 →
         ∃ v a, CoxDone s .lopCancel r v a ∧ a.status = 0 ∧ v.lop (r.w 0) = some { l with cancel := true } ∧ Quiet s v)) ∧
     (CoxServes s 0x10 0 false r x → r.len = 8 → (taken s r).lop (r.w 0) = none →
       CoxDone s .lopQuery r (taken s r) (Ans.err 0x0E)) ∧
     (CoxServes s 0x14 0 false r x → r.len = 8 →
       CoxDone s .lopList r (taken s r) (Ans.ok (((s.cox.lops.filter fun l => l.party == x.party && l.client == x.client && r.w 0 ≤ l.handle).take
         250).flatMap fun l => [BitVec.ofNat 64 l.handle, BitVec.ofNat 64 l.state]))) ∧
     (∀ h : BitVec 32, s.lop h.toNat = some l → l.live = false → 60000 ≤ (s.stroke.ticks + 2 ^ 32 - l.endTick) % 2 ^ 32 →
       ∃ u, exec (.handleExpiry h) s = .next u ∧ u.lop h.toNat = none ∧ u.cox.sessions = s.cox.sessions ∧ u.mmio = s.mmio ∧ Quiet s u)) ∧
  (∀ (s : State) (r : CoxReq) (x : Session), LopRoom s →
     let a := r.w 0
     let n := r.w 1
     (CoxServes s 0x42 2 false r x → r.len = 24 → tilesBad a n = false → r.w 2 < 2 → s.tilesStop (tilesOf a n) = none →
       ∃ v q, CoxDone s .tileReset r v q ∧ LopAdded s v r x [a, n, r.w 2] q ∧ v.tiles = s.tiles ∧ Quiet s v) ∧
     (CoxServes s 0x60 2 false r x → r.len = 16 → a % 65536 = 0 → 0 < n → n % 65536 = 0 → a + n ≤ 0x00C000000000 → s.easy = false →
       (∀ m, m < 64 → s.memDown m = false) → ∃ v q, CoxDone s .scrub r v q ∧ LopAdded s v r x [a, n, 0, 0] q ∧ Quiet s v) ∧
     (CoxServes s 0x61 1 false r x → r.len = 32 → a < 8 → 0 < n → n ≤ 5 → s.easy = false → s.slot32Live a = false → s.reach 8 a = true →
       ∃ v q, CoxDone s .burnish r v q ∧ LopAdded s v r x [a, n, r.w 2, r.w 3] q ∧ Quiet s v) ∧
     (CoxServes s 0x62 2 false r x → r.len = 24 → a < 8 → n ∈ [0x9, 0xA, 0xC, 0xD] → r.w 2 < 16 → s.easy = false → s.slot32Live a = false →
       s.reach 8 a = true → ∃ v q, CoxDone s .llsWay r v q ∧ LopAdded s v r x [a, n, r.w 2] q ∧ Quiet s v) ∧
     (CoxServes s 0x63 2 false r x → r.len = 8 → a < 64 → s.easy = false → (s.memInfo a).retired = false → s.reach 8 (memDie a) = true →
       ∃ v q, CoxDone s .memOnline r v q ∧ LopAdded s v r x [a] q ∧ Quiet s v) ∧
     (CoxServes s 0x80 2 false r x → r.len = 96 → firstBad (s.joinChecks r) = none → s.pstate = 0 ∨ s.pstate = 5 → s.liveOf 0x80 = none →
       s.liveOf 0x81 = none → (∀ i, i < 256 → s.regMode i < 2) → s.freeEntry.isSome = true → s.freeCtx.isSome = true →
       ∃ v q, CoxDone s .pairJoin r v q ∧ LopAdded s v r x (r.words.map BitVec.toNat) q ∧ Quiet s v) ∧
     (CoxServes s 0x81 2 false r x → r.len = 0 → s.liveOf 0x81 = none →
       ∃ v q, CoxDone s .pairLeave r v q ∧ LopAdded s v r x [] q ∧ Quiet s v) ∧
     (CoxServes s 0x91 2 false r x → r.len = 8 → s.easy = false → s.liveOf 0xA0 = none → s.liveOf 0xA1 = none → s.liveOf 0xB0 = none →
       ∃ v q, CoxDone s .easyEnter r v q ∧ LopAdded s v r x [a] q ∧ Quiet s v) ∧
     (CoxServes s 0x92 2 false r x → r.len = 8 → 0 < a → a < 256 → s.easy = false → s.liveOf 0x92 = none →
       ∃ v q, CoxDone s .marginReplan r v q ∧ LopAdded s v r x [a, 0] q ∧ Quiet s v) ∧
     (CoxServes s 0xA0 2 false r x → r.len = 16 → s.fwBusy = false →
       ∃ v q, CoxDone s .fwStage r v q ∧ LopAdded s v r x [a, n] q ∧ Quiet s v) ∧
     (CoxServes s 0xA1 2 false r x → r.len = 0 → s.bit SEC_STATUS SEC_STATUS_STAGED = true → s.fwBusy = false → s.pstate = 0 →
       ∃ v q, CoxDone s .fwActivate r v q ∧ LopAdded s v r x [] q ∧ Quiet s v) ∧
     (CoxServes s 0xB0 2 false r x → r.len = 8 → a < 3 → s.bootStage = 7 → s.pstate = 0 → s.easy = false → s.fwBusy = false →
       s.fabric.crews = [] →
       ∃ v q, CoxDone s .dataReset r v q ∧ LopAdded s v r x [a] q ∧ v.bit DEV_STATUS DEV_STATUS_READY = false ∧ v.bootStage = 8 ∧
         v.boot.dataReset = some (s.newHandle, a, 0) ∧ Quiet s v) ∧
     (CoxServes s 0x71 1 false r x → r.len = 80 → firstBad (crewFormChecks { Crew.none with p := r.words, state := 1 }) = none →
       Crew.lead { Crew.none with p := r.words } = true → Crew.nmem { Crew.none with p := r.words } = 1 → s.fabric.crews = [] →
       ∃ v q, CoxDone s .crewForm r v q ∧ LopAdded s v r x [0] q ∧ (v.crew 0).state = 1 ∧ (v.crew 0).p = r.words ∧
         (v.crew 0).handle = s.newHandle ∧ (v.owned 3 0).isSome = true ∧ Quiet s v) ∧
     (CoxServes s 0x72 1 false r x → r.len = 16 → a < 1024 → (s.crew a).state = 2 → s.otherOwns 3 a x = false → (s.crew a).leaving = none →
       ∃ v q, CoxDone s .crewLeave r v q ∧ LopAdded s v r x [a, n] q ∧ (v.crew a).leaving = some s.newHandle ∧
         (v.crew a).members = (s.crew a).members ∧ Quiet s v)) ∧
  (∀ (s : State) (h : BitVec 32) (l : Lop), s.lop h.toNat = some l → s.coxIdle = false →
     (l.state = 0 → l.cmd ∈ [0x63, 0x91, 0xA1, 0xB0] → l.startTick = 0 →
       ∃ u, exec (.longOperationStart h) s = .next u ∧ u.lop h.toNat = some { l with state := 1, startTick := s.tick32 } ∧ Quiet s u) ∧
     (l.state = 0 → l.cmd = 0x60 → ∃ u m, exec (.longOperationStart h) s = .next u ∧ u.lop h.toNat = some m ∧ m.state = 1 ∧
       m.total = l.args.getD 1 0 / 65536 ∧ Quiet s u) ∧
     (l.state = 1 → l.cmd = 0x60 → l.suspend = true → l.cancel = false → l.progress < l.total → s.store.codewords = [] →
       ∃ u m, exec (.nextSafePoint h) s = .next u ∧ u.lop h.toNat = some m ∧ m.state = 2 ∧ m.status = 8 ∧
         m.progress = l.progress + 1 ∧ m.suspend = false ∧ Quiet s u) ∧
     (l.state = 1 → l.cmd = 0x60 → l.cancel = true → l.total ≤ l.progress →
       ∃ u m, exec (.nextSafePoint h) s = .next u ∧ u.lop h.toNat = some m ∧ m.state = 4 ∧ m.status = 9 ∧ m.endTick = s.tick32 ∧ Quiet s u) ∧
     (∀ ok, l.state = 1 → l.cmd = 0x60 → l.total ≤ l.progress →
       ∃ u m, exec (.longOperationEnd h ok) s = .next u ∧ u.lop h.toNat = some m ∧ m.state = 3 ∧ m.status = 0 ∧
         m.result = [BitVec.ofNat 64 (l.args.getD 2 0), BitVec.ofNat 64 (l.args.getD 3 0)] ∧ Quiet s u) ∧
     (∀ ok t, l.state = 1 → l.cmd = 0x42 → l.args = [t, 1, 0] → t < 256 → s.drains = [] → s.links.buckles = [] →
       s.bit (TIL_DM_CTRL t) TIL_DM_CTRL_EN = false →
       ∃ u m, exec (.longOperationEnd h ok) s = .next u ∧ u.lop h.toNat = some m ∧ m.state = 3 ∧
         u.tile t = { Tile.start with trace := (s.tile t).trace, traceStopped := true } ∧ (∀ j, j ≠ t → u.tile j = s.tile j) ∧
         u.rd (TIL_ESC t) = regReset (TIL_ESC t) ∧ u.mem = s.mem))

/-- R295, R74: TILE_START and TILE_RESTART load the start parameters and the tiles run, TILE_HALT makes interrupt 7 pending,
TILE_NOTE writes the note. R28, R38, R54, R289, R381, R378, R468: catch events are armed and freed for the host, the stroke is
configured and loaded, logs and the retire list are read. -/
def Obligations.CoxTileEventAndLogCommands : Prop :=
  (∀ (s : State) (r : CoxReq) (x : Session),
     let ts := tilesOf (r.w 0) (r.w 1)
     let started (v : State) (t : Nat) : Prop := (v.tile t).mode = .running ∧ (v.tile t).pc = BitVec.ofNat 48 (r.w 9) ∧
       (v.tile t).c csrTbase = r.words.getD 2 0 ∧ (v.tile t).c csrFsp = r.words.getD 3 0 ∧ (v.tile t).c csrFsl = r.words.getD 4 0 ∧
       (∀ i, i < 4 → (v.tile t).c (csrEntry i) = r.words.getD (5 + i) 0) ∧ (v.tile t).c csrCause = 0 ∧
       (v.tile t).cf csrStatus stPriv = r.w 10
     (CoxServes s 0x40 1 false r x → r.len = 88 → tilesBad (r.w 0) (r.w 1) = false → firstBad (startChecks r) = none →
       s.tilesStop ts = none → (∀ t ∈ ts, (s.tile t).mode = .idle) →
       ∃ v, CoxDone s .tileStart r v (Ans.ok []) ∧ (∀ t ∈ ts, started v t) ∧ (∀ t, t ∉ ts → v.tile t = s.tile t) ∧ v.mmio = s.mmio ∧
         v.mem = s.mem) ∧
     (CoxServes s 0x41 1 false r x → r.len = 88 → tilesBad (r.w 0) (r.w 1) = false → firstBad (startChecks r) = none →
       s.tilesStop ts = none → (∀ t ∈ ts, s.bit (TIL_ESC t) TIL_ESC_VALID = true) →
       ∃ v, CoxDone s .tileRestart r v (Ans.ok (ts.map fun t => s.rd (TIL_ESC t))) ∧
         (∀ t ∈ ts, started v t ∧ v.bit (TIL_ESC t) TIL_ESC_VALID = false) ∧ (∀ t, t ∉ ts → v.tile t = s.tile t) ∧ v.mem = s.mem) ∧
     (CoxServes s 0x43 1 false r x → r.len = 16 → tilesBad (r.w 0) (r.w 1) = false → s.tilesStop ts = none →
       ∃ v, CoxDone s .tileHalt r v (Ans.ok []) ∧
         (∀ t ∈ ts, v.tile t = { s.tile t with latched := (s.tile t).latched ||| 0x80 }) ∧ (∀ t, t ∉ ts → v.tile t = s.tile t) ∧
         v.mmio = s.mmio ∧ v.mem = s.mem) ∧
     (CoxServes s 0x44 1 false r x → r.len = 24 → r.w 1 = 1 → r.w 0 < 256 → r.w 2 < 2 ^ 48 → s.tilesStop ts = none →
       rsvBad (TIL_COX_NOTE (r.w 0)) (BitVec.ofNat 64 (r.w 2)) = false →
       ∃ v, CoxDone s .tileNote r v (Ans.ok (if s.bit (TIL_COX_NOTE (r.w 0)) TIL_COX_NOTE_UNREAD ||
             s.bit (TIL_COX_NOTE (r.w 0)) TIL_COX_NOTE_OVR then [BitVec.ofNat 64 (r.w 0)] else [])) ∧
         v.fld (TIL_COX_NOTE (r.w 0)) TIL_COX_NOTE_NOTE = r.w 2 ∧ v.bit (TIL_COX_NOTE (r.w 0)) TIL_COX_NOTE_UNREAD = true ∧ v.mem = s.mem)) ∧
  (∀ (s : State) (r : CoxReq) (x : Session),
     let w1 := r.words.getD 1 0
     let kind := STK_EVT_W1_KIND.get w1
     (∀ i, CoxServes s 0x48 1 false r x → r.len = 24 → rsvBad (STK_EVT_W1 0) w1 = false → STK_EVT_W1_VER.get w1 = 0 → 5 ≤ kind → kind ≤ 7 →
       evtRange kind (STK_EVT_W1_TARGET.get w1) (STK_EVT_W1_ARG.get w1) = true → rsvBad (STK_EVT_W2 0) (r.words.getD 2 0) = false →
       s.freeEntry = some i →
       ∃ v, CoxDone s .eventArm r v (Ans.ok [BitVec.ofNat 64 i]) ∧ v.evtState i = 1 ∧ v.rd (STK_EVT_DUE i) = r.words.getD 0 0 ∧
         v.evtKind i = kind ∧ v.evtTarget i = STK_EVT_W1_TARGET.get w1 ∧ v.evtArg i = STK_EVT_W1_ARG.get w1 ∧
         v.evtPhase i = STK_EVT_W1_PHASE.get w1 ∧ (s.owned 2 i = none → v.owned 2 i = some ⟨2, i, x.party, x.client⟩) ∧ Quiet s v) ∧
     (∀ o, CoxServes s 0x49 1 false r x → r.len = 8 → s.owned 2 (r.w 0) = some o → o.party = x.party → o.client = x.client →
       s.firesNow (r.w 0) = false →
       ∃ v, CoxDone s .eventFree r v (Ans.ok [BitVec.ofNat 64 (s.evtState (r.w 0)),
           BitVec.ofNat 64 (s.fld (STK_EVT_W3 (r.w 0)) STK_EVT_W3_FIRE_CNT), BitVec.ofNat 64 (s.fld (STK_EVT_W3 (r.w 0)) STK_EVT_W3_LATE)]) ∧
         v.evtState (r.w 0) = 0 ∧ v.owned 2 (r.w 0) = none ∧ Quiet s v) ∧
     (CoxServes s 0x50 2 false r x → r.len = 88 → r.w 0 < 3 → r.w 1 < 2 → r.w 2 < 2 → 2000 ≤ r.w 3 → r.w 3 ≤ 100000 → r.w 4 < 4096 →
       r.w 6 < 8 → r.w 7 < 128 → r.w 8 < 3 → r.w 3 = s.fld STK_PERIOD STK_PERIOD_PERIOD_NS → s.drains = [] →
       rsvBad STK_CTRL (s.rd STK_CTRL) = false → (∀ k, (s.crew k).state ≠ 2) →
       ∃ v a, CoxDone s .strokeCfg r v a ∧ a.status = 0 ∧ a.payload = [v.rd STK_STATUS] ∧ v.src = r.w 0 ∧
         v.fld STK_CTRL STK_CTRL_STEP_OK = r.w 1 ∧ v.fld STK_CTRL STK_CTRL_OUT_EN = r.w 2 ∧ v.fld STK_CTRL STK_CTRL_PTP_PORT = r.w 6 ∧
         v.fld STK_IN_COMP STK_IN_COMP_COMP_NS = r.w 4 ∧ v.rd STK_EPOCH = r.words.getD 5 0 ∧ v.stroke.ptp = [r.w 7, r.w 8, r.w 9, r.w 10] ∧
         v.now = s.now ∧ Quiet s v) ∧
     (CoxServes s 0x51 2 false r x → r.len = 8 → r.w 0 < 2 ^ 48 → s.src ≠ 2 →
       ∃ v, CoxDone s .strokeLoad r v (Ans.ok []) ∧ v.bit STK_NUM_LOAD STK_NUM_LOAD_PEND = true ∧
         v.fld STK_NUM_LOAD STK_NUM_LOAD_NUM_HI = r.w 0 ∧ v.now = s.now ∧ Quiet s v) ∧
     (CoxServes s 0x23 0 false r x → r.len = 16 →
       (r.w 0 = 0 → ∃ v a, CoxDone s .logRead r v a ∧ a.status = 0 ∧
         a.payload.drop 4 = ((s.ras.log.filter fun q => r.w 1 ≤ q.1).take 125).flatMap logWords ∧ Quiet s v) ∧
       (r.w 0 = 1 → 0 < s.fld SEC_DEBUG SEC_DEBUG_LEVEL → ∃ v a, CoxDone s .logRead r v a ∧ a.status = 0 ∧
         a.payload.drop 4 = ((s.cox.log.filter fun q => r.w 1 ≤ q.seq).take 62).flatMap (coxLogWords false) ∧ Quiet s v) ∧
       (r.w 0 = 1 → s.fld SEC_DEBUG SEC_DEBUG_LEVEL = 0 → ∃ v a, CoxDone s .logRead r v a ∧ a.status = 0 ∧
         a.payload.drop 4 = ((s.cox.log.filter fun q => r.w 1 ≤ q.seq).take 62).flatMap
           (fun q => coxLogWords (!(q.party == x.party && q.client == x.client)) q) ∧ Quiet s v)) ∧
     (CoxServes s 0x24 0 false r x → r.len = 8 →
       CoxDone s .retireRead r (taken s r) (Ans.ok (((s.ras.retired.drop (r.w 0)).take 250).flatMap RetireRec.words))))

/-- R299, R300, R305 to R309, R355: reads and writes of the BARs complete with their data, or with Unsupported Request and an AER
bit, or wait at their home; a poisoned write is dropped; masks, sizes and enables are written. -/
def Obligations.HostRequests : Prop :=
  ∀ (s : State) (tag : BitVec 14),
    (HostCalm s →
      (∀ (o : BitVec 42) (n : BitVec 13), 0 < n.toNat → o.toNat + n.toNat ≤ 0x1000000 → s.doorOf o.toNat = none →
        ∃ v, exec (.hostRead 4 o n tag) s = .next (s.complete tag.toNat 0 n.toNat v) ∧ v < 256 ^ n.toNat ∧
          ∀ i, i < n.toNat → v / 256 ^ i % 256 = s.bar4Byte (o.toNat + i)) ∧
      exec (.hostRead 0 0x10008 8 tag) s = .next (s.complete tag.toNat 0 8 s.now.toNat) ∧
      (∀ (o : BitVec 42) (n : BitVec 13) a, o.toNat % 128 + n.toNat ≤ 128 → o.toNat + n.toNat ≤ 2 ^ s.host.bar2 →
        s.bar2Addr false o.toNat = some a → s.planeDown = false → s.flows 8 (dieOf a) = true →
        (MemoryServes s .host a n.toNat → ∃ u, exec (.hostRead 2 o n tag) s = .next u ∧
          u.host.cpls = s.host.cpls ++ [⟨tag.toNat, 0, n.toNat, s.bytes a n.toNat⟩] ∧ u.host.reads = [] ∧ Quiet s u) ∧
        (0 < n.toNat → a % 128 + n.toNat ≤ 128 → regionOf a = .hbm (memOf (a / 128 * 128)) → s.restoring (a / 128 * 128) = true →
          s.bit (RAS_INJECT (homeDie (a / 128 * 128))) RAS_INJECT_ARM = false →
          s.homeDown (homeDie (a / 128 * 128)) (memOf (a / 128 * 128)) = false →
          exec (.hostRead 2 o n tag) s = .next { s with host := { s.host with reads := [⟨2, o.toNat, n.toNat, tag.toNat, 0⟩] } })) ∧
      (∀ (o : BitVec 42) (n : BitVec 13), 0 < n.toNat → o.toNat + n.toNat ≤ 2 ^ s.host.bar2 → s.bar2Addr false o.toNat = none →
        ∃ u, exec (.hostRead 2 o n tag) s = .next u ∧ u.host.cpls = s.host.cpls ++ [⟨tag.toNat, 1, 0, 0⟩] ∧
          u.host.aer = s.host.aer ||| 2 ^ 20 ∧ u.bit HOST_INT_CAUSE HOST_INT_CAUSE_IN_ERR = true ∧ Quiet s u) ∧
      (∀ (o : BitVec 42) (n : BitVec 10) (v : BitVec 4096), 0 < n.toNat → o.toNat + n.toNat ≤ 0x1000000 → s.doorOf o.toNat = none →
        ∃ u, exec (.hostWrite 4 o n v false) s = .next u ∧
          (∀ i, i < n.toNat → u.bar4Byte (o.toNat + i) = v.toNat / 256 ^ i % 256) ∧
          (∀ a, a < o.toNat ∨ o.toNat + n.toNat ≤ a → u.bar4Byte a = s.bar4Byte a) ∧ u.mmio = s.mmio ∧ Quiet s u) ∧
      (∀ (o : BitVec 42) (n : BitVec 10) (v : BitVec 4096) m i, 0 < n.toNat → boxOf o.toNat = some (m, i) → i + n.toNat ≤ 0x1000 →
        (((s.mailbox m).state = 1 ∨ (s.mailbox m).state = 3) →
          ∃ u, exec (.hostWrite 0 o n v false) s = .next u ∧
            (∀ j, j < n.toNat → (SMap.get noByte u.cox.mail (m * 8192 + i + j)).toNat = v.toNat / 256 ^ j % 256) ∧ u.mmio = s.mmio ∧
            Quiet s u) ∧
        (((s.mailbox m).state = 0 ∨ (s.mailbox m).state = 2) → exec (.hostWrite 0 o n v false) s = .next (s.mbErr 3 m))) ∧
      (∀ (o : BitVec 42) (n : BitVec 10) (v : BitVec 4096) a, o.toNat % 128 + n.toNat ≤ 128 → o.toNat + n.toNat ≤ 2 ^ s.host.bar2 →
        s.bar2Addr true o.toNat = some a → s.planeDown = false → s.flows 8 (dieOf a) = true → MemoryServes s .host a n.toNat →
        WriteFree s a n.toNat →
        ∃ u, exec (.hostWrite 2 o n v false) s = .next u ∧ u.host.posted = [] ∧ Stored s u a n.toNat v.toNat) ∧
      (∀ (o : BitVec 42) (n : BitVec 10) (v : BitVec 4096), 0 < n.toNat → o.toNat + n.toNat ≤ 0x1000000 →
        ∃ u, exec (.hostWrite 4 o n v true) s = .next u ∧ u.host.aer = s.host.aer ||| 2 ^ 12 ∧ u.host.bar4 = s.host.bar4 ∧
          u.bit HOST_INT_CAUSE HOST_INT_CAUSE_IN_ERR = true ∧ Quiet s u) ∧
      (∀ v : Word, rsvBad HOST_INT_MASK v = false → ∃ u, exec (.hostIntMaskWrite v) s = .next u ∧
        u.rd HOST_INT_MASK &&& 0xF = v &&& 0xF ∧ (s.rd HOST_INT_MASK &&& ~~~ v &&& s.rd HOST_INT_CAUSE &&& 0xF = 0 → u.sent = s.sent) ∧
        u.rd HOST_INT_CAUSE = s.rd HOST_INT_CAUSE ∧ Quiet s u) ∧
      (∀ v : BitVec 11, let e (i : Nat) : Nat := (SMap.get msixDefault s.host.msix (2 * v.toNat + i)).toNat
        ∃ u, exec (.msixUnmask v) s = .next u ∧ (SMap.get msixDefault u.host.msix (2 * v.toNat + 1)).getLsbD 32 = false ∧
        (v.toNat ∈ s.host.pend → s.bit PCI_STATUS PCI_STATUS_BME = true → s.host.msixOn = true → s.host.fmask = false →
          u.sent = .msix v.toNat (e 0) (e 1 % 2 ^ 32) :: s.sent ∧ v.toNat ∉ u.host.pend) ∧
        (v.toNat ∉ s.host.pend → u.sent = s.sent) ∧ u.mmio = s.mmio ∧ Quiet s u)) ∧
    (s.bit PCI_STATUS PCI_STATUS_FRST = false →
      exec (.unsupportedRequest tag true) s = .next (s.aerSet 20) ∧
      exec (.unsupportedRequest tag false) s = .next ((s.complete tag.toNat 1 0 0).aerSet 20) ∧
      (∀ k : BitVec 6, 30 ≤ k.toNat → k.toNat ≤ 42 → exec (.bar2Resize k) s = .next { s with host := { s.host with bar2 := k.toNat } }) ∧
      (∀ mse bme msix fmask d3 : Bool, ∃ u, exec (.configurationWrite mse bme ⟨msix, fmask, d3⟩) s = .next u ∧
        u.bit PCI_STATUS PCI_STATUS_MSE = mse ∧ u.bit PCI_STATUS PCI_STATUS_BME = bme ∧ u.host.msixOn = msix ∧ u.host.fmask = fmask ∧
        u.host.d3 = d3 ∧
        (bme = true → msix = true → fmask = false → d3 = false →
          (∀ v ∈ s.host.pend, (SMap.get msixDefault s.host.msix (2 * v + 1)).getLsbD 32 = false) → u.host.pend = []) ∧ Quiet s u))

/-- R297, R301 to R304, R308, R310 to R312, R430: windows are mapped and unmapped; outbound reads complete or time out; the resets
of the function clear its enables, interrupt causes, MSI-X and mailboxes; the link comes up; telemetry is latched, watch sums and
the device information are read. -/
def Obligations.HostFunction : Prop :=
  ∀ (s : State) (r : CoxReq) (x : Session),
    let b := r.w 0
    let a := r.w 1
    let n := r.w 2
    (∀ i, CoxServes s 0x38 1 false r x → r.len = 32 → b % 65536 = 0 → b + n ≤ 2 ^ s.host.bar2 → s.host.bar2 < 42 → a % 65536 = 0 →
      a + n ≤ 0x00C000000000 → 0 < n → n % 65536 = 0 → r.w 3 ∈ [0, 2, 4, 6] → i < 64 → s.bit (PCI_WIN_W0 i) PCI_WIN_W0_V = false →
      (∀ j, j < i → s.bit (PCI_WIN_W0 j) PCI_WIN_W0_V = true) →
      (∀ j, j < 64 → s.bit (PCI_WIN_W0 j) PCI_WIN_W0_V = true → b + n ≤ s.fld (PCI_WIN_W0 j) PCI_WIN_W0_BOFF * 65536 ∨
        s.fld (PCI_WIN_W0 j) PCI_WIN_W0_BOFF * 65536 + s.fld (PCI_WIN_W2 j) PCI_WIN_W2_LEN * 65536 ≤ b) →
      ∃ v, CoxDone s .winMap r v (Ans.ok [BitVec.ofNat 64 i]) ∧ v.bit (PCI_WIN_W0 i) PCI_WIN_W0_V = true ∧
        v.fld (PCI_WIN_W0 i) PCI_WIN_W0_BOFF * 65536 = b ∧ v.fld (PCI_WIN_W1 i) PCI_WIN_W1_DADDR * 65536 = a ∧
        v.fld (PCI_WIN_W2 i) PCI_WIN_W2_LEN * 65536 = n ∧ v.fld (PCI_WIN_W0 i) PCI_WIN_W0_R = r.w 3 / 2 % 2 ∧
        v.fld (PCI_WIN_W0 i) PCI_WIN_W0_W = r.w 3 / 4 ∧ (s.owned 1 i = none → v.owned 1 i = some ⟨1, i, x.party, x.client⟩) ∧ Quiet s v) ∧
    (CoxServes s 0x39 1 false r x → r.len = 8 → b < 64 → s.bit (PCI_WIN_W0 b) PCI_WIN_W0_V = true → s.otherOwns 1 b x = false →
      ∃ v, CoxDone s .winUnmap r v (Ans.ok []) ∧ v.bit (PCI_WIN_W0 b) PCI_WIN_W0_V = false ∧ v.owned 1 b = none ∧ Quiet s v) ∧
    (∀ (h : BitVec 32) src len l data, s.hostDown = false → s.sec.stage = some (h.toNat, src, len) → s.lop h.toNat = some l → l.state = 1 →
      (data.length = min 65536 (len - s.sec.staged.length) →
        ∃ u m, exec (.outboundCompletion (.stage h) 0 data) s = .next u ∧ u.sec.staged = s.sec.staged ++ data ∧ u.lop h.toNat = some m ∧
          m.progress = (s.sec.staged ++ data).length ∧ m.state = 1 ∧ u.mmio = s.mmio ∧ Quiet s u) ∧
      ∃ u m, exec (.outboundTimeout (.stage h)) s = .next u ∧ u.sec.staged = [] ∧ u.lop h.toNat = some m ∧ m.state = 5 ∧ m.cause = 9 ∧
        u.host.aer = s.host.aer ||| 2 ^ 14 ∧ Quiet s u) ∧
    (∀ (t : BitVec 8) (k : BitVec 32) q fl, s.hostDown = false → s.slot t.toNat k.toNat = some q → dmCount q.entry.words ≤ q.next →
      q.host = some fl → q.ending = none → q.asked = 1 → q.answered = 0 → s.stilled t.toNat = false → s.bkReady t.toNat q.entry.words = true →
      exec (.outboundCompletion (.mover t k) 0 []) s = .next (s.dmFinish t.toNat q.entry 0 0 0 0 (dmCount q.entry.words) 0) ∧
      exec (.outboundCompletion (.mover t k) 1 []) s = .next (s.dmFinish t.toNat q.entry 1 exLoadAccess 1 0 fl.1 fl.2) ∧
      exec (.outboundCompletion (.mover t k) 2 []) s = .next (s.dmFinish t.toNat q.entry 2 exMemUncorr 1 0 fl.1 fl.2)) ∧
    (s.tiles = [] → s.sec.stage = none → s.bit DEV_STATUS DEV_STATUS_COX_RST = false →
      (∀ x ∈ s.cox.sessions, x.mask / 2 ^ 12 % 2 = 0) →
      let cleared (u : State) : Prop := u.bit PCI_STATUS PCI_STATUS_MSE = false ∧ u.bit PCI_STATUS PCI_STATUS_BME = false ∧
        u.rd HOST_INT_CAUSE = regReset HOST_INT_CAUSE ∧ u.rd HOST_INT_MASK = regReset HOST_INT_MASK ∧ u.host.msix = [] ∧ u.host.pend = [] ∧
        u.host.msixOn = false ∧ u.host.fmask = false ∧ u.host.d3 = false ∧ u.host.reads = [] ∧ u.host.bar2 = 36 ∧ (∀ m, (s.mailbox m).state ≠ 2 → u.mailbox m = Mailbox.free) ∧
        (∀ m, (s.mailbox m).state = 2 → u.mailbox m = { s.mailbox m with freeAtEnd := true }) ∧ u.cox.sessions = s.cox.sessions ∧
        u.cox.rings = s.cox.rings ∧ Quiet s u
      (s.bit PCI_STATUS PCI_STATUS_FRST = false → ∃ u, exec .functionLevelReset s = .next u ∧ cleared u ∧
        u.bit RESET_CAUSE RESET_CAUSE_FLR = true ∧ u.bit PCI_STATUS PCI_STATUS_UP = s.bit PCI_STATUS PCI_STATUS_UP) ∧
      (∀ k : BitVec 2, k ≠ 3 → ∃ u, exec (.hostFunctionReset k) s = .next u ∧ cleared u ∧ u.bit RESET_CAUSE RESET_CAUSE_PERST = true ∧
        u.bit PCI_STATUS PCI_STATUS_FRST = true ∧ u.bit PCI_STATUS PCI_STATUS_UP = false ∧ u.fld PCI_STATUS PCI_STATUS_WIDTH = 0 ∧
        u.host.perst = (s.host.perst || k == 0))) ∧
    (s.host.perst = true → ∃ u, exec .perstNRelease s = .next u ∧ u.host.perst = false ∧
      (4 ≤ s.boot.rails → u.bit PCI_STATUS PCI_STATUS_FRST = false) ∧ (s.boot.rails < 4 → u.mmio = s.mmio) ∧ Quiet s u) ∧
    (∀ (speed : BitVec 3) (width : BitVec 5) err, 4 ≤ s.boot.rails → s.host.perst = false → speed ≠ 0 → width.toNat ∈ [1, 4, 8, 16] →
      ∃ u, exec (.pcieLinkChange speed width err) s = .next u ∧ u.bit PCI_STATUS PCI_STATUS_UP = true ∧
        u.bit PCI_STATUS PCI_STATUS_FRST = false ∧ u.fld PCI_STATUS PCI_STATUS_SPEED = speed.toNat ∧
        u.fld PCI_STATUS PCI_STATUS_WIDTH = width.toNat ∧ Quiet s u) ∧
    (CoxServes s 0x21 0 false r x → r.len = 8 → b < 16 → ∃ v, CoxDone s .telemSnap r v (Ans.ok [s.now]) ∧
      (v.telem b).seq = ((s.telem b).seq + 2) % 2 ^ 32 ∧ (v.telem b).stroke = s.now ∧ (v.telem b).tick = s.tick32 ∧
      (v.telem b).records = watchAddrs.map (fun k => (k, s.rd k)) ∧ (∀ k, k ≠ b → v.telem k = s.telem k) ∧ v.mmio = s.mmio ∧ Quiet s v) ∧
    (CoxServes s 0x22 0 false r x → r.len = 16 → 0 < b → b < 256 → 0 < a → a ≤ 100 → b + a ≤ 256 →
      CoxDone s .nwtSum r (taken s r) (Ans.ok ((List.range a).flatMap fun i =>
        [BitVec.ofNat 64 (min (2 ^ NWT_SEEN_COUNT.len - 1) (((List.range 8).map fun d => s.fld (NWT_SEEN d (b + i)) NWT_SEEN_COUNT).sum)),
         BitVec.ofNat 64 (min (2 ^ NWT_ZS_ZERO.len - 1) (((List.range 8).map fun d => s.fld (NWT_ZS d (b + i)) NWT_ZS_ZERO).sum)),
         BitVec.ofNat 64 (min (2 ^ NWT_ZS_SAT.len - 1) (((List.range 8).map fun d => s.fld (NWT_ZS d (b + i)) NWT_ZS_SAT).sum)),
         BitVec.ofNat 64 (min (2 ^ NWT_NF_NONFIN.len - 1) (((List.range 8).map fun d => s.fld (NWT_NF d (b + i)) NWT_NF_NONFIN).sum))]))) ∧
    (CoxServes s 0x20 0 false r x → r.len = 0 → CoxDone s .devInfo r (taken s r) (Ans.ok s.devInfo))

/-- R290 to R294: rings are created and destroyed; TAIL, NOTIFY and RESTART are written; an entry at HEAD lands in its target's
store, the ready count rises and HEAD advances; with no free count the take waits; a malformed entry stops the ring. -/
def Obligations.LaunchRings : Prop :=
  ∀ (s : State) (r : CoxReq) (x : Session) (n : BitVec 6),
    let w0 := r.words.getD 0 0
    let w1 := r.words.getD 1 0
    (∀ k base, CoxServes s 0x30 1 false r x → r.len = 16 → field w0 63 60 = 0 → field w0 31 0 = 0 → 4 ≤ field w0 59 56 → field w0 59 56 ≤ 12 →
      field w0 55 50 ≠ field w0 49 44 → field w1 63 23 = 0 → field w1 22 0 % 512 = 0 → field w1 22 0 ≤ 0x5FFE00 →
      freeFrom (s.cox.rings.map (·.1)) 0 64 = some k → s.bar4Room (2 ^ field w0 59 56 * 64) = some base →
      ∃ v g, CoxDone s .ringCreate r v (Ans.ok [BitVec.ofNat 64 k, BitVec.ofNat 64 base, BitVec.ofNat 64 g.door]) ∧ v.ring k = some g ∧
        g.log2n = field w0 59 56 ∧ g.free = field w0 55 50 ∧ g.rdy = field w0 49 44 ∧ g.land = field w1 22 0 ∧ g.base = base ∧
        g.state = 0 ∧ g.tail = 0 ∧ g.head = 0 ∧ g.party = x.party ∧ g.client = x.client ∧ (∀ j, j ≠ k → v.ring j = s.ring j) ∧ Quiet s v) ∧
    (∀ g, CoxServes s 0x31 1 false r x → r.len = 8 → s.ring (r.w 0) = some g → g.party = x.party → g.client = x.client → g.asked = false →
      ∃ v, CoxDone s .ringDestroy r v (Ans.ok [BitVec.ofNat 64 g.head]) ∧ v.ring (r.w 0) = none ∧ (∀ j, j ≠ r.w 0 → v.ring j = s.ring j) ∧
        v.mem = s.mem) ∧
    (∀ g, s.ring n.toNat = some g →
      (HostCalm s → g.base % 4096 = 0 → (∀ j, j < 5 → s.doorOf (g.door + 8 * j) = some (n.toNat, g)) →
        (∀ v : Word, v.toNat < 2 ^ 32 →
          (g.state = 3 → exec (.ringTail n v) s = .next (s.putRing n.toNat { g with tail := v.toNat })) ∧
          (g.state ≠ 3 → (v.toNat + 2 ^ 32 - g.head) % 2 ^ 32 ≤ 2 ^ g.log2n → ∃ u, exec (.ringTail n v) s = .next u ∧
            u.ring n.toNat = some { g with
              tail := v.toNat, err := 0
              state := if (v.toNat + 2 ^ 32 - g.head) % 2 ^ 32 = 0 then 0 else if g.asked then 2 else 1 } ∧ u.mmio = s.mmio ∧ Quiet s u) ∧
          (g.state ≠ 3 → 2 ^ g.log2n < (v.toNat + 2 ^ 32 - g.head) % 2 ^ 32 → ∃ u, exec (.ringTail n v) s = .next u ∧
            u.ring n.toNat = some { g with tail := v.toNat, state := 3, err := 4 } ∧ Quiet s u)) ∧
        (∃ u, exec (.ringNotify .host n) s = .next u ∧
          u.ring n.toNat = some { g with notify := (g.notify + 1) % 2 ^ 32 } ∧ u.mmio = s.mmio ∧ Quiet s u) ∧
        (g.state = 3 → g.ahead ≤ g.size → exec (.ringRestart n 1) s =
          .next (s.putRing n.toNat { g with state := if g.ahead = 0 then 0 else if g.asked then 2 else 1, err := 0 }))) ∧
      (∀ t, ∃ u, exec (.ringNotify (.tile t) n) s = .next u ∧
        u.ring n.toNat = some { g with notify := (g.notify + 1) % 2 ^ 32 } ∧ u.mmio = s.mmio ∧ Quiet s u) ∧
      (g.state = 1 ∨ g.state = 2 → g.asked = false → g.granted = false →
        let w := s.entryWord g 0
        let t := field w 55 48 + g.next
        let a := storeBase t + g.land + 64 * (SMap.get noNat g.counts t % 8)
        let free := s.buckle (64 * t + g.free)
        let rdy := s.buckle (64 * t + g.rdy)
        (g.next ≠ 0 ∨ s.entryErr w = none → s.landFault t = false → s.moving t = false → s.holds 8 (t / 32) = false → s.dataBad a 64 = false →
          field w 38 38 = 0 → g.free ≠ g.rdy → free.waiters = [] → 0 < free.count → free.count < bkMax →
          rdy.waiters = [] → rdy.count + 1 < bkMax → g.next = field w 47 40 →
          ∃ u, exec (.launchDelivery n) s = .next u ∧ u.bytes a 8 = g.head % 2 ^ 32 * 2 ^ 32 + n.toNat * 2 ^ 24 ∧
            (∀ j, 1 ≤ j → j < 8 → u.bytes (a + 8 * j) 8 = (s.entryWord g j).toNat) ∧
            (∀ b, b < a ∨ a + 64 ≤ b → u.byte b = s.byte b) ∧
            u.buckle (64 * t + g.free) = ⟨free.count - 1, []⟩ ∧ u.buckle (64 * t + g.rdy) = ⟨rdy.count + 1, []⟩ ∧
            (u.tile t).latched = (s.tile t).latched ||| 0x10 ∧
            (∃ h, u.ring n.toNat = some h ∧ h.head = (g.head + 1) % 2 ^ 32 ∧ h.next = 0 ∧ h.asked = false ∧ h.granted = false)) ∧
        (g.next ≠ 0 ∨ s.entryErr w = none → s.moving t = false → free.waiters = [] → free.count = 0 →
          s.links.done.contains (.launch n.toNat) = false →
          ∃ u, exec (.launchDelivery n) s = .next u ∧ u.ring n.toNat = some { g with asked := true, state := 2 } ∧
            u.buckle (64 * t + g.free) = ⟨0, [⟨.launch n.toNat, 1⟩]⟩ ∧ u.mmio = s.mmio ∧ Quiet s u) ∧
        (∀ code, g.next = 0 → s.entryErr w = some code → ∃ u, exec (.launchDelivery n) s = .next u ∧
          u.ring n.toNat = some { g with state := 3, err := code } ∧ Quiet s u)))

/-- R332, R333, R343, R344: the seven operations are submitted and queued until their phase, or rejected with a code; the engine is
enabled, drains, and ends what is left at its limit. R330, R337, R338: an operation completes with its record and its buckle signal;
its deadline ends it with STATUS 5; at the announced boundary the roster takes effect, a crew that forms and is not ready goes on to
the next boundary, and a module that the roster leaves out frees the crew. -/
def Obligations.CrewEngine : Prop :=
  (∀ (s : State),
     (∀ (m : Master) (i : BitVec 9) (ws : List Word) (op : Nat) (cmd : Instr),
       (op, cmd) ∈ [(1, Instr.allreduce m i ws), (2, .reduce m i ws), (3, .broadcast m i ws), (4, .allgather m i ws),
         (5, .reduceScatter m i ws), (6, .barrier m i ws), (7, .crewPut m i ws)] →
       m = .tile i.toNat ∧ i.toNat < 256 ∨ m = .cox ∧ i = 256 →
       let o := newCrewOp i.toNat (crewDescriptor op ws)
       (s.crwReject o (s.crew o.crew) = 0 → (s.crew o.crew).phase = none →
         ∃ u, exec cmd s = .next u ∧ u.fabric = { s.fabric with ops := s.fabric.ops ++ [o] } ∧
           u.bit (CRW_SUB_STATUS i.toNat) CRW_SUB_STATUS_REJ = false ∧
           u.fld CRW_STATUS CRW_STATUS_QCOUNT = (s.fabric.ops.length + 1) % 2 ^ 13 ∧ Quiet s u) ∧
       (∀ k, s.crwReject o (s.crew o.crew) = k + 1 →
         ∃ u, exec cmd s = .next u ∧ u.fabric = s.fabric ∧ u.links = s.links ∧ u.bit (CRW_SUB_STATUS i.toNat) CRW_SUB_STATUS_REJ = true ∧
           u.fld (CRW_SUB_STATUS i.toNat) CRW_SUB_STATUS_CODE = k + 1 ∧ Quiet s u)) ∧
     (∀ v : Word, rsvBad CRW_CTRL v = false → s.drains = [] →
       (v.getLsbD 0 = true → ∃ u, exec (.crwEn .cox v) s = .next u ∧ u.bit CRW_CTRL CRW_CTRL_EN = true ∧ u.drains = [] ∧ Quiet s u) ∧
       (v.getLsbD 0 = false → s.bit CRW_CTRL CRW_CTRL_EN = true → s.fabric.ops ≠ [] → ∃ u, exec (.crwEn .cox v) s = .next u ∧
         u.bit CRW_CTRL CRW_CTRL_EN = false ∧ u.bit CRW_STATUS CRW_STATUS_ACTIVE = true ∧ u.drains = [⟨.crews, 0, false⟩] ∧ Quiet s u) ∧
       (v.getLsbD 0 = false → s.bit CRW_CTRL CRW_CTRL_EN = true → s.fabric.ops = [] → ∃ u, exec (.crwEn .cox v) s = .next u ∧
         u.bit CRW_CTRL CRW_CTRL_EN = false ∧ u.bit CRW_STATUS CRW_STATUS_ACTIVE = false ∧ u.drains = [] ∧ Quiet s u)) ∧
     (∀ held, (∀ o ∈ s.fabric.ops, o.f 4 47 0 = 0) →
       ∃ u, exec .crwDrainLimit { s with drains := [⟨.crews, 257, held⟩] } = .next u ∧ u.fabric.ops = [] ∧
         (s.fabric.ops ≠ [] → u.fld CRW_STATUS CRW_STATUS_QCOUNT = 0) ∧ u.bit CRW_STATUS CRW_STATUS_ACTIVE = false ∧ u.drains = [] ∧
         (held = true → u.bit CRW_CTRL CRW_CTRL_EN = true) ∧ Quiet s u)) ∧
  (∀ (s : State) (k : BitVec 10) (ph : BitVec 32) (id : BitVec 16) (o : CrewOp) (c : Crew) (ready : Bool),
     (s.opOf k.toNat ph.toNat id.toNat = some o → o.started = true →
       (∀ st, s.opDone (s.crew o.crew) o = some st →
         exec (.crewOpComplete k ph id) s = .next (s.crewFinish o st) ∧ CrewFinished s (s.crewFinish o st) o st) ∧
       (s.opDone (s.crew o.crew) o = none → exec (.crewOpComplete k ph id) s = .next s) ∧
       (s.now = o.start + BitVec.ofNat 64 ((s.crew o.crew).deadline + o.stretch) →
         exec (.crewDeadline k ph id) s = .next (s.crewFinish o 5) ∧ CrewFinished s (s.crewFinish o 5) o 5)) ∧
     (s.crew k.toNat = c →
       let all (ms : List Member) : Bool := c.pend.isNone && (if c.lead then ms.all (·.ready) else ready)
       (∀ b ms, c.announced = some (b, ms) → s.now ≠ b → exec (.epochBoundary ⟨k, ready⟩) s = .next s) ∧
       (∀ ms, c.announced = some (s.now, ms) → c.state = 2 → ms.any (·.num == c.own) = true →
         ∃ u, exec (.epochBoundary ⟨k, ready⟩) s = .next u ∧ (u.crew k.toNat).members = ms ∧ (u.crew k.toNat).announced = c.next.head? ∧
           (u.crew k.toNat).next = c.next.drop 1 ∧ (u.crew k.toNat).state = 2 ∧ (u.crew k.toNat).ended = ms.any (·.withdrawn) ∧
           u.mmio = s.mmio ∧ Quiet s u) ∧
       (∀ ms, c.announced = some (s.now, ms) → c.state = 1 → all ms = false →
         ∃ u, exec (.epochBoundary ⟨k, ready⟩) s = .next u ∧ (u.crew k.toNat).state = 1 ∧
           (u.crew k.toNat).announced = some (s.now + BitVec.ofNat 64 c.epochLen, ms) ∧ u.mmio = s.mmio ∧ Quiet s u) ∧
       (∀ ms l, c.announced = some (s.now, ms) → c.state = 1 → all ms = true → ms.any (·.num == c.own) = true →
         s.lop c.handle = some l → l.state = 1 → l.handle = c.handle →
         ∃ u m, exec (.epochBoundary ⟨k, ready⟩) s = .next u ∧ (u.crew k.toNat).state = 2 ∧ (u.crew k.toNat).members = ms ∧
           u.lop c.handle = some m ∧ m.state = 3 ∧ m.result = [BitVec.ofNat 64 k.toNat, BitVec.ofNat 64 c.own, s.now] ∧ Quiet s u) ∧
       (∀ ms, c.announced = some (s.now, ms) → c.state = 2 ∨ c.state = 3 → ms.any (·.num == c.own) = false → s.fabric.ops = [] →
         ∃ u, exec (.epochBoundary ⟨k, ready⟩) s = .next u ∧ u.crew k.toNat = Crew.none ∧ u.owned 3 k.toNat = none ∧ Quiet s u)))

/-- R315, R317, R319 to R322, R325, R327, R334, R336, R339, R343: packets of peer contexts are discarded, acknowledge, or are taken
in order and act; timers retransmit or lose a context; ports come up, go down and drain. R317, R325, R328 to R331: a port is
configured; a crew's status is read; a joiner becomes a member, the roster reaches the members, who answer ready; a departing member
leaves the announced roster. -/
def Obligations.FabricAndCrewCommands : Prop :=
  (∀ (s : State) (p : BitVec 3) (h : Hdr) (src : BitVec 128),
     let x := s.ctx (hDst.get h.w0)
     let a := FAB_PSTATUS p.toNat
     (∀ ce typ cmd, (typ, cmd) ∈ [(1, Instr.ectAck p h ⟨src, ce⟩), (2, .heartbeat p h ⟨src, ce⟩)] →
       (s.fabUp p.toNat = false → exec cmd s = .next s) ∧
       (s.fabUp p.toNat = true → s.ectBad h src.toNat typ 0 = true → exec cmd s = .next (s.fabDrop p.toNat)) ∧
       (s.fabUp p.toNat = true → s.ectBad h src.toNat typ 0 = false → hEce.get h.w0 = 0 → x.link.wait = [] →
         (hAckv.get h.w0 = 0 → ∃ u, exec cmd s = .next u ∧ u.ctx (hDst.get h.w0) = { heardCtx s p.toNat x h src.toNat with ece := x.ece || ce } ∧ u.mmio = s.mmio ∧ Quiet s u) ∧
         (hAckv.get h.w0 = 1 → h.w2 = 0 → ∃ u, exec cmd s = .next u ∧
           (u.ctx (hDst.get h.w0)).link.unacked = x.link.unacked.filter (fun q => !ackCovers (h.w1.toNat % 2 ^ 32) 0 q.psn) ∧ Quiet s u))) ∧
     (∀ c ce (w0 w1 w2 : Word) (fl : BitVec 5) (n : BitVec 13) (data : BitVec 32768), n.toNat ≤ 4096 → subGrowth w1 w2 = false →
       TakenInOrder s p h src 3 (24 + n.toNat) c →
       let q := collOf w0 w1 w2 fl.toNat n.toNat data.toNat
       s.opOf q.crew q.phase q.opid = none → ∃ u, exec (.coll p h src ce w0 w1 w2 fl n data) s = .next u ∧
         u.fabric.early = s.fabric.early ++ [q] ∧ (u.ctx c).link.expect = (x.link.expect + 1) % 2 ^ 32 ∧ (u.ctx c).ece = (x.ece || ce) ∧
         u.mmio = s.mmio ∧ Quiet s u) ∧
     (∀ c ce (w0 w1 w2 : Word) (n : BitVec 13) (data : BitVec 32768), n.toNat ≤ 4096 → subGrowth w1 w2 = false →
       TakenInOrder s p h src 4 (24 + n.toNat) c →
       let q := collOf w0 w1 w2 0 n.toNat data.toNat
       let k := s.crew q.crew
       let base := k.w 5 47 0 + q.off
       (∀ t, k.state ≠ 0 → q.off + n.toNat ≤ (k.p.getD 6 0).toNat → CrewStores s t base n.toNat →
         ∃ u, exec (.ectPut p h src ce w0 w1 w2 n data) s = .next u ∧ (∀ i, i < n.toNat → (u.byte (base + i)).toNat = data.toNat / 256 ^ i % 256) ∧
           (∀ b, b < base ∨ base + n.toNat ≤ b → u.byte b = s.byte b) ∧ u.tiles = s.tiles) ∧
       (k.state = 0 → x.link.unacked.length < 512 → ∃ u, exec (.ectPut p h src ce w0 w1 w2 n data) s = .next u ∧ u.mem = s.mem ∧
         ∃ r ∈ (u.ctx c).link.unacked, r.typ = 3 ∧ r.body.getD 2 0 = 2)) ∧
     (∀ c ce (len : BitVec 13) (k : BitVec 10) (w : Word) (b : BitVec 4), TakenInOrder s p h src 5 len.toNat c → (s.crew k.toNat).state ≠ 0 →
       ∃ u, exec (.ctrl p h src ⟨ce, len⟩ k 0 w b) s = .next u ∧
         (u.crew k.toNat).paces = (s.crew k.toNat).paces ++ [⟨w, b.toNat⟩] ∧ (u.crew k.toNat).members = (s.crew k.toNat).members ∧ Quiet s u) ∧
     (∀ c ce (ws : List Word), TakenInOrder s p h src 6 (8 * ws.length) c → s.cox.queue = [] →
       let r : CoxReq := { origin := .ect c, h0 := ws.getD 0 0, h1 := ws.getD 1 0, rest := (List.range 6).any fun i => ws.getD (2 + i) 0 != 0
                           tick := s.stroke.ticks, words := ws.drop 8 }
       (coxCodes.contains r.cmd = true → ∃ u, exec (.mgmt p h src ce false ws) s = .next u ∧ u.cox = { s.cox with queue := [r] } ∧ Quiet s u) ∧
       ((ws.getD 0 0).toNat / 65536 % 65536 = 1 → (ws.getD 0 0).toNat % 256 = 0 → x.mgmt = [] →
         ∃ u, exec (.mgmt p h src ce true ws) s = .next u ∧ (u.ctx c).sess = (ws.getD 8 0).toNat / 2 ^ 48 ∧ u.cox = s.cox ∧ Quiet s u)) ∧
     (∀ (n : BitVec 16) (psn : BitVec 32) q, (s.ctx n.toNat).link.unacked.find? (·.psn == psn.toNat) = some q → (s.ctx n.toNat).state = 1 →
       (s.ctx n.toNat).rto ≤ (s.now - q.sent).toNat → s.portsUp (s.ctx n.toNat).ports ≠ [] →
       (q.tries < (s.ctx n.toNat).retry → ∃ u, exec (.retransmitTimeout false n psn) s = .next u ∧
         (u.ctx n.toNat).link.unacked.find? (·.psn == psn.toNat) = some { q with sent := s.now, tries := q.tries + 1 } ∧
         u.sent.length = s.sent.length + 1 ∧ Quiet s u) ∧
       ((s.ctx n.toNat).retry ≤ q.tries → s.fabric.crews = [] → ∃ u, exec (.retransmitTimeout false n psn) s = .next u ∧
         (u.ctx n.toNat).state = 2 ∧ (u.ctx n.toNat).link.unacked = [] ∧ u.mmio = s.mmio ∧ Quiet s u)) ∧
     (∀ n : BitVec 16, (s.ctx n.toNat).state = 1 → (s.ctx n.toNat).hb = true → (s.ctx n.toNat).addr.isSome = true →
       (s.ctx n.toNat).hbLoss ≤ (s.now.toNat + 2 ^ 32 - (s.ctx n.toNat).heard) % 2 ^ 32 → s.fabric.crews = [] →
       ∃ u, exec (.heartbeatLoss n) s = .next u ∧ (u.ctx n.toNat).state = 2 ∧ u.mmio = s.mmio ∧ Quiet s u) ∧
     (∀ v : Word, rsvBad (FAB_PCTRL p.toNat) v = false → FAB_PCTRL_MODE_MAX.get v ≠ 3 → s.drains = [] →
       ∃ u, exec (.fabPortEn .cox p v) s = .next u ∧ u.fld (FAB_PCTRL p.toNat) FAB_PCTRL_MODE_MAX = FAB_PCTRL_MODE_MAX.get v ∧
         u.bit (FAB_PCTRL p.toNat) FAB_PCTRL_EN = v.getLsbD 0 ∧
         (v.getLsbD 0 = false → s.bit (FAB_PCTRL p.toNat) FAB_PCTRL_EN = true →
           u.bit a FAB_PSTATUS_ACTIVE = true ∧ u.drains = [⟨.fabric p.toNat, 0, false⟩]) ∧ Quiet s u) ∧
     ((∀ k, (s.crew k).state ≠ 2) → ∀ held, ∃ u, exec (.fabPortDrainLimit p) { s with drains := [⟨.fabric p.toNat, 2, held⟩] } = .next u ∧ u.drains = [] ∧
       u.fld a FAB_PSTATUS_STATE = 0 ∧ u.fabUp p.toNat = false ∧ u.bit a FAB_PSTATUS_ACTIVE = false ∧
       (held = true → u.bit (FAB_PCTRL p.toNat) FAB_PCTRL_EN = true) ∧
       (s.fabUp p.toNat = true → s.src = 2 → s.fld STK_CTRL STK_CTRL_PTP_PORT = p.toNat → s.stkState = 2 → u.stkState = 3) ∧ Quiet s u) ∧
     ((∀ k, (s.crew k).state ≠ 2) →
       (∀ m, s.fld (FAB_PCTRL p.toNat) FAB_PCTRL_MODE_MAX = m → m ≤ 2 → s.bit (FAB_PCTRL p.toNat) FAB_PCTRL_EN = true →
         ∃ u, exec (.fabLinkChange p 2 4) s = .next u ∧ u.fld a FAB_PSTATUS_STATE = 2 ∧ u.fld a FAB_PSTATUS_MODE = m ∧
           u.fld a FAB_PSTATUS_LANES = 4 / 2 ^ m ∧ u.fabUp p.toNat = true ∧ Quiet s u) ∧
       (∀ lanes, ∃ u, exec (.fabLinkChange p 0 lanes) s = .next u ∧ u.fld a FAB_PSTATUS_STATE = 0 ∧ u.fabUp p.toNat = false ∧
         (s.fabUp p.toNat = true → s.src = 2 → s.fld STK_CTRL STK_CTRL_PTP_PORT = p.toNat → s.stkState = 2 → u.stkState = 3) ∧ Quiet s u)) ∧
     (∀ ptp, s.fabUp p.toNat = true →
       exec (.fabricFrame p 0 ptp) s = .next (s.stick (FAB_CNT_PFC p.toNat) FAB_CNT_PFC_COUNT 1) ∧
       (∃ u, exec (.fabricFrame p 3 ptp) s = .next u ∧ u.fld (FAB_CNT_FEC p.toNat) FAB_CNT_FEC_COUNT =
         min (s.fld (FAB_CNT_FEC p.toNat) FAB_CNT_FEC_COUNT + 1) (2 ^ 32 - 1) ∧ Quiet s u) ∧
       exec (.fabricFrame p 4 ptp) s = .next (s.fabDrop p.toNat) ∧
       (s.ptpServed p.toNat ptp.domain.toNat ptp.transport.toNat = false → exec (.fabricFrame p 2 ptp) s = .next (s.fabDrop p.toNat)))) ∧
  (∀ (s : State) (r : CoxReq) (x : Session),
     let w0 := r.words.getD 0 0
     let w1 := r.words.getD 1 0
     (CoxServes s 0x70 2 false r x → r.len = 32 → field w0 60 59 ≠ 3 → field w0 50 48 = 0 → field w0 47 32 ≠ 0 →
       (field w0 58 58 = 0 ∨ 1 ≤ field w1 63 56 ∧ field w1 63 56 ≤ 128) → field w1 55 0 = 0 → s.drains = [] →
       (s.fabric.ctxs.any fun q => q.2.state == 1 && q.2.ports.testBit (field w0 63 61)) = false →
       ∃ v, CoxDone s .fabCfg r v (Ans.ok [BitVec.ofNat 64 ((s.fuses.mac + field w0 63 61) % 2 ^ 48)]) ∧
         SMap.get (fun _ => []) v.fabric.cfg (field w0 63 61) = r.words ∧
         v.fld (FAB_PCTRL (field w0 63 61)) FAB_PCTRL_MODE_MAX = field w0 60 59 ∧
         v.bit (FAB_PCTRL (field w0 63 61)) FAB_PCTRL_EN = true ∧ Quiet s v) ∧
     (CoxServes s 0x73 0 false r x → r.len = 8 → r.w 0 < 1024 → (s.crew (r.w 0)).state ≠ 0 → s.otherOwns 3 (r.w 0) x = false →
       CoxDone s .crewStatus r (taken s r) (Ans.ok (s.crewStatus (r.w 0)))) ∧
     (∀ y k, r.origin = .ect y → s.crewByKey (r.w 0) = some k →
       let c := s.crew k
       let j := { Crew.none with p := r.words.take 5 }
       let base := c.members.filter fun m => !m.withdrawn
       (CoxServes s 0x100 3 true r x → r.len = 104 → j.w 1 63 60 = 0 → j.w 1 14 8 = 0 → j.w 4 25 0 = 0 → c.lead = true → c.state = 1 →
         c.announced = none → c.next = [] → c.w 1 56 54 ≤ min c.rules (r.w 6) → joinWords j = joinWords c →
         (c.members.any fun m => m.num == j.own) = false → syncFits c.syncReq (s.ctx y) = true →
         c.syncReq = 0 ∨ r.w 12 = s.fld STK_PERIOD STK_PERIOD_PERIOD_NS →
         ∃ v m, CoxDone s .crewJoin r v (Ans.ok []) ∧ (v.crew k).level = min c.level (r.w 5) ∧ (v.crew k).rules = min c.rules (r.w 6) ∧
           (v.crew k).members = insMember m base ∧
           m = { num := j.own, crew := r.w 7, ctx := some y, addr := r.w 8 + r.w 9 * 2 ^ 64, udp := r.w 10, recvLen := r.w 11, ready := false,
                 withdrawn := false } ∧
           (v.crew k).announced = (if base.length + 1 = c.nmem then some (s.boundaryFrom c s.now, insMember m base) else none) ∧
           v.mmio = s.mmio ∧ Quiet s v) ∧
       (CoxServes s 0x102 3 true r x → r.len = 8 → ∃ v, CoxDone s .crewReady r v (Ans.ok []) ∧
         (v.crew k).members = c.members.map (fun m => if m.ctx = some y then { m with ready := true } else m) ∧
         (∀ b ms, c.announced = some (b, ms) →
           (v.crew k).announced = some (b, ms.map fun m => if m.ctx = some y then { m with ready := true } else m)) ∧ v.mmio = s.mmio ∧ Quiet s v) ∧
       (∀ m, CoxServes s 0x103 3 true r x → r.len = 16 → c.members.find? (·.ctx == some y) = some m → c.announced = none → c.next = [] →
         ∃ v b, CoxDone s .crewDepart r v (Ans.ok []) ∧ (v.crew k).announced = some (b, c.members.filter fun q => !q.withdrawn && q.num ≠ m.num) ∧
           b = s.boundaryFrom c (r.words.getD 1 0) ∧ (v.crew k).members = c.members ∧ v.mmio = s.mmio ∧ Quiet s v) ∧
       (CoxServes s 0x104 3 true r x → r.len = 8 → CoxDone s .crewQuery r (taken s r) (Ans.ok (s.crewStatus k)))) ∧
     (∀ y k c n i, r.origin = .ect y → s.fabric.crews = [(k, c)] → c.lead = false → c.pend = none → c.announced = none →
       CoxServes s 0x101 3 true r x → r.words.length = 4 + 6 * n → r.len = 32 + 48 * n → r.w 3 % 2 ^ 32 = n → i < n →
       r.w (4 + 6 * i) = c.own → r.w (5 + 6 * i) = k → s.fabric.ctxs.length + n ≤ 65536 →
       ∃ v ms, CoxDone s .crewRoster r v (Ans.ok []) ∧ (v.crew k).announced = some (BitVec.ofNat 64 (r.w 2), ms) ∧
         (v.crew k).level = r.w 0 ∧ (v.crew k).rules = r.w 1 ∧ (v.crew k).leader = some (c.leader.getD (r.w 3 / 2 ^ 32)) ∧ ms.length = n ∧
         (∀ l, l < n → ∃ m ∈ ms, m.num = r.w (4 + 6 * l) ∧ m.addr = r.w (6 + 6 * l) + r.w (7 + 6 * l) * 2 ^ 64 ∧ m.udp = r.w (8 + 6 * l) ∧
           m.recvLen = r.w (9 + 6 * l)) ∧ v.mmio = s.mmio ∧ Quiet s v))

/-- R345 to R350, R357: pair frames are dropped, heard, or act in order: HELLO meets HELLO, granules and their END are staged,
COMMIT ends a checkpoint, REGION declares and removes images, SYNC writes or answers; unacknowledged frames are sent again. R345,
R347, R354, R357, R358, R360, R364, R367, R373: slices freeze, a staged checkpoint is applied, ports change, the partner's loss is a
takeover or a degradation, restores time out, intervals close, the engine is enabled and drains. -/
def Obligations.PairFramesAndMirror : Prop :=
  (∀ (s : State) (p : BitVec 1) (h : Hdr),
     (∀ typ cmd, (typ, cmd) ∈ [(1, Instr.hb p h), (9, .pairAck p h)] →
       (s.pairPort p.toNat = false → exec cmd s = .next s) ∧
       (s.pairPort p.toNat = true → s.bit (MIR_PSTATUS p.toNat) MIR_PSTATUS_MISCABLED = false → pairGrowth h = true →
         exec cmd s = .next s.mirDrop) ∧
       (PairInOrder s p h typ → ∃ u, exec cmd s = .next u ∧ HeardPair s u h false ∧ Quiet s u)) ∧
     (∀ ws period, s.pairPort p.toNat = true → joinRsv ws = false → pairGrowth h = false → hTyp.get h.w0 = 2 → phPort.get h.w0 ≠ p.toNat →
       exec (.pairHello p h ws period) s = .next (s.setf (MIR_PSTATUS p.toNat) MIR_PSTATUS_MISCABLED 1)) ∧
     (∀ (ws : List Word) (period : BitVec 17), PairInOrder s p h 2 → phPort.get h.w0 = p.toNat → joinRsv ws = false →
       (s.pstate ≠ 1 ∨ s.mirror.helloSent = false → ∃ u, exec (.pairHello p h ws period) s = .next u ∧ HeardPair s u h true ∧
         u.mirror.helloHeard = true ∧ u.mirror.partnerP = ws ∧ u.mirror.partnerPeriod = period.toNat ∧ Quiet s u) ∧
       (s.pstate = 1 → s.mirror.helloSent = true → (∀ r, r < 256 → s.regMode r ≠ 1) →
         s.mirror.p.getD 0 0 = 0 ∨ (s.mirror.p.getD 0 0).toNat = h.w3.toNat →
         ws.getD 0 0 = 0 ∨ (ws.getD 0 0).toNat = s.fuses.serial → period.toNat = s.fld STK_PERIOD STK_PERIOD_PERIOD_NS → s.mirror.ckpt = none →
         ∃ u, exec (.pairHello p h ws period) s = .next u ∧ u.pstate = 2 ∧ u.mirror.okOut = false ∧ u.mirror.okIn = false ∧ Quiet s u) ∧
       (∀ l, s.pstate = 1 → s.mirror.helloSent = true → period.toNat ≠ s.fld STK_PERIOD STK_PERIOD_PERIOD_NS → s.lop s.mirror.handle = some l →
         l.state = 1 → l.handle = s.mirror.handle → ∃ u m, exec (.pairHello p h ws period) s = .next u ∧ u.pstate = 0 ∧
           u.lop s.mirror.handle = some m ∧ m.state = 5 ∧ m.cause = 1 ∧ Quiet s u)) ∧
     (∀ (seq : BitVec 32) (a : BitVec 48) (data : BitVec 32768), PairInOrder s p h 3 → 2 ≤ s.pstate → s.pstate ≤ 4 →
       s.mirror.stageSeq = seq.toNat ∨ s.mirror.staged = false →
       ∃ u, exec (.gran p h ⟨seq, 0⟩ a data) s = .next u ∧ HeardPair s u h true ∧ u.mirror.stageSeq = seq.toNat ∧
         u.mirror.stage = (if s.mirror.stageSeq = seq.toNat then s.mirror.stage.filter (fun q => q.1 ≠ a.toNat / 4096) else []) ++
           [(a.toNat / 4096, data)] ∧
         (s.mirror.stageSeq = seq.toNat → u.mirror.stageEnd = s.mirror.stageEnd) ∧ Quiet s u) ∧
     (∀ (seq rsv : BitVec 32) a data, s.pairPort p.toNat = true → s.bit (MIR_PSTATUS p.toNat) MIR_PSTATUS_MISCABLED = false → rsv ≠ 0 →
       exec (.gran p h ⟨seq, rsv⟩ a data) s = .next s.mirDrop ∧ ∀ v, exec (.syncFrame p h ⟨rsv, a⟩ v) s = .next s.mirDrop) ∧
     (∀ seq count : BitVec 32, PairInOrder s p h 4 → 2 ≤ s.pstate → s.pstate ≤ 4 → s.mirror.stageSeq = seq.toNat ∨ s.mirror.staged = false →
       ∃ u, exec (.endFrame p h seq count) s = .next u ∧ HeardPair s u h true ∧ u.mirror.stageEnd = some count.toNat ∧
         u.mirror.stageSeq = seq.toNat ∧ (s.mirror.stageSeq = seq.toNat → u.mirror.stage = s.mirror.stage) ∧ Quiet s u) ∧
     (∀ c (seq : BitVec 32), PairInOrder s p h 5 → s.mirror.ckpt = some c → s.store.restores = [] → s.drains = [] →
       (c.seq = seq.toNat → ∃ u, exec (.commit p h seq) s = .next u ∧ u.fld MIR_CKPT MIR_CKPT_SENT = c.seq ∧ u.mirror.ckpt = none ∧
         u.mirror.frozen = [] ∧ u.mirror.shadow = [] ∧ (s.pstate = 4 → s.mirror.oversized = true → u.pstate = 3) ∧ Quiet s u) ∧
       (c.seq ≠ seq.toNat → ∃ u, exec (.commit p h seq) s = .next u ∧ HeardPair s u h true ∧ u.mirror.ckpt = some c ∧ Quiet s u)) ∧
     (∀ (r : BitVec 8) (w0 w1 w2 w3 : Word), PairInOrder s p h 6 → 1 ≤ s.pstate → s.pstate ≤ 4 → rsvBad (MIR_REG_W0 0) w0 = false →
       rsvBad (MIR_REG_W1 0) w1 = false → rsvBad (MIR_REG_W2 0) w2 = false → rsvBad (MIR_REG_W3 0) w3 = false →
       ∃ u, exec (.regionFrame p h r (w0, w1) (w2, w3)) s = .next u ∧ HeardPair s u h true ∧
         u.mirror.images = (if MIR_REG_W0_MODE.get w0 = 0 then s.mirror.images.filter (fun i => i.1 ≠ r.toNat)
           else if s.regionMeets (MIR_REG_W0_BASE.get w0) (MIR_REG_W1_LEN.get w1) then s.mirror.images
           else s.mirror.images.filter (fun i => i.1 ≠ r.toNat) ++ [(r.toNat, MIR_REG_W0_BASE.get w0, MIR_REG_W1_LEN.get w1)]) ∧ Quiet s u) ∧
     (∀ a : BitVec 48, PairInOrder s p h 7 → s.pstate = 3 → s.store.restores = [] →
       ∃ t, s.pairRx p.toNat h 7 = (t, true) ∧ HeardPair s t h true ∧ Quiet s t ∧
         (∀ v : BitVec 32768, let w := (t.memWrite .mirror 0 (4096 * (a.toNat / 4096)) 4096 v.toNat).1
           exec (.syncFrame p h ⟨0, a⟩ (some v)) s = .next (if w.pstate = 2 then w.mir fun m => { m with okIn := false } else w)) ∧
         (s.imageCovers (4096 * (a.toNat / 4096)) 1 = false → s.regionMode (4096 * (a.toNat / 4096)) ≠ some 1 →
           exec (.syncFrame p h ⟨0, a⟩ none) s = .next (t.pairSend 7 [0, 4096 * (a.toNat / 4096)]))) ∧
     (∀ (n : BitVec 16) (psn : BitVec 32) q, s.mirror.link.unacked.find? (·.psn == psn.toNat) = some q → 2 ≤ (s.now - q.sent).toNat →
       (q.tries < 8 → s.pairUp ≠ [] → s.pairMute = false → s.mirror.portFail = [0, 0] → ∃ u, exec (.retransmitTimeout true n psn) s = .next u ∧
         u.mirror.link.unacked.find? (·.psn == psn.toNat) = some { q with sent := s.now, tries := q.tries + 1 } ∧
         u.sent.length = s.sent.length + 1 ∧ u.mmio = s.mmio ∧ Quiet s u) ∧
       (8 ≤ q.tries → s.store.held = [] → s.store.restores = [] → s.drains = [] → ∃ u, exec (.retransmitTimeout true n psn) s = .next u ∧
         u.mirror.lost = true ∧ u.mirror.link = Link.init ∧ u.mirror.ckpt = none ∧ u.pairPort 0 = false ∧ u.pairPort 1 = false ∧
         (s.pstate = 3 → u.pstate = 4) ∧ Quiet s u))) ∧
  (∀ (s : State),
     (∀ d : BitVec 3, d.toNat ∈ s.mirror.freezing → s.mirror.freezing.erase d.toNat ≠ [] → (∀ q ∈ s.mirror.cur, q.2 = true) →
       (∀ r, r < 256 → s.regMode r ≠ 4) →
       ∃ u, exec (.llsFreeze d) s = .next u ∧ u.mirror.freezing = s.mirror.freezing.erase d.toNat ∧
         (∀ g, homeDie (4096 * g) = d.toNat → SMap.get noFlag u.mirror.cur g = false ∧
           SMap.get noFlag u.mirror.frozen g = (SMap.get noFlag s.mirror.frozen g || SMap.get noFlag s.mirror.cur g)) ∧
         (∀ g, homeDie (4096 * g) ≠ d.toNat → SMap.get noFlag u.mirror.cur g = SMap.get noFlag s.mirror.cur g ∧
           SMap.get noFlag u.mirror.frozen g = SMap.get noFlag s.mirror.frozen g) ∧ u.mmio = s.mmio ∧ Quiet s u) ∧
     (∀ d : BitVec 3, d.toNat ∉ s.mirror.freezing → exec (.llsFreeze d) s = .next s) ∧
     (s.mirror.staged = true → 2 ≤ s.pstate → s.pstate ≤ 4 →
       exec .checkpointApplyEnd s =
         .next ((s.applyStage.pairSend 5 [s.mirror.stageSeq]).mir fun m => { m with okIn := true }).pairReady ∧
       s.applyStage.mirror.stage = [] ∧ s.applyStage.mirror.stageEnd = none ∧ s.applyStage.mirror.stageSeq = 0 ∧
       (s.mirror.stage = [] → s.applyStage.fld MIR_CKPT MIR_CKPT_RCVD = s.mirror.stageSeq % 2 ^ 32)) ∧
     (s.mirror.staged = false → exec .checkpointApplyEnd s = .next s) ∧
     (∀ p : BitVec 1, s.pstate ≠ 4 → s.mirror.ckpt = none → s.mirror.copying = [] → s.store.restores = [] →
       (∀ m, s.fld (MIR_PCTRL p.toNat) MIR_PCTRL_MODE_MAX = m → m ≤ 2 → s.bit (MIR_PCTRL p.toNat) MIR_PCTRL_EN = true →
         ∃ u, exec (.pairLinkChange p 2 4) s = .next u ∧ u.fld (MIR_PSTATUS p.toNat) MIR_PSTATUS_STATE = 2 ∧
           u.fld (MIR_PSTATUS p.toNat) MIR_PSTATUS_MODE = m ∧ u.fld (MIR_PSTATUS p.toNat) MIR_PSTATUS_LANES = 4 / 2 ^ m ∧
           u.pairPort p.toNat = true ∧ Quiet s u) ∧
       (∀ lanes, ∃ u, exec (.pairLinkChange p 0 lanes) s = .next u ∧ u.pairPort p.toNat = false ∧
         u.bit (MIR_PSTATUS p.toNat) MIR_PSTATUS_MISCABLED = false ∧ (s.pstate = 3 → s.pairUp = [p.toNat] → u.pstate = 4) ∧ Quiet s u)) ∧
     (2 ≤ s.pstate → s.pstate ≤ 4 → s.old64 (s.fld MIR_HEARD MIR_HEARD_PAIR) = true → s.store.restores = [] → s.store.held = [] → s.drains = [] →
       (s.mirror.hbCtx = none → s.mirror.staged = false →
         ∃ u, exec .partnerLost s = .next u ∧ u.pstate = 5 ∧ u.bit MIR_STATUS MIR_STATUS_TAKEOVER = true ∧
           (s.pstate = 2 → u.bit MIR_STATUS MIR_STATUS_INCONSIST = true) ∧ u.mirror.taken = s.mirror.images ∧ u.mirror.images = [] ∧
           u.mirror.ckpt = none ∧ u.mirror.stage = [] ∧ Quiet s u) ∧
       (∀ c, s.mirror.hbCtx = some c → (s.ctx c).state = 1 → s.old64 (s.ctx c).heard = false →
         (s.pstate = 4 → exec .partnerLost s = .next s) ∧
         (s.pstate ≠ 4 → ∃ u, exec .partnerLost s = .next u ∧ u.pstate = 4 ∧ u.mirror = s.mirror ∧ Quiet s u))) ∧
     (∀ a : BitVec 48, (s.store.restores.any fun r => r.granule == a.toNat / 4096 && r.asked && decide (8 ≤ (s.now - r.stroke).toNat)) = true →
       s.store.codewords = [] → s.store.held = [] → ∃ u, exec (.restoreTimeout a) s = .next u ∧
         u.store.restores = s.store.restores.filter (fun q => q.granule ≠ a.toNat / 4096) ∧ Quiet s u) ∧
     (∀ c failed, s.mirror.ckpt = some c → s.mirror.freezing = [] → s.pstate = 0 → (∀ r, r < 256 → s.regMode r ≠ 3 ∧ s.regMode r ≠ 4) →
       exec (.journalRecord failed) s = .next (s.journalClose c 0 [] c.toSend [])) ∧
     (∀ v : Word, rsvBad MIR_CTRL v = false → s.drains = [] →
       (v.getLsbD 0 = true → ∃ u, exec (.mirEn .cox v) s = .next u ∧ u.bit MIR_CTRL MIR_CTRL_EN = true ∧ u.drains = [] ∧ Quiet s u) ∧
       (v.getLsbD 0 = false → s.bit MIR_CTRL MIR_CTRL_EN = true → s.mirror.ckpt.isSome = true → ∃ u, exec (.mirEn .cox v) s = .next u ∧
         u.bit MIR_CTRL MIR_CTRL_EN = false ∧ u.bit MIR_STATUS MIR_STATUS_ACTIVE = true ∧ u.drains = [⟨.mirror, 0, false⟩] ∧ Quiet s u)) ∧
     (∀ held, s.store.held = [] → s.pstate ≠ 0 → ∃ u, exec .mirDrainLimit { s with drains := [⟨.mirror, 65, held⟩] } = .next u ∧
       u.mirror.ckpt = none ∧ u.bit MIR_STATUS MIR_STATUS_ACTIVE = false ∧ u.drains = [] ∧
       (held = true → u.bit MIR_CTRL MIR_CTRL_EN = true) ∧
       (∀ q ∈ s.mirror.frozen, s.mirror.ckpt.isSome = true → SMap.get noFlag u.mirror.cur q.1 = true) ∧ Quiet s u))

/-- R350, R351, R364: a region is declared, refused or removed; the journal's ring is configured and its catch event armed. R283:
RECLAIM releases what a client identifier of an origin owns, and answers how many objects it released. -/
def Obligations.RegionsJournalAndReclaim : Prop :=
  (∀ (s : State) (r : CoxReq) (x : Session),
     let k := r.w 0
     let w (i : Nat) : Word := r.words.getD i 0
     (∀ refused, CoxServes s 0x82 1 false r x → r.len = 40 → firstBad (s.regionChecks r) = none → s.otherOwns 4 k x = false →
       (MIR_REG_W0_MODE.get (w 1) = 0 → s.regMode k ≠ 1 → ∃ v, CoxDone s (.mirrorRegion refused) r v (Ans.ok []) ∧ v.rd (MIR_REG_W0 k) = 0 ∧
         v.rd (MIR_REG_W1 k) = 0 ∧ v.rd (MIR_REG_W2 k) = 0 ∧ v.rd (MIR_REG_W3 k) = 0 ∧ v.owned 4 k = none ∧ Quiet s v) ∧
       (2 ≤ MIR_REG_W0_MODE.get (w 1) ∨ MIR_REG_W0_MODE.get (w 1) = 1 ∧ refused = false ∧
           ((List.range 256).filter fun i => s.regMode i == 1).foldl (fun n i => n + mapBytes (s.regLen i)) (mapBytes (MIR_REG_W1_LEN.get (w 2))) ≤
             (s.mirror.p.getD 8 0).toNat → s.regMode k = 0 → s.owned 4 k = none → ∃ v, CoxDone s (.mirrorRegion refused) r v (Ans.ok []) ∧
         v.rd (MIR_REG_W0 k) = w 1 ∧ v.rd (MIR_REG_W1 k) = w 2 ∧ v.rd (MIR_REG_W2 k) = w 3 ∧ v.rd (MIR_REG_W3 k) = w 4 ∧
         v.owned 4 k = some ⟨4, k, x.party, x.client⟩ ∧ (∀ j, j ≠ k → v.regMode j = s.regMode j) ∧ Quiet s v) ∧
       (MIR_REG_W0_MODE.get (w 1) = 1 → s.regMode k = 0 → refused = true →
         ((List.range 256).filter fun i => s.regMode i == 1).foldl (fun n i => n + mapBytes (s.regLen i)) (mapBytes (MIR_REG_W1_LEN.get (w 2))) ≤
           (s.mirror.p.getD 8 0).toNat →
         ∃ v, CoxDone s (.mirrorRegion refused) r v (Ans.at 4 8) ∧ v.mmio = s.mmio ∧ v.cox = (taken s r).cox ∧ Quiet s v)) ∧
     (∀ i, CoxServes s 0x83 1 false r x → r.len = 32 → field (w 0) 31 10 = 0 → 8 ≤ field (w 0) 63 32 → field (w 0) 63 32 ≤ 65535 →
       inHbm64k (r.w 2) (r.w 3) = true → 0 < r.w 3 → s.pstate = 0 → s.mirror.entry = none → s.freeEntry = some i →
       ∃ v, CoxDone s .journalCfg r v (Ans.ok []) ∧ v.mirror.ring = [w 2, w 3] ∧ v.mirror.jseq = 0 ∧ v.mirror.entry = some i ∧
         v.rd MIR_JRNL = 0 ∧ v.evtState i = 1 ∧ v.evtKind i = 2 ∧ v.rd (STK_EVT_DUE i) = w 1 ∧
         v.fld (STK_EVT_W2 i) STK_EVT_W2_REPEAT = field (w 0) 63 32 ∧ Quiet s v)) ∧
  (∀ (s : State) (r : CoxReq) (x : Session), CoxServes s 0xB1 2 false r x → r.len = 16 → r.w 1 ≤ 2 →
     let mine (party : Nat) (client : Word) : Bool := party == r.w 1 && client == r.words.getD 0 0
     let rings := s.cox.rings.filter fun q => mine q.2.party q.2.client
     let owned := s.cox.owners.filter fun o => mine o.party o.client
     let ops := (taken s r).cox.lops.filter fun l => l.live && l.detach && mine l.party l.client && s.cancels l
     ∃ v, CoxDone s .reclaim r v (Ans.ok [BitVec.ofNat 64 (rings.length + owned.length + ops.length)]) ∧
       (∀ q ∈ v.cox.rings, mine q.2.party q.2.client = false) ∧
       ((∀ o ∈ s.cox.owners, 1 ≤ o.kind ∧ o.kind ≤ 4) → ∀ o ∈ v.cox.owners, mine o.party o.client = false) ∧ (rings = [] → owned = [] → ops = [] → v.cox.rings = s.cox.rings ∧ Quiet s v))

/-- R387, R390, R392, R395, R396, R398, R401: the clamp, the power-cap command, the trim loop's moves, the move of a tile to a spare
and its end, low coolant flow, and the enables. R402 to R408: the module enters Easy at a quiescent catch, a trigger schedules its
end, the data plane resumes; a daily re-plan begins; patina rows are read. -/
def Obligations.PowerPlacementAndEasy : Prop :=
  (∀ (s : State) (d : BitVec 3),
     let n := d.toNat
     (∃ u, exec .emergencyClamp s = .next u ∧ u.fcap = 1200 ∧ u.bit PWR_STATUS PWR_STATUS_CLAMP = true ∧
       u.fld PWR_CNT_CLAMP PWR_CNT_CLAMP_COUNT = min (s.fld PWR_CNT_CLAMP PWR_CNT_CLAMP_COUNT + 1) (2 ^ 32 - 1) ∧ Quiet s u) ∧
     (∀ (r : CoxReq) (x : Session) k i, CoxServes s 0x90 2 false r x → r.len = 16 → 2600 ≤ r.w 0 → r.w 0 ≤ 5200 → k < 16 →
       s.bit (PWR_SLOT k) PWR_SLOT_V = false → (∀ j, j < k → s.bit (PWR_SLOT j) PWR_SLOT_V = true) →
       (List.range 32).find? (fun i => s.evtState i == 0 && s.evtOwner i == 0) = some i →
       ∃ v, CoxDone s .powerCap r v (Ans.ok [BitVec.ofNat 64 k]) ∧ v.bit (PWR_SLOT k) PWR_SLOT_V = true ∧
         v.fld (PWR_SLOT k) PWR_SLOT_CAP_W = r.w 0 ∧ 1200 ≤ v.fld (PWR_SLOT k) PWR_SLOT_FSTART ∧ v.fld (PWR_SLOT k) PWR_SLOT_FSTART ≤ 2400 ∧
         v.evtState i = 1 ∧ v.evtKind i = 3 ∧ v.evtArg i = k ∧
         v.rd (STK_EVT_DUE i) = (if r.w 1 = 0 then s.now + 1 else r.words.getD 1 0) ∧ Quiet s v) ∧
     (∀ (i : BitVec 6) (slack : BitVec 2), i.toNat < 34 → s.easy = false →
       let a := TRM_TILE_W0 n i.toNat
       let p := 34 * n + i.toNat
       let target := s.freqTarget n
       let f := min target (max 1200 (s.fld a TRM_TILE_W0_FREQ))
       let add := SMap.get noNat s.power.add p
       let room := min 50 (950 - s.vplanOf p f)
       ∃ u, exec (.trimLoop d i slack) s = .next u ∧
         (slack = 1 → u.fld a TRM_TILE_W0_FREQ = f ∧ SMap.get noNat u.power.add p = add) ∧
         (slack = 0 → 5 * (add + 1) ≤ 2 * room → u.fld a TRM_TILE_W0_FREQ = f ∧ SMap.get noNat u.power.add p = add + 1) ∧
         (slack = 0 → 2 * room < 5 * (add + 1) → u.fld a TRM_TILE_W0_FREQ = max 1200 (f - 25) ∧ SMap.get noNat u.power.add p = add) ∧
         (slack = 2 → f < target → u.fld a TRM_TILE_W0_FREQ = min target (f + 25) ∧ SMap.get noNat u.power.add p = add) ∧
         (slack = 2 → f = target → u.fld a TRM_TILE_W0_FREQ = f ∧ SMap.get noNat u.power.add p = add - 1) ∧
         550 ≤ u.fld a TRM_TILE_W0_VOLT ∧ u.fld a TRM_TILE_W0_VOLT ≤ 950 ∧ Quiet s u) ∧
     (∀ i : BitVec 6, exec (.supplyDroop d i) s = .next s) ∧
     (∀ t, s.stkPhase = 0 → s.easy = false → (s.placement.moves.any (·.1 == n)) = false →
       (s.tilesOn n).find? (fun t => s.moveDue t && s.canMove t && !(decide (s.sparesOf n = []) && s.placement.noted.contains t)) = some t →
       (∀ k ks, s.sparesOf n = k :: ks → s.bit (TRM_CTRL n) TRM_CTRL_PLACE_EN = true →
         ∃ u role, exec (.placementMove d) s = .next u ∧ u.placement.place = s.placement.place ∧
           u.placement.moves = s.placement.moves ++ [(n, t, k, role, s.now + BitVec.ofNat 64 s.moveStrokes)] ∧
           u.bit (TRM_STATUS n) TRM_STATUS_MV = true ∧ u.fld (TRM_STATUS n) TRM_STATUS_MOVING = t ∧ Quiet s u) ∧
       (s.sparesOf n = [] → ∃ u, exec (.placementMove d) s = .next u ∧ u.bit (TRM_STATUS n) TRM_STATUS_NOSPARE = true ∧
         u.bit DEV_STATUS DEV_STATUS_DEGRADED = true ∧ u.placement.noted = s.placement.noted ++ [t] ∧
         u.placement.moves = s.placement.moves ∧ Quiet s u)) ∧
     (∀ t k role e, s.placement.moves.find? (·.1 == n) = some (n, t, k, role, e) → after e s.now = false →
       ∃ u, exec (.placementMoveEnd d) s = .next u ∧ u.physOf t = 34 * n + k ∧ (∀ j, j ≠ t → u.physOf j = s.physOf j) ∧
         u.placement.setAside = s.placement.setAside ++ [(s.physOf t, role)] ∧ (u.placement.moves.any (·.1 == n)) = false ∧
         u.bit (TRM_STATUS n) TRM_STATUS_MOVED = true ∧ u.bit (TRM_STATUS n) TRM_STATUS_MV = false ∧ u.mem = s.mem) ∧
     (1000 ≤ s.power.flowLow → s.bit PWR_STATUS PWR_STATUS_FLOW_LOW = false →
       ∃ u, exec .coolantFlowLow s = .next u ∧ u.bit PWR_STATUS PWR_STATUS_FLOW_LOW = true ∧ Quiet s u) ∧
     (s.power.flowLow < 1000 → exec .coolantFlowLow s = .next s) ∧
     (∀ v : Word, rsvBad PWR_CTRL v = false → s.drains = [] →
       (v.getLsbD 0 = true → ∃ u, exec (.capEn .cox v) s = .next u ∧ u.bit PWR_CTRL PWR_CTRL_CAP_EN = true ∧ Quiet s u) ∧
       (v.getLsbD 0 = false → s.bit PWR_CTRL PWR_CTRL_CAP_EN = true → ∃ u, exec (.capEn .cox v) s = .next u ∧
         u.bit PWR_CTRL PWR_CTRL_CAP_EN = false ∧
         u.drains = (if s.power.steps.any (· < 16) then [⟨.cap, 0, false⟩] else []) ∧ Quiet s u)) ∧
     (∀ v : Word, rsvBad (TRM_CTRL n) v = false → s.drains = [] →
       (v.getLsbD 0 = true → ∃ u, exec (.placeEn .cox d v) s = .next u ∧ u.bit (TRM_CTRL n) TRM_CTRL_PLACE_EN = true ∧ Quiet s u) ∧
       (v.getLsbD 0 = false → s.bit (TRM_CTRL n) TRM_CTRL_PLACE_EN = true → ∃ u, exec (.placeEn .cox d v) s = .next u ∧
         u.bit (TRM_CTRL n) TRM_CTRL_PLACE_EN = false ∧
         u.drains = (if s.placement.moves.any (·.1 == n) then [⟨.placement n, 0, false⟩] else []) ∧ Quiet s u))) ∧
  (∀ (s : State),
     (∀ l, s.cox.lops.find? (fun l => l.cmd == 0x91 && l.state == 1) = some l → s.lop l.handle = some l → s.stkPhase = 0 → s.easy = false →
       l.cancel = false → s.quiescent = true → l.args.getD 0 0 < 2 ^ 64 →
       (∀ i, s.freeEntry = some i → ∃ u m, exec .easyEntry s = .next u ∧ u.easy = true ∧ u.power.easyF = s.fcap ∧ u.power.wake = none ∧
         (0 < l.args.getD 0 0 → u.evtState i = 1 ∧ u.evtKind i = 6 ∧ u.rd (STK_EVT_DUE i) = BitVec.ofNat 64 (l.args.getD 0 0)) ∧
         u.lop l.handle = some m ∧ m.state = 3 ∧ m.result = [s.now] ∧ Quiet s u) ∧
       (s.freeEntry = none → l.args.getD 0 0 = 0 → ∃ u, exec .easyEntry s = .next u ∧ u.easy = true ∧ Quiet s u)) ∧
     (s.easy = true → s.power.wake = none → let p := max 1 (s.fld STK_PERIOD STK_PERIOD_PERIOD_NS)
       exec .easyWakeN s = .next { s with power := { s.power with wake := some (s.now + BitVec.ofNat 64 ((500000 + p - 1) / p)) } }) ∧
     (s.easy = false ∨ s.power.wake.isSome = true → exec .easyWakeN s = .next s) ∧
     (∀ w, s.power.wake = some w → after w s.now = false → s.stkPhase = 0 → s.power.easyF < 4096 →
       ∃ u, exec .easyResume s = .next u ∧ u.easy = false ∧ u.power.wake = none ∧ u.fcap = s.power.easyF ∧ Quiet s u) ∧
     (s.cox.lastReplan + 86400000 ≤ s.stroke.ticks → s.liveOf 0x92 = none → s.lopsFull = false → s.easy = false → s.coxIdle = false →
       s.bit DEV_STATUS DEV_STATUS_READY = true → ∃ u l, exec .dailyReplan s = .next u ∧ u.cox.lops = s.cox.lops ++ [l] ∧ l.cmd = 0x92 ∧
         l.state = 0 ∧ l.args = [255, 0] ∧ l.handle = s.newHandle ∧ u.cox.lastReplan = s.stroke.ticks ∧ u.mmio = s.mmio ∧ Quiet s u) ∧
     (∀ (r : CoxReq) (x : Session), CoxServes s 0x93 0 false r x → r.len = 16 → r.w 0 ≤ 271 → 0 < r.w 1 → r.w 1 ≤ 126 → r.w 0 + r.w 1 ≤ 272 →
       CoxDone s .patinaRead r (taken s r) (Ans.ok ((List.range (r.w 1)).flatMap fun i => s.patinaRow (r.w 0 + i)))))

/-- R399, R400: the thresholds are 95, 105 and 115 °C at reset; a die's sample is compared with them; a die at or above 115 °C trips
the module, every rail falls, and PWR_TRIP holds kind 3 and the die. -/
def Obligations.HotDieTripsModule : Prop :=
  State.reset.fld THM_THR THM_THR_WARN = 95 ∧ State.reset.fld THM_THR THM_THR_THROT = 105 ∧ State.reset.fld THM_THR THM_THR_TRIP = 115 ∧
  ∀ (s : State) (d : BitVec 4) (temps : List (BitVec 8)) (h : Int), d.toNat ≤ 8 → 4 ≤ s.boot.rails → (∀ c ∈ temps, c.toInt ≤ h) →
    (∃ c ∈ temps, c.toInt = h) →
    (115 ≤ h → ∃ u, exec (.dieTemperatureSample d temps) s = .next u ∧ WipedFrom s u ∧ u.boot.tripped = true ∧ u.boot.rails = 0 ∧
      u.bit PWR_TRIP PWR_TRIP_V = true ∧ u.fld PWR_TRIP PWR_TRIP_KIND = 3 ∧ u.fld PWR_TRIP PWR_TRIP_WHICH = d.toNat ∧
      u.fld PWR_TRIP PWR_TRIP_STROKE = s.now.toNat % 2 ^ 32) ∧
    (h < 115 → ∃ u, exec (.dieTemperatureSample d temps) s = .next u ∧ u.fld (THM_DIE d.toNat) THM_DIE_TEMP = (BitVec.ofInt 8 h).toNat ∧
      u.fld (THM_DIE d.toNat) THM_DIE_STATE = (if (s.fld THM_THR THM_THR_THROT : Int) ≤ h then 2
        else if (s.fld THM_THR THM_THR_WARN : Int) ≤ h then 1 else 0) ∧ Quiet s u)

/-- R285, R363, R415, R421, R423, R424, R426, R427: ADVANCE raises the fuses or is rejected; a nonce is issued, a token is accepted
or denied and the nonce expires; the Cox restarts and serves again, in a new image after an activation, or enters recovery. -/
def Obligations.DebugUnlockAndCoxRestart : Prop :=
  ∀ (s : State),
    (∀ m, m ≠ .cox → exec (.advance m) s = .next s) ∧
    (imgField s.sec.running 8 47 47 = 1 → s.fld SEC_FUSE SEC_FUSE_SVN < imgSvn s.sec.running →
      ∃ u, exec (.advance .cox) s = .next u ∧ u.fld SEC_FUSE SEC_FUSE_SVN = min 64 (imgSvn s.sec.running) ∧ u.sec = s.sec ∧
        u.rd SEC_STATUS = s.rd SEC_STATUS ∧ Quiet s u) ∧
    (imgField s.sec.running 8 47 47 = 0 ∨ imgSvn s.sec.running ≤ s.fld SEC_FUSE SEC_FUSE_SVN →
      exec (.advance .cox) s = .next (s.setf SEC_STATUS SEC_STATUS_ADV_REJ 1)) ∧
    (∀ (r : CoxReq) (x : Session), CoxServes s 0xA2 2 false r x →
      (r.len = 0 → ∃ v a nonce, CoxDone s .debugUnlock r v a ∧ a.status = 0 ∧ v.sec.nonce = some (nonce, s.stroke.ticks) ∧ nonce.length = 32 ∧
        v.bit SEC_DEBUG SEC_DEBUG_NONCE_V = true ∧ a.payload.length = 6 ∧ a.payload.getD 4 0 = BitVec.ofNat 64 s.fuses.serial ∧
        v.fld SEC_DEBUG SEC_DEBUG_LEVEL = s.fld SEC_DEBUG SEC_DEBUG_LEVEL ∧ Quiet s v) ∧
      (r.len = 3328 →
        let t := wordsBytes r.words
        let slot := imgField t 0 57 56
        imgField t 0 63 60 = 0 → imgField t 0 55 0 = 0 → allZero t 0x30 0x10 = true → allZero t 0x741 0xBF = true →
        (∀ nonce at_, s.sec.nonce = some (nonce, at_) → nonce = cut t 0x10 32 → s.stroke.ticks < at_ + 60000 → dword t 8 = s.fuses.serial →
          2 ≤ slot → let good := s.keyOk slot (cut t 0x40 1793) &&
              Config.falconVerify (cut t 0x40 1793) (Keccak.shake256 (cut t 0 0x800)) (cut t 0x800 1280)
          ∃ v, CoxDone s .debugUnlock r v (if good = true then Ans.ok [BitVec.ofNat 64 (imgField t 0 59 58)] else Ans.err 6) ∧
            v.fld SEC_DEBUG SEC_DEBUG_LEVEL = (if good = true then imgField t 0 59 58 else s.fld SEC_DEBUG SEC_DEBUG_LEVEL) ∧
            v.sec.nonce = none ∧ v.bit SEC_DEBUG SEC_DEBUG_NONCE_V = false ∧ Quiet s v) ∧
        (s.sec.nonce = none ∨ dword t 8 ≠ s.fuses.serial ∨ slot < 2 →
          ∃ v, CoxDone s .debugUnlock r v (Ans.err 6) ∧ v.fld SEC_DEBUG SEC_DEBUG_LEVEL = s.fld SEC_DEBUG SEC_DEBUG_LEVEL ∧
            v.sec.nonce = none ∧ v.bit SEC_DEBUG SEC_DEBUG_NONCE_V = false ∧ Quiet s v))) ∧
    (∀ nonce at_, s.sec.nonce = some (nonce, at_) →
      (at_ + 60000 ≤ s.stroke.ticks → ∃ u, exec .nonceExpiry s = .next u ∧ u.sec.nonce = none ∧
        u.bit SEC_DEBUG SEC_DEBUG_NONCE_V = false ∧ Quiet s u) ∧
      (s.stroke.ticks < at_ + 60000 → exec .nonceExpiry s = .next s)) ∧
    (s.cox.restart = none → s.coxIdle = false →
      (∃ u, exec (.coxRestart false) s = .next u ∧ u.bit DEV_STATUS DEV_STATUS_COX_RST = true ∧
        u.bit HOST_INT_CAUSE HOST_INT_CAUSE_COX_RST = true ∧
        u.cox.restart = some (false, s.stroke.ticks) ∧ u.cox.sessions = s.cox.sessions ∧ u.cox.lops = s.cox.lops ∧ Quiet s u) ∧
      (s.activating = true → ∃ u, exec (.coxRestart true) s = .next u ∧ u.bit DEV_STATUS DEV_STATUS_COX_RST = true ∧
        u.cox.restart = some (true, s.stroke.ticks) ∧ Quiet s u) ∧
      (s.activating = false → exec (.coxRestart true) s = .next s)) ∧
    (∀ at_, s.cox.restart = some (false, at_) → s.cox.resetOwed = false → s.sec.latched = [] → s.cox.queue = [] →
      ∃ u, exec .coxRestartEnd s = .next u ∧ u.bit DEV_STATUS DEV_STATUS_COX_RST = false ∧ u.cox = { s.cox with restart := none } ∧
        u.sec = s.sec ∧ Quiet s u) ∧
    (∀ at_ l, s.cox.restart = some (true, at_) → s.cox.resetOwed = false → s.sec.latched = [] → s.cox.queue = [] → s.liveOf 0xA1 = some l →
      s.lop l.handle = some l → ∃ u m, exec .coxRestartEnd s = .next u ∧ u.bit DEV_STATUS DEV_STATUS_COX_RST = false ∧
        u.sec.running = cut s.sec.staged 0 4096 ∧ u.fld FW_IFACE_VER FW_IFACE_VER_MAJOR = imgMajor s.sec.staged ∧
        u.fld SEC_STATUS SEC_STATUS_BOOT_SLOT = imgSlot s.sec.staged ∧ u.lop l.handle = some m ∧ m.state = 3 ∧ Quiet s u) ∧
    (∀ at_, s.cox.restart = some (true, at_) → at_ + 1000 ≤ s.stroke.ticks →
      (s.pstate ≠ 3 → ∃ u, exec .coxUpTimeout s = .next u ∧ u.fld DEV_STATUS DEV_STATUS_STAGE = 0xE ∧
        u.bit DEV_STATUS DEV_STATUS_COX_RST = false ∧ u.cox.restart = none ∧ u.mirror.actv = false ∧ Quiet s u) ∧
      (s.pstate = 3 → s.pairUp ≠ [] → s.mirror.imageWanted = false → ∃ u, exec .coxUpTimeout s = .next u ∧ u.mirror.imageWanted = true ∧
        u.sec.chunks = [] ∧ u.cox = s.cox ∧ Quiet s u)) ∧
    (∀ (p : BitVec 1) (h : Hdr) (off : BitVec 32) (data : List Byte), PairInOrder s p h 8 → 0 < data.length → data.length ≤ 4096 →
      (s.mirror.imageWanted = false → ∃ u, exec (.image p h off data) s = .next u ∧ HeardPair s u h true ∧ u.sec = s.sec ∧ Quiet s u) ∧
      (s.mirror.imageWanted = true →
        (joinChunks (s.sec.chunks ++ [(off.toNat, data)]) 0 (s.sec.chunks.length + 1)).length < 4096 →
        ∃ u, exec (.image p h off data) s = .next u ∧ HeardPair s u h true ∧ u.sec.chunks = s.sec.chunks ++ [(off.toNat, data)] ∧ Quiet s u))

/-- R421: requests that arrive during a Cox restart are latched; after it, the first latched request of each requester is answered
with ERROR RequestResynch (codes: log 35), and none stays latched. -/
def Obligations.RestartAnswersRequestResynch : Prop :=
  ∀ (s : State),
    (∀ (who : BitVec 8), s.coxIdle = true → exec (.getVersion who) s = .next { s with sec := { s.sec with latched := s.sec.latched ++ [⟨who.toNat, 0x84, []⟩] } } ∧
      ∀ index : BitVec 8, exec (.getMeasurements who index false) s = .next { s with sec := { s.sec with
        latched := s.sec.latched ++ [⟨who.toNat, 0xE0, [index.toNat, 0]⟩] } }) ∧
    (∀ r, s.cox.restart = some r → ∃ u, exec .coxRestartEnd s = .next u ∧ u.sec.latched = [] ∧ u.cox.restart = none ∧
      (∀ q ∈ s.sec.latched, .management 0x57F [q.who, 0x43] ∈ u.sent)) ∧
    (∀ at_ (q : SpdmReq) (who : BitVec 8), s.cox.restart = some (false, at_) → s.cox.resetOwed = false → s.cox.queue = [] →
      s.bit HOST_INT_MASK HOST_INT_CAUSE_COX_RST = true → q.who = who.toNat → s.sec.latched = [q, ⟨who.toNat, 0x84, []⟩] → ∃ u, exec .coxRestartEnd s = .next u ∧
        u.sent = .management 0x504 [who.toNat, 0x12, 0x13] :: .management 0x57F [who.toNat, 0x43] :: s.sent)

/-- R420, R421: each SPDM request is answered with its code and fields, or latched while the Cox restarts. R425: the PLDM update
goes from state to state, and a command out of its state is refused with a code. -/
def Obligations.SpdmAndPldm : Prop :=
  (∀ (s : State) (who : BitVec 8),
     let sent (u : State) (code : Nat) (fields : List Nat) : Prop := u = { s with sent := .management (0x500 + code) (who.toNat :: fields) :: s.sent }
     let latched (i : Instr) (code : Nat) (fields : List Nat) : Prop :=
       s.coxIdle = true → exec i s = .next { s with sec := { s.sec with latched := s.sec.latched ++ [⟨who.toNat, code, fields⟩] } }
     let digest := nats (Keccak.shake256 s.chain)
     latched (.getVersion who) 0x84 [] ∧ latched (.getCapabilities who) 0xE1 [] ∧ latched (.getDigests who) 0x81 [] ∧
     (∀ sig hash : Bool, latched (.negotiateAlgorithms who sig hash) 0xE3 [sig.toNat, hash.toNat]) ∧
     (s.coxIdle = false →
       (∃ u, exec (.getVersion who) s = .next u ∧ sent u 0x04 [0x12, 0x13]) ∧
       (∃ u, exec (.getCapabilities who) s = .next u ∧ sent u 0x61 [0x16]) ∧
       (∃ u, exec (.negotiateAlgorithms who true true) s = .next u ∧ sent u 0x63 [0x1F3C, 1, 0x1F3C, 2]) ∧
       (∀ sig hash : Bool, (sig && hash) = false → ∃ u, exec (.negotiateAlgorithms who sig hash) s = .next u ∧ sent u 0x7F [0x01]) ∧
       (∃ u, exec (.getDigests who) s = .next u ∧ sent u 0x01 (1 :: digest)) ∧
       (∀ off len : BitVec 16, off.toNat ≤ s.chain.length → let n := min len.toNat (s.chain.length - off.toNat)
         ∃ u, exec (.getCertificate who 0 off len) s = .next u ∧
           sent u 0x02 ([0, n, s.chain.length - off.toNat - n] ++ nats (cut s.chain off.toNat n))) ∧
       (∀ slot off len, slot ≠ 0 → ∃ u, exec (.getCertificate who slot off len) s = .next u ∧ sent u 0x7F [0x01]) ∧
       (∃ u nonce k, exec (.challenge who 0) s = .next u ∧ u.sent = .management 0x503 (who.toNat :: (digest ++ nonce ++
         nats (Config.falconSign s.aliasSeed (Config.spdmTranscript k)))) :: s.sent ∧ nonce.length = 32 ∧ u.mmio = s.mmio ∧ Quiet s u) ∧
       (∃ u, exec (.getMeasurements who 0 false) s = .next u ∧ sent u 0x60 [6]) ∧
       (∀ i : BitVec 8, 1 ≤ i.toNat → i.toNat ≤ 6 → ∃ u, exec (.getMeasurements who i false) s = .next u ∧
         sent u 0x60 (1 :: i.toNat :: nats (s.measure i.toNat))) ∧
       (∃ u, exec (.getMeasurements who 255 false) s = .next u ∧
         sent u 0x60 (6 :: [1, 2, 3, 4, 5, 6].flatMap fun i => i :: nats (s.measure i))) ∧
       (∀ i : BitVec 8, 1 ≤ i.toNat → i.toNat ≤ 6 → ∃ u nonce k, exec (.getMeasurements who i true) s = .next u ∧
         u.sent = .management 0x560 (who.toNat :: (1 :: i.toNat :: nats (s.measure i.toNat) ++ nonce ++
           nats (Config.falconSign s.aliasSeed (Config.spdmTranscript k)))) :: s.sent ∧ nonce.length = 32 ∧ u.mmio = s.mmio ∧ Quiet s u) ∧
       (∀ i : BitVec 8, 6 < i.toNat → i.toNat < 255 → ∃ u, exec (.getMeasurements who i false) s = .next u ∧ sent u 0x7F [0x01]))) ∧
  (∀ (s : State) (who : BitVec 8), s.coxIdle = false →
     (s.sec.pldm = 0 → s.fwBusy = false → ∃ u, exec (.requestUpdate who) s = .next u ∧ u.sec.pldm = 1 ∧ u.sec.pldmData = [] ∧
       u.sent = .management 0x110 [who.toNat, 0] :: s.sent ∧ u.mmio = s.mmio ∧ Quiet s u) ∧
     (s.sec.pldm ≠ 0 → exec (.requestUpdate who) s = .next (s.pldmSend who 0x10 0x81)) ∧
     (s.sec.pldm = 1 → ∃ u, exec (.passComponentTable who) s = .next u ∧ u.sec = { s.sec with pldm := 2 } ∧
       u.sent = .management 0x113 [who.toNat, 0] :: s.sent ∧ Quiet s u) ∧
     (s.sec.pldm ≠ 1 → exec (.passComponentTable who) s = .next (s.pldmSend who 0x13 0x84)) ∧
     (∀ len : BitVec 32, (s.sec.pldm = 2 → ∃ u, exec (.updateComponent who len) s = .next u ∧ u.sec.pldm = 3 ∧ u.sec.pldmLen = len.toNat ∧
         u.sec.pldmData = [] ∧ u.sec.staged = [] ∧ u.bit SEC_STATUS SEC_STATUS_STAGED = false ∧ Quiet s u) ∧
       (s.sec.pldm ≠ 2 → exec (.updateComponent who len) s = .next (s.pldmSend who 0x14 0x84))) ∧
     (∀ data : List Byte, s.sec.pldm = 3 → s.sec.pldmData.length + data.length ≤ s.sec.pldmLen → s.sec.pldmLen ≤ 4194304 →
       exec (.requestFirmwareData data) s = .next { s with sec := { s.sec with pldmData := s.sec.pldmData ++ data } }) ∧
     (s.sec.pldm = 3 → s.sec.pldmData.length = s.sec.pldmLen → ∃ u, exec (.transferComplete who) s = .next u ∧
       u.sec = { s.sec with pldm := 4 } ∧ u.sent = .management 0x116 [who.toNat, 0] :: s.sent ∧ Quiet s u) ∧
     (s.sec.pldm = 4 → let cause := s.verifyImage s.sec.pldmData (!s.recovering)
       ∃ u, exec (.verifyComplete who) s = .next u ∧ u.sec = { s.sec with pldm := if cause = 0 then 5 else 2 } ∧
         u.sent = .management 0x117 [who.toNat, cause] :: s.sent ∧ Quiet s u) ∧
     (s.sec.pldm = 5 → s.recovering = false → ∃ u, exec (.applyComplete who true) s = .next u ∧ u.sec.flash = s.sec.pldmData ∧
       u.sec.staged = s.sec.pldmData ∧ u.sec.applied = true ∧ u.sec.pldm = 2 ∧ u.bit SEC_STATUS SEC_STATUS_STAGED = true ∧ Quiet s u) ∧
     (s.sec.pldm = 5 → ∃ u, exec (.applyComplete who false) s = .next u ∧ u.sec = { s.sec with pldm := 2 } ∧ u.mirror.actv = false ∧
       u.sent = .management 0x118 [who.toNat, 0x0A] :: s.sent ∧ Quiet s u) ∧
     (s.sec.pldm = 2 → s.sec.applied = true → s.pstate = 0 → ∃ u, exec (.activateFirmware who) s = .next u ∧
       u.sec = { s.sec with pldm := 6 } ∧ u.mirror.actv = true ∧ u.sent = .management 0x11A [who.toNat, 0] :: s.sent ∧ Quiet s u) ∧
     (s.sec.pldm = 2 → s.sec.applied = true → s.pstate ≠ 0 → s.mirror.partnerActv = true →
       exec (.activateFirmware who) s = .next (s.pldmSend who 0x1A 0x81)) ∧
     (s.sec.pldm ≠ 2 ∨ s.sec.applied = false → exec (.activateFirmware who) s = .next (s.pldmSend who 0x1A 0x84)) ∧
     exec (.getStatus who) s = .next (s.pldmSend who 0x1B s.sec.pldm) ∧
     (s.sec.pldm ≠ 0 → s.sec.pldm ≠ 6 → ∃ u, exec (.cancelUpdate who) s = .next u ∧ u.sec.pldm = 0 ∧ u.sec.pldmData = [] ∧
       u.sec.flash = s.sec.flash ∧ u.sent = .management 0x11D [who.toNat, 0] :: s.sent ∧ u.mmio = s.mmio ∧ Quiet s u) ∧
     (s.sec.pldm = 0 ∨ s.sec.pldm = 6 → exec (.cancelUpdate who) s = .next (s.pldmSend who 0x1D 0x80)))

/-- R270, R374, R473, R478: a write where no register lies does nothing; the SEC_ block takes writes of the Cox alone; RAS_RMASK
those of the Cox and of its die's tiles; a tile's stores and loads to a block take effect in order, and a load's value retires it. -/
def Obligations.ControlAccesses : Prop :=
  ∀ (s : State),
    (∀ (m : Master) (a : BitVec 52) (v : Word), m ≠ .host → descOf (a.toNat / 8 * 8) = none → notifyAlias (a.toNat / 8 * 8 - hubBase) = none →
      exec (.registerWrite m a v) s = .next s) ∧
    (∀ (a : BitVec 52) (v : Word), hubBase + 0x700000 ≤ a.toNat → a.toNat < hubBase + 0x800000 →
      ∀ t, exec (.registerWrite (.tile t) a v) s = .next s) ∧
    (∀ (a : BitVec 52) (v : Word), s.hostOpen = false → exec (.registerWrite .host a v) s = .next s) ∧
    (∀ (a : BitVec 52) (v : Word), s.hostOpen = true → bar0Base ≤ a.toNat → a.toNat < bar0Base + 0x4000000 →
      exec (.registerWrite .host a v) s = exec (.hostWrite 0 (BitVec.ofNat 42 ((a.toNat - bar0Base) / 8 * 8)) 8 (v.setWidth 4096) false) s) ∧
    (∀ (k : Nat) (a : BitVec 52) (v : Word) (m : Master), k < 8 → a.toNat = RAS_RMASK k →
      ((m = .cox ∨ ∃ t, m = .tile t ∧ t / 32 = k) → v.toNat < 2 ^ 32 → ∃ u, exec (.registerWrite m a v) s = .next u ∧
        u.fld (RAS_RMASK k) RAS_RMASK_TILES = v.toNat ∧ (∀ b, b ≠ RAS_RMASK k → u.rd b = s.rd b) ∧ Quiet s u) ∧
      ((m = .cox ∨ ∃ t, m = .tile t ∧ t / 32 = k) → 2 ^ 32 ≤ v.toNat →
        exec (.registerWrite m a v) s = .next (s.setf (RAS_STATUS k) RAS_STATUS_VER_ERR 1)) ∧
      (∀ t, t / 32 ≠ k → exec (.registerWrite (.tile t) a v) s = .next (s.setf (RAS_STATUS k) RAS_STATUS_PERM_ERR 1))) ∧
    (∀ (t : BitVec 8) (a : BitVec 48) (o : OutStore),
      s.store.outStores.find? (fun o => o.ctl && o.tile == t.toNat && ctlWith t.toNat o.addr a.toNat) = some o →
      s.holds (t.toNat / 32) (dieOf o.addr) = false →
      let s1 : State := { s with store := { s.store with outStores := s.store.outStores.erase o } }
      (ctlBlock o.addr ≠ ctlBlock a.toNat → exec (.cwr t a) s = .next s) ∧
      (o.addr < 2 ^ 48 → o.width = 8 → ctlBlock o.addr = ctlBlock a.toNat → s.reach (t.toNat / 32) (dieOf o.addr) = true →
        exec (.cwr t a) s = exec (.registerWrite (.tile t.toNat) (BitVec.ofNat 52 o.addr) (BitVec.ofNat 64 o.value)) s1) ∧
      (ctlBlock o.addr = ctlBlock a.toNat → s.reach (t.toNat / 32) (dieOf o.addr) = false → exec (.cwr t a) s = .next (s1.rasEvent (t.toNat / 32) 0x14 3 t.toNat 0 o.addr))) ∧
    (∀ (t : BitVec 8) (q : CtlRead), s.links.ctlReads.find? (fun q => q.tile == t.toNat && q.reply.isNone) = some q → s.holds (t.toNat / 32) (dieOf q.addr) = false →
      let earlier := s.store.outStores.any fun o => o.ctl && o.tile == t.toNat && ctlWith t.toNat o.addr q.addr
      let rest := s.links.ctlReads.erase q
      let a := q.addr / 8 * 8
      (earlier = true → exec (.crd t) s = .next s) ∧
      (earlier = false → s.reach (t.toNat / 32) (dieOf q.addr) = true →
        let replied (v : Word) : Prop := exec (.crd t) s = .next { s with links := { s.links with
          ctlReads := rest ++ [⟨t.toNat, q.addr, q.width, some (v.toNat / 256 ^ (q.addr % 8) % 256 ^ q.width)⟩] } }
        (descOf a = none → replied 0) ∧
        (hubBase ≤ a → a < hubBase + 0x700000 → (descOf a).isSome = true → replied (s.rd a)) ∧
        (hubBase + 0x700000 ≤ a → a < hubBase + 0x800000 → replied 0) ∧
        (dieBase 0 ≤ a → a < hubBase → (descOf a).isSome = true → (a - dieBase 0) % 0x02000000 < 0x200000 →
          32 * ((a - dieBase 0) / 0x02000000) + (a - dieBase 0) % 0x02000000 / 0x10000 ≠ t.toNat → replied 0)) ∧
      (earlier = false → s.reach (t.toNat / 32) (dieOf q.addr) = false → s.stilled t.toNat = false →
        exec (.crd t) s = .next ((({ s with links := { s.links with ctlReads := rest } } : State).setTile t.toNat
          { s.tile t.toNat with mode := .running }).exc t.toNat exMemUncorr 0 (BitVec.ofNat 64 q.addr)))) ∧
    (∀ (t : BitVec 8) (q : CtlRead) (rd w v : Nat) (signed : Bool),
      s.links.ctlReads.find? (fun q => q.tile == t.toNat && q.reply.isSome) = some q → q.reply = some v → s.stilled t.toNat = false → s.holds (dieOf q.addr) (t.toNat / 32) = false →
      (s.tile t.toNat).mode = .ctlLoad rd false w signed → InSequence s t.toNat → rd < 32 → w ≤ 8 →
      ∃ u, exec (.crsp t) s = .next u ∧ u.links.ctlReads = s.links.ctlReads.erase q ∧ (u.tile t.toNat).mode = .running ∧
        (∀ r, r ≠ 0 → r < 32 → (u.tile t.toNat).rs r = if r = rd then extend w signed v else (s.tile t.toNat).rs r) ∧
        (u.tile t.toNat).pc = (s.tile t.toNat).pc + 4 ∧ u.mem = s.mem ∧ u.mmio = s.mmio ∧ ∀ k, k ≠ t.toNat → u.tile k = s.tile k)

/-- R377, R380 to R382, R374: popping a record moves it to the error log, merged or with the next SEQ; an armed injection needs
level 2; a lost page is removed; the flash takes the first record that it lacks. -/
def Obligations.ErrorQueueAndLog : Prop :=
  ∀ (s : State) (k : BitVec 4), k.toNat ≤ 8 →
    let n := k.toNat
    (∀ (m : Master) (v : Word), m ≠ .cox →
      exec (.rasQPop m k v) s = .next (s.setf (RAS_STATUS n) RAS_STATUS_PERM_ERR 1) ∧
      exec (.rasInject m k v) s = .next (s.setf (RAS_STATUS n) RAS_STATUS_PERM_ERR 1)) ∧
    (∀ v : Word, 1 < v.toNat → exec (.rasQPop .cox k v) s = .next (s.setf (RAS_STATUS n) RAS_STATUS_VER_ERR 1)) ∧
    exec (.rasQPop .cox k 0) s = .next s ∧ (s.rasQueue n = [] → exec (.rasQPop .cox k 1) s = .next s) ∧
    (∀ r q, s.rasQueue n = r :: q → r.tick < 2 ^ 32 → ∃ u, exec (.rasQPop .cox k 1) s = .next u ∧ u.rasQueue n = q ∧
      (q.length < 64 → u.fld (RAS_STATUS n) RAS_STATUS_QCOUNT = q.length) ∧ Quiet s u ∧
      ((∀ p ∈ s.ras.log, p.2.source ≠ r.source ∨ p.2.die ≠ r.die ∨ p.2.unit ≠ r.unit ∨ p.2.addr ≠ r.addr) → s.ras.log.length < 4096 →
        u.ras.log = s.ras.log ++ [(s.ras.nextSeq, r)] ∧ u.ras.nextSeq = s.ras.nextSeq + 1 ∧
        (r.sev = 4 ∨ r.sev = 5 → s.ras.flashLog.length < 256 → u.ras.flashLog = s.ras.flashLog ++ [(s.ras.nextSeq, r)]) ∧
        (r.sev < 4 → u.ras.flashLog = s.ras.flashLog)) ∧
      (∀ l p, s.ras.log = l ++ [p] → p.2.source = r.source → p.2.die = r.die → p.2.unit = r.unit → p.2.addr = r.addr →
        p.2.tick ≤ r.tick → r.tick ≤ p.2.tick + 1 → (∀ x ∈ l, x.1 ≠ p.1) →
        u.ras.log = l ++ [(p.1, { p.2 with count := min (p.2.count + r.count) (2 ^ 32 - 1) })] ∧ u.ras.nextSeq = s.ras.nextSeq)) ∧
    (∀ v : Word, (s.fld SEC_DEBUG SEC_DEBUG_LEVEL < 2 → rsvBad (RAS_INJECT n) v = false →
        exec (.rasInject .cox k v) s = .next (s.setf (RAS_STATUS n) RAS_STATUS_PERM_ERR 1)) ∧
      (2 ≤ s.fld SEC_DEBUG SEC_DEBUG_LEVEL → v.toNat / 2 ^ 56 % 128 = 0 → v.toNat / 2 ^ 48 % 256 ∈ [0x01, 0x02, 0x06, 0x09, 0x0A, 0x0B, 0x0C] →
        ∃ u, exec (.rasInject .cox k v) s = .next u ∧ u.bit (RAS_INJECT n) RAS_INJECT_ARM = v.getLsbD 63 ∧
          u.fld (RAS_INJECT n) RAS_INJECT_SOURCE = v.toNat / 2 ^ 48 % 256 ∧ u.fld (RAS_INJECT n) RAS_INJECT_ADDR = v.toNat % 2 ^ 48 ∧
          (∀ b, b ≠ RAS_INJECT n → u.rd b = s.rd b) ∧ Quiet s u) ∧
      (2 ≤ s.fld SEC_DEBUG SEC_DEBUG_LEVEL → v.toNat / 2 ^ 48 % 256 ∉ [0x01, 0x02, 0x06, 0x09, 0x0A, 0x0B, 0x0C] →
        exec (.rasInject .cox k v) s = .next (s.setf (RAS_STATUS n) RAS_STATUS_VER_ERR 1))) ∧
    (∀ (d : BitVec 3) (e : BitVec 4),
      (s.bit (RAS_LOSTPG d.toNat e.toNat) RAS_LOSTPG_V = true → ∃ u, exec (.lostPageRemove .cox d e) s = .next u ∧
        u.rd (RAS_LOSTPG d.toNat e.toNat) = 0 ∧ u.bit (RAS_STATUS d.toNat) RAS_STATUS_FENCE = false ∧
        (∀ b, b ≠ RAS_LOSTPG d.toNat e.toNat → b ≠ RAS_STATUS d.toNat → b ≠ DEV_STATUS → u.rd b = s.rd b) ∧ Quiet s u) ∧
      (s.bit (RAS_LOSTPG d.toNat e.toNat) RAS_LOSTPG_V = false → ∃ u, exec (.lostPageRemove .cox d e) s = .next u ∧
        (∀ b, u.rd b = s.rd b) ∧ Quiet s u) ∧
      (∀ t, exec (.lostPageRemove (.tile t) d e) s = .next (s.setf (RAS_STATUS d.toNat) RAS_STATUS_PERM_ERR 1))) ∧
    ((∀ r ∈ s.flashWanted, r ∈ s.ras.flashRecs) → exec .rasFlashRecord s = .next s) ∧
    (∀ r, s.flashWanted.find? (fun r => !s.ras.flashRecs.contains r) = some r →
      ∃ u, exec .rasFlashRecord s = .next u ∧ r ∈ u.ras.flashRecs ∧ u = { s with ras := { s.ras with flashRecs := u.ras.flashRecs } } ∧
        ((∀ t c, r ≠ .tile t c) → u.ras.flashRecs = s.ras.flashRecs ++ [r]) ∧
        (∀ t c, r = .tile t c → ∀ c', c' ≠ c → .tile t c' ∉ u.ras.flashRecs))

/-- R383, R385, R386, R428, R429, R431, Table 18.1: power-on, a trip and module reset leave what Table 18.1 keeps, with RESET_CAUSE
and PWR_TRIP saying why; rails rise one by one. -/
def Obligations.PowerUpAndTrips : Prop :=
  ∀ (s : State),
    (∀ strap, (s.boot.qualified = true → exec (.inputQualified strap) s = .next s) ∧
      (s.boot.qualified = false → ∃ u, exec (.inputQualified strap) s = .next u ∧ WipedFrom s u ∧ u.rd RESET_CAUSE = 1 ∧
        u.fld DEV_STATUS DEV_STATUS_STAGE = 0 ∧ u.boot.qualified = true ∧ u.boot.rails = 0 ∧ u.boot.moduleId = strap.toNat ∧
        u.tap = Tap.init ∧ u.rd PWR_TRIP = s.rd PWR_TRIP)) ∧
    (s.boot.qualified = false ∨ 8 ≤ s.boot.rails → exec .railPowerGood s = .next s) ∧
    (s.boot.qualified = true → s.boot.rails < 8 → s.sec.latched = [] → s.cox.queue = [] → ∃ u, exec .railPowerGood s = .next u ∧
      u.boot.rails = s.boot.rails + 1 ∧ Quiet s u ∧
      (∀ n, n < 6 → s.fld DEV_STATUS DEV_STATUS_STAGE = n → s.boot.held = false → u.fld DEV_STATUS DEV_STATUS_STAGE =
        if s.boot.stageDone = true ∧ [3, 4, 7, 5, 6, 8].getD n 0 ≤ s.boot.rails + 1 then n + 1 else n)) ∧
    (∀ kind which : BitVec 8,
      (s.boot.qualified = false ∨ kind = 0 ∨ kind = 3 ∨ 6 < kind.toNat → exec (.trip kind which) s = .next s) ∧
      (s.boot.qualified = true → kind ≠ 0 → kind ≠ 3 → kind.toNat ≤ 6 → ∃ u, exec (.trip kind which) s = .next u ∧ WipedFrom s u ∧
        u.rd PWR_TRIP = BitVec.ofNat 64 (2 ^ 63 + kind.toNat * 2 ^ 48 + which.toNat * 2 ^ 40 + s.now.toNat % 2 ^ 32) ∧
        u.boot.tripped = true ∧ u.boot.qualified = false ∧ u.boot.rails = 0 ∧ u.tap = Tap.init)) ∧
    (s.boot.held = true → exec .moduleReset s = .next s) ∧
    (s.boot.held = false → s.boot.tripped = true → exec .moduleReset s = .next { s with boot := { s.boot with held := true } }) ∧
    (s.boot.held = false → s.boot.tripped = false → s.boot.qualified = true → ∃ u, exec .moduleReset s = .next u ∧ WipedFrom s u ∧
      u.rd RESET_CAUSE = 2 ∧ u.boot.held = true ∧ u.boot.rails = s.boot.rails ∧ u.fld DEV_STATUS DEV_STATUS_STAGE = 0 ∧
      u.rd PWR_TRIP = s.rd PWR_TRIP) ∧
    (∀ strap, (s.boot.held = false → exec (.moduleResetRelease strap) s = .next s) ∧
      (s.boot.held = true → s.boot.tripped = false → s.fld DEV_STATUS DEV_STATUS_STAGE = 0 → 3 ≤ s.boot.rails →
        ∃ u, exec (.moduleResetRelease strap) s = .next u ∧ u.boot.held = false ∧ u.boot.moduleId = strap.toNat ∧
          u.fld DEV_STATUS DEV_STATUS_STAGE = 1 ∧ u.rd DBG_DIETEST = 0 ∧ u.tap.testing = false ∧ u.tap.pins = 0 ∧ Quiet s u) ∧
      (s.boot.held = true → s.boot.tripped = true → ∃ u, exec (.moduleResetRelease strap) s = .next u ∧ WipedFrom s u ∧
        u.rd RESET_CAUSE = 1 ∧ u.boot.qualified = true ∧ u.boot.tripped = false ∧ u.rd PWR_TRIP = s.rd PWR_TRIP))

/-- R416, R222, R263, R386, R424, R433, R435, R437, R439, R441, R471, R475, Tables 18.2 and 18.4: what each boot stage does, and
where boot goes then. -/
def Obligations.BootStages : Prop :=
  ∀ (s : State),
    (BootsStage s 1 → let c := s.verifyImage s.sec.flash false
      ∃ u, exec .bootRom s = .next u ∧ u.sec.flash = s.sec.flash ∧ u.fld SEC_STATUS SEC_STATUS_BOOT_CAUSE = c ∧ Quiet s u ∧
        if c = 0 then u.sec.running = cut s.sec.flash 0 4096 ∧ u.fld SEC_STATUS SEC_STATUS_BOOT_SLOT = imgSlot s.sec.flash ∧
          u.fld FW_IFACE_VER FW_IFACE_VER_MAJOR = imgMajor s.sec.flash ∧ StageEnded s u 1 4
        else u.fld DEV_STATUS DEV_STATUS_STAGE = 0xE ∧ u.sec.running = s.sec.running) ∧
    (BootsStage s 2 → s.ras.flashRecs = [] → s.sec.latched = [] → s.cox.queue = [] →
      (s.bit PWR_TRIP PWR_TRIP_V = false → ∃ u, exec .coxInit s = .next u ∧ u.ras.log = s.ras.log ∧ StageEnded s u 2 7 ∧ Quiet s u) ∧
      (s.bit PWR_TRIP PWR_TRIP_V = true → s.ras.log = [] → ∃ u r, exec .coxInit s = .next u ∧ u.ras.log = [(s.ras.nextSeq, r)] ∧
        r.source = 0 ∧ r.sev = 5 ∧ r.die = 8 ∧ r.unit = s.fld PWR_TRIP PWR_TRIP_WHICH ∧ r.detail = s.fld PWR_TRIP PWR_TRIP_KIND ∧
        r.stroke = s.fld PWR_TRIP PWR_TRIP_STROKE ∧ StageEnded s u 2 7 ∧ Quiet s u)) ∧
    (BootsStage s 2 → (s.boot.stageTick + 1000 ≤ s.stroke.ticks → ∃ u, exec .coxInitTimeout s = .next u ∧
        u.fld DEV_STATUS DEV_STATUS_STAGE = 0xE ∧ Quiet s u) ∧
      (s.stroke.ticks < s.boot.stageTick + 1000 → exec .coxInitTimeout s = .next s)) ∧
    (BootsStage s 3 → ∀ bad : List (List (Nat × Nat)), ∃ u, exec (.riggerTraining bad) s = .next u ∧ StageEnded s u 3 5 ∧ u.mem = s.mem ∧
      u.pending = s.pending ∧ ((∀ l ∈ bad, ∀ n ∈ l, n.1 + n.2 ≤ 4) → u.tiles = s.tiles ∧
        ∀ k p, isPort k p = true → s.bit (VKN_PCTRL k p) VKN_PCTRL_EN = true →
          u.portState k p = 2 ∧ u.fld (VKN_PSTATUS k p) VKN_PSTATUS_WIDTH = fullWidth k p)) ∧
    (BootsStage s 4 → ∀ lanes : List (List Nat), (∀ m, m < 64 → lanesRepair m (lanes.getD m []) = true) → ∃ u, exec (.memoryTraining lanes) s = .next u ∧
      StageEnded s u 4 6 ∧ Quiet s u ∧
      ∀ m, m < 64 → (s.memInfo m).retired = false → s.fld (HBM_STATE m) HBM_STATE_TSTATE ≠ 3 → s.reach 8 (memDie m) = true →
        u.fld (HBM_STATE m) HBM_STATE_TSTATE = 0 ∧ u.fld (HBM_STATE m) HBM_STATE_LANES = min 7 (lanes.getD m []).sum ∧ (u.memInfo m).trained = true ∧
        ((s.memInfo m).trained = false → u.bit (HBM_STATE m) HBM_STATE_SWEEP = true)) ∧
    (∀ h lanes, s.boot.dataReset = some (h, 2, 4) → ∃ u, exec (.memoryTraining lanes) s = .next u ∧ u.boot.dataReset = some (h, 2, 5) ∧
      ∀ a, a < 0x028000000000 → u.byte a = 0) ∧
    (BootsStage s 5 → s.ras.flashRecs = [] → ∃ u, exec .bootRestore s = .next u ∧ StageEnded s u 5 8 ∧ Quiet s u ∧
      ∀ d, d < 8 → s.reach 8 d = true → u.bit (LLS_STATUS d) LLS_STATUS_TAGS_VALID = true ∧ u.bit (LLS_CTRL d) LLS_CTRL_EN = true ∧
        ∀ q ∈ u.store.lines, q.1 / 1048576 ≠ d) ∧
    (BootsStage s 6 → ∃ u, exec .bootTiles s = .next u ∧ u.tiles = [] ∧ u.boot.stageDone = true ∧ u.pending = s.pending ∧
      (∀ a, 0x031000000000 ≤ a → a < 0x031080000000 → u.byte a = 0) ∧ (∀ a, a < 0x031000000000 → u.byte a = s.byte a) ∧
      (s.placement.setAside = [] → s.ras.flashRecs = [] → ∀ t, t < 256 → u.physOf t = s.physOf t) ∧
      let ok (d : Nat) : Prop := s.reach 8 d = true ∧ s.bit (LLS_STATUS d) LLS_STATUS_TAGS_VALID = true ∧ s.bit (LLS_CTRL d) LLS_CTRL_EN = true
      ((∀ d, d < 8 → ok d) → u.fld DEV_STATUS DEV_STATUS_STAGE = 7 ∧ u.bit DEV_STATUS DEV_STATUS_READY = true ∧
        u.bit HOST_INT_CAUSE HOST_INT_CAUSE_READY = true) ∧
      ((∃ d, d < 8 ∧ ¬ ok d) → u.fld DEV_STATUS DEV_STATUS_STAGE = 0xF ∧
        u.bit DEV_STATUS DEV_STATUS_READY = s.bit DEV_STATUS DEV_STATUS_READY)) ∧
    (∀ n, 1 ≤ n → n ≤ 6 → s.fld DEV_STATUS DEV_STATUS_STAGE ≠ n → s.boot.dataReset = none →
      exec (if n = 1 then .bootRom else if n = 2 then .coxInit else if n = 3 then .riggerTraining [] else if n = 4 then .memoryTraining []
        else if n = 5 then .bootRestore else .bootTiles) s = .next s)

/-- R450, R459 to R463: I3C gives one dynamic address; each TAP instruction is loaded with its effect where level and module reset
allow, else TAP_REJ is set and BYPASS is loaded; DBG_TOKEN carries nonces and tokens, DBG_ACCESS single accesses. R464, R469, R263,
R398, Table 16.5: the die test runs under module reset, for the Cox or the TAP at level 2, and shows what failed; a lane of low
margin is marked for its spare or reported. -/
def Obligations.TapAndDieTest : Prop :=
  (∀ (s : State),
     (∀ addr dyn : BitVec 7, exec (.setdasa addr dyn) s = .next
       (if 3 ≤ s.boot.rails ∧ addr.toNat = 0x30 + s.boot.moduleId ∧ s.boot.i3c = none then { s with boot := { s.boot with i3c := some dyn.toNat } } else s)) ∧
     (∀ dyn : BitVec 7, exec (.entdaa dyn) s = .next
       (if 3 ≤ s.boot.rails ∧ s.boot.i3c = none then { s with boot := { s.boot with i3c := some dyn.toNat } } else s)) ∧
     (s.boot.rails < 3 → ∀ i ∈ [Instr.tapReset, .idcode, .bypass, .clamp, .highz, .extest 0, .extestPulse 0, .extestTrain 0, .samplePreload 0 0,
       .dbgToken none, .dbgAccess 0, .dietest 0], exec i s = .next s) ∧
     (3 ≤ s.boot.rails →
       let tap (f : Tap → Tap) : State := { s with tap := f { s.tap with pins := 0, capture := 0 } }
       let rejected : Outcome := .next { s.setf DBG_STATUS DBG_STATUS_TAP_REJ 1 with tap := { s.tap with ir := 0xFF, pins := 0, capture := 0 } }
       exec .tapReset s = .next (tap fun t => { t with ir := 1 }) ∧
       exec .idcode s = .next (tap fun t => { t with ir := 1, capture := 0x102087AB }) ∧
       exec .bypass s = .next (tap fun t => { t with ir := 0xFF }) ∧
       (∀ pins v, exec (.samplePreload pins v) s = .next (tap fun t => { t with ir := 2, capture := pins, boundary := v })) ∧
       (s.boot.held = true → ∀ v, exec (.extest v) s = .next (tap fun t => { t with ir := 0, pins := 1, boundary := v }) ∧
         exec (.extestPulse v) s = .next (tap fun t => { t with ir := 3, pins := 4, boundary := v }) ∧
         exec (.extestTrain v) s = .next (tap fun t => { t with ir := 4, pins := 4, boundary := v }) ∧
         exec .clamp s = .next (tap fun t => { t with ir := 5, pins := 2 }) ∧ exec .highz s = .next (tap fun t => { t with ir := 6, pins := 3 })) ∧
       (s.boot.held = false → ∀ v w, exec (.extest v) s = rejected ∧ exec (.extestPulse v) s = rejected ∧ exec (.extestTrain v) s = rejected ∧
         exec .clamp s = rejected ∧ exec .highz s = rejected ∧ exec (.dietest w) s = rejected) ∧
       (∃ u nonce, exec (.dbgToken none) s = .next u ∧ u.sec.nonce = some (nonce, s.stroke.ticks) ∧ nonce.length = 32 ∧ u.tap.ir = 0x10 ∧
         u.tap.capture % 2 ^ 256 = leBytes nonce ∧ u.bit SEC_DEBUG SEC_DEBUG_NONCE_V = true ∧ Quiet s u) ∧
       (∀ b, s.tap.ir ≠ 0x10 → exec (.dbgToken (some b)) s = .next s) ∧
       (∀ b, s.tap.ir = 0x10 → imgField b 0 63 60 = 0 → imgField b 0 55 0 = 0 → allZero b 0x30 0x10 = true → allZero b 0x741 0xBF = true →
         s.sec.nonce = none ∨ dword b 8 ≠ s.fuses.serial → ∃ u, exec (.dbgToken (some b)) s = .next u ∧ u.tap.token = 6 ∧ u.sec.nonce = none ∧
           u.fld SEC_DEBUG SEC_DEBUG_LEVEL = s.fld SEC_DEBUG SEC_DEBUG_LEVEL ∧ Quiet s u) ∧
       (∀ v : BitVec 128, let a := v.toNat / 2 ^ 64 % 2 ^ 48
         let level := s.fld SEC_DEBUG SEC_DEBUG_LEVEL
         let answered (code : Nat) (data : Word) : Prop := exec (.dbgAccess v) s = .next (tap fun t =>
           { t with ir := 0x11, result := code, data := data, capture := code * 2 ^ 120 + data.toNat })
         let inOrder : Prop := v.getLsbD 126 = true ∧ v.toNat / 2 ^ 112 % 2 ^ 13 = 0
         (level = 0 → exec (.dbgAccess v) s = rejected) ∧
         (1 ≤ level → v.getLsbD 126 = false ∨ v.toNat / 2 ^ 112 % 2 ^ 13 ≠ 0 → answered 4 0) ∧
         (level = 1 → inOrder → v.getLsbD 127 = true → a < DBG_TRC_CTRL 0 ∨ DBG_TRC_CTRL 8 ≤ a → answered 2 0) ∧
         (2 ≤ level → inOrder → a < dieBase 0 ∨ hubBase + 0x1000000 ≤ a ∨ (hubBase + 0x700000 ≤ a ∧ a < hubBase + 0x800000) ∨ a % 4 ≠ 0 →
           answered 3 0) ∧
         (1 ≤ level → inOrder → v.getLsbD 127 = false → v.getLsbD 125 = true → hubBase ≤ a → a < hubBase + 0x100000 → a % 8 = 0 →
           (descOf a).isSome = true → answered 0 (s.rd a)) ∧
         (2 ≤ level → inOrder → v.getLsbD 127 = true → v.getLsbD 125 = true → hubBase ≤ a → a < hubBase + 0x100000 → a % 8 = 0 →
           ∃ w, exec (.registerWrite .cox (BitVec.ofNat 52 a) (BitVec.ofNat 64 v.toNat)) (tap fun t => { t with ir := 0x11 }) = .next w ∧
             exec (.dbgAccess v) s = .next { w with tap := { w.tap with result := 0, data := 0, capture := 0 } })))) ∧
  (∀ (s : State),
     (∀ (m : Master) (v : Word), m ≠ .cox → exec (.dietestStart m v) s = .next (s.setf DBG_STATUS DBG_STATUS_PERM_ERR 1)) ∧
     (∀ v : Word, v &&& 0x3F000000FFFFFFFF ≠ 0 → exec (.dietestStart .cox v) s = .next (s.setf DBG_STATUS DBG_STATUS_VER_ERR 1)) ∧
     (∀ v : Word, v &&& 0x3F000000FFFFFFFF = 0 → ∃ u, exec (.dietestStart .cox v) s = .next u ∧
       u.fld DBG_DIETEST DBG_DIETEST_DIES = v.toNat / 2 ^ 48 % 256 ∧ (∀ b, b ≠ DBG_DIETEST → u.rd b = s.rd b) ∧ Quiet s u ∧
       (s.boot.held = false → u.tap = s.tap) ∧
       (s.boot.held = true → u.tap = { s.tap with testing := true } ∧ u.bit DBG_DIETEST DBG_DIETEST_DONE = false ∧
         u.fld DBG_DIETEST DBG_DIETEST_MEMFAIL = 0 ∧ u.fld DBG_DIETEST DBG_DIETEST_LANEFAIL = 0)) ∧
     (∀ v : Word, 3 ≤ s.boot.rails → s.boot.held = true → 2 ≤ s.fld SEC_DEBUG SEC_DEBUG_LEVEL → v &&& 0x3F000000FFFFFFFF = 0 →
       ∃ u, exec (.dietest v) s = .next u ∧ u.fld DBG_DIETEST DBG_DIETEST_DIES = v.toNat / 2 ^ 48 % 256 ∧ u.tap.ir = 0x20 ∧
         u.tap.capture = (s.rd DBG_DIETEST).toNat ∧ u.tap.testing = (v.getLsbD 63 || s.tap.testing) ∧ Quiet s u) ∧
     (∀ mem lane : BitVec 8, (s.tap.testing = false ∨ s.boot.held = false → exec (.dietestDone mem lane) s = .next s) ∧
       (s.tap.testing = true → s.boot.held = true → ∃ u, exec (.dietestDone mem lane) s = .next u ∧
         u.fld DBG_DIETEST DBG_DIETEST_MEMFAIL = Nat.land mem.toNat (s.fld DBG_DIETEST DBG_DIETEST_DIES) ∧
         u.fld DBG_DIETEST DBG_DIETEST_LANEFAIL = Nat.land lane.toNat (s.fld DBG_DIETEST DBG_DIETEST_DIES) ∧
         u.bit DBG_DIETEST DBG_DIETEST_DONE = true ∧ u.tap = { s.tap with testing := false } ∧ (∀ b, b ≠ DBG_DIETEST → u.rd b = s.rd b) ∧
         Quiet s u)) ∧
     (∀ (k : BitVec 4) (p : BitVec 3) (m : BitVec 4),
       (isPort k.toNat p.toNat = true → m.toNat < fullWidth k.toNat p.toNat → ∃ u, exec (.laneMarginLow 0 k p m) s = .next u ∧
         (u.port k.toNat p.toNat).weak = (s.port k.toNat p.toNat).weak ++ [m.toNat] ∧ u.mmio = s.mmio ∧ Quiet s u) ∧
       (isPort k.toNat p.toNat = false ∨ fullWidth k.toNat p.toNat ≤ m.toNat → exec (.laneMarginLow 0 k p m) s = .next s) ∧
       (∀ what : BitVec 2, what = 1 ∨ what = 2 → ∃ u l, exec (.laneMarginLow what k p m) s = .next u ∧ u.cox.log.getLast? = some l ∧ l.kind = 7 ∧
         l.arg = (if what = 1 then p.toNat else 8 + p.toNat) ∧ u.cox.logSeq = s.cox.logSeq + 1 ∧ u.mmio = s.mmio ∧ Quiet s u) ∧
       (∃ u, exec (.laneMarginLow 3 k p m) s = .next u ∧ u.host.aerc = Nat.lor s.host.aerc 1 ∧
         u.fld (RAS_CNT 8 0x21) RAS_CNT_COUNT = min (s.fld (RAS_CNT 8 0x21) RAS_CNT_COUNT + 1) (2 ^ 32 - 1) ∧ Quiet s u)))
end

