-- ==== Sys2Proof/Laws/SMap.lean ====
section
/-!
SUPPORT. Sparse tables: reading after writing, and the canonical form that every update keeps.
-/
namespace Sys2Proof.Machine

variable {β : Type} {d : Nat → β} {m : SMap β} {j k lo : Nat} {v : β}

theorem SMap.get_filter_ne (h : j ≠ k) : SMap.get d (m.filter fun c => c.1 != k) j = SMap.get d m j := by
  induction m with
  | nil => rfl
  | cons c r ih =>
    obtain ⟨i, w⟩ := c
    by_cases hi : i = k
    · subst hi; simp [SMap.get, ih, Ne.symm h]
    · simp [SMap.get, hi, ih]

theorem SMap.get_filter_self : SMap.get d (m.filter fun c => c.1 != k) k = d k := by
  induction m with
  | nil => rfl
  | cons c r ih =>
    obtain ⟨i, w⟩ := c
    by_cases hi : i = k
    · subst hi; simpa using ih
    · simp [SMap.get, hi, ih]

/-- Restricting to the same keys does not change what a kept key reads. -/
theorem SMap.get_filter {f : Nat → Bool} (h : f j = true) :
    SMap.get d (m.filter fun c => f c.1) j = SMap.get d m j := by
  induction m with
  | nil => rfl
  | cons c r ih =>
    obtain ⟨i, w⟩ := c
    by_cases hi : f i = true
    · simp [SMap.get, hi, ih]
    · have : i ≠ j := fun e => hi (e ▸ h)
      simp [SMap.get, hi, this, ih]

theorem SMap.get_filter_out {f : Nat → Bool} (h : f j = false) :
    SMap.get d (m.filter fun c => f c.1) j = d j := by
  induction m with
  | nil => rfl
  | cons c r ih =>
    obtain ⟨i, w⟩ := c
    by_cases hi : f i = true
    · have : i ≠ j := fun e => by rw [e, h] at hi; cases hi
      simp [SMap.get, hi, this, ih]
    · simp [hi, ih]

variable [DecidableEq β]

/-- A key reads what was written at it. -/
@[simp] theorem SMap.get_set_same : SMap.get d (SMap.set d m k v) k = v := by
  induction m with
  | nil => by_cases h : v = d k <;> simp [SMap.set, SMap.get, h]
  | cons c r ih =>
    obtain ⟨i, w⟩ := c
    by_cases h1 : i < k
    · simp [SMap.set, SMap.get, h1, ih, Nat.ne_of_lt h1]
    · by_cases h2 : v = d k
      · simp only [SMap.set, h1, if_false, h2, if_true]; exact SMap.get_filter_self
      · by_cases h3 : i = k <;> simp [SMap.set, SMap.get, h1, h2, h3]

/-- A write leaves every other key alone. -/
theorem SMap.get_set_ne (h : j ≠ k) : SMap.get d (SMap.set d m k v) j = SMap.get d m j := by
  induction m with
  | nil => by_cases h2 : v = d k <;> simp [SMap.set, SMap.get, h2, Ne.symm h]
  | cons c r ih =>
    obtain ⟨i, w⟩ := c
    by_cases h1 : i < k
    · simp [SMap.set, SMap.get, h1, ih]
    · by_cases h2 : v = d k
      · simp only [SMap.set, h1, if_false, h2, if_true]; exact SMap.get_filter_ne h
      · by_cases h3 : i = k
        · subst h3; simp [SMap.set, SMap.get, h2, Ne.symm h]
        · simp [SMap.set, SMap.get, h1, h2, h3, Ne.symm h]

theorem SMap.get_set : SMap.get d (SMap.set d m k v) j = if j = k then v else SMap.get d m j := by
  by_cases h : j = k
  · subst h; simp
  · simp [h, SMap.get_set_ne h]

/-- A table all of whose keys lie above lo, restricted. -/
theorem SMap.wfFrom_filter (f : Nat × β → Bool) :
    ∀ {m : SMap β} {lo : Option Nat}, SMap.wfFrom d lo m = true → SMap.wfFrom d lo (m.filter f) = true
  | [], _, _ => rfl
  | (i, w) :: r, lo, h => by
    simp only [SMap.wfFrom, Bool.and_eq_true] at h
    have ih := SMap.wfFrom_filter f h.2
    by_cases hf : f (i, w) = true
    · simp only [List.filter_cons, hf, if_true, SMap.wfFrom, Bool.and_eq_true]; exact ⟨h.1, ih⟩
    · simp only [List.filter_cons, hf]
      refine SMap.wfFrom_weaken ?_ ih
      cases lo with
      | none => trivial
      | some l => simpa using h.1.1
where
  SMap.wfFrom_weaken : ∀ {r : SMap β} {lo : Option Nat} {i : Nat},
      (match lo with | none => True | some l => l < i) → SMap.wfFrom d (some i) r = true → SMap.wfFrom d lo r = true
    | [], _, _, _, _ => rfl
    | (a, b) :: r, lo, i, hl, h => by
      simp only [SMap.wfFrom, Bool.and_eq_true, decide_eq_true_eq] at h ⊢
      refine ⟨⟨?_, h.1.2⟩, h.2⟩
      cases lo with
      | none => rfl
      | some l => simp only [decide_eq_true_eq]; exact Nat.lt_trans hl h.1.1

/-- Removing entries keeps the canonical form. -/
theorem SMap.wf_filter (f : Nat × β → Bool) (h : SMap.wf d m = true) : SMap.wf d (m.filter f) = true :=
  SMap.wfFrom_filter f h

theorem SMap.wfFrom_set : ∀ {m : SMap β} {lo : Option Nat}, (match lo with | none => True | some l => l < k) →
    SMap.wfFrom d lo m = true → SMap.wfFrom d lo (SMap.set d m k v) = true
  | [], lo, hl, _ => by
    by_cases h : v = d k
    · simp [SMap.set, h, SMap.wfFrom]
    · cases lo <;> simp_all [SMap.set, SMap.wfFrom]
  | (i, w) :: r, lo, hl, h => by
    have h' := h
    simp only [SMap.wfFrom, Bool.and_eq_true, decide_eq_true_eq] at h
    by_cases h1 : i < k
    · simp only [SMap.set, h1, if_true, SMap.wfFrom, Bool.and_eq_true, decide_eq_true_eq]
      exact ⟨h.1, SMap.wfFrom_set h1 h.2⟩
    · by_cases h2 : v = d k
      · simp only [SMap.set, h1, if_false, h2, if_true]; exact SMap.wfFrom_filter _ h'
      · by_cases h3 : i = k
        · subst h3
          simp only [SMap.set, h1, if_false, h2, if_true, SMap.wfFrom, Bool.and_eq_true, decide_eq_true_eq]
          exact ⟨⟨h.1.1, h2⟩, h.2⟩
        · have h4 : k < i := by omega
          simp only [SMap.set, h1, if_false, h2, h3, SMap.wfFrom, Bool.and_eq_true, decide_eq_true_eq]
          refine ⟨⟨?_, h2⟩, ⟨⟨h4, h.1.2⟩, h.2⟩⟩
          cases lo with
          | none => rfl
          | some l => simpa using hl

/-- Every write keeps the canonical form. -/
theorem SMap.wf_set (h : SMap.wf d m = true) : SMap.wf d (SMap.set d m k v) = true :=
  SMap.wfFrom_set trivial h

end Sys2Proof.Machine
end

