-- ==== Sys2Proof/Laws/State.lean ====
section
/-!
SUPPORT. One lemma per field per update of the state and of a tile, and what the registers, the tiles and the bytes of memory
read after a write.
-/
namespace Sys2Proof.Machine

@[simp] theorem State.wr_pending (s : State) (a : Nat) (v : Word) : (s.wr a v).pending = s.pending := rfl
@[simp] theorem State.wr_free (s : State) (a : Nat) (v : Word) : (s.wr a v).free = s.free := rfl
@[simp] theorem State.wr_mem (s : State) (a : Nat) (v : Word) : (s.wr a v).mem = s.mem := rfl
@[simp] theorem State.wr_drains (s : State) (a : Nat) (v : Word) : (s.wr a v).drains = s.drains := rfl
@[simp] theorem State.wr_coxIrq (s : State) (a : Nat) (v : Word) : (s.wr a v).coxIrq = s.coxIrq := rfl
@[simp] theorem State.wr_stroke (s : State) (a : Nat) (v : Word) : (s.wr a v).stroke = s.stroke := rfl
@[simp] theorem State.wr_tiles (s : State) (a : Nat) (v : Word) : (s.wr a v).tiles = s.tiles := rfl
@[simp] theorem State.wr_placement (s : State) (a : Nat) (v : Word) : (s.wr a v).placement = s.placement := rfl
@[simp] theorem State.wr_store (s : State) (a : Nat) (v : Word) : (s.wr a v).store = s.store := rfl
@[simp] theorem State.wr_links (s : State) (a : Nat) (v : Word) : (s.wr a v).links = s.links := rfl
@[simp] theorem State.wr_ras (s : State) (a : Nat) (v : Word) : (s.wr a v).ras = s.ras := rfl
@[simp] theorem State.wr_watch (s : State) (a : Nat) (v : Word) : (s.wr a v).watch = s.watch := rfl
@[simp] theorem State.wr_vekin (s : State) (a : Nat) (v : Word) : (s.wr a v).vekin = s.vekin := rfl
@[simp] theorem State.wr_cox (s : State) (a : Nat) (v : Word) : (s.wr a v).cox = s.cox := rfl
@[simp] theorem State.wr_host (s : State) (a : Nat) (v : Word) : (s.wr a v).host = s.host := rfl
@[simp] theorem State.wr_fabric (s : State) (a : Nat) (v : Word) : (s.wr a v).fabric = s.fabric := rfl
@[simp] theorem State.wr_mirror (s : State) (a : Nat) (v : Word) : (s.wr a v).mirror = s.mirror := rfl
@[simp] theorem State.wr_fuses (s : State) (a : Nat) (v : Word) : (s.wr a v).fuses = s.fuses := rfl
@[simp] theorem State.wr_sec (s : State) (a : Nat) (v : Word) : (s.wr a v).sec = s.sec := rfl
@[simp] theorem State.wr_boot (s : State) (a : Nat) (v : Word) : (s.wr a v).boot = s.boot := rfl
@[simp] theorem State.wr_power (s : State) (a : Nat) (v : Word) : (s.wr a v).power = s.power := rfl
@[simp] theorem State.wr_tap (s : State) (a : Nat) (v : Word) : (s.wr a v).tap = s.tap := rfl
@[simp] theorem State.wr_sent (s : State) (a : Nat) (v : Word) : (s.wr a v).sent = s.sent := rfl

@[simp] theorem State.setByte_pending (s : State) (a : Nat) (b : Byte) : (s.setByte a b).pending = s.pending := rfl
@[simp] theorem State.setByte_free (s : State) (a : Nat) (b : Byte) : (s.setByte a b).free = s.free := rfl
@[simp] theorem State.setByte_mmio (s : State) (a : Nat) (b : Byte) : (s.setByte a b).mmio = s.mmio := rfl
@[simp] theorem State.setByte_drains (s : State) (a : Nat) (b : Byte) : (s.setByte a b).drains = s.drains := rfl
@[simp] theorem State.setByte_coxIrq (s : State) (a : Nat) (b : Byte) : (s.setByte a b).coxIrq = s.coxIrq := rfl
@[simp] theorem State.setByte_stroke (s : State) (a : Nat) (b : Byte) : (s.setByte a b).stroke = s.stroke := rfl
@[simp] theorem State.setByte_tiles (s : State) (a : Nat) (b : Byte) : (s.setByte a b).tiles = s.tiles := rfl
@[simp] theorem State.setByte_placement (s : State) (a : Nat) (b : Byte) : (s.setByte a b).placement = s.placement := rfl
@[simp] theorem State.setByte_store (s : State) (a : Nat) (b : Byte) : (s.setByte a b).store = s.store := rfl
@[simp] theorem State.setByte_links (s : State) (a : Nat) (b : Byte) : (s.setByte a b).links = s.links := rfl
@[simp] theorem State.setByte_ras (s : State) (a : Nat) (b : Byte) : (s.setByte a b).ras = s.ras := rfl
@[simp] theorem State.setByte_watch (s : State) (a : Nat) (b : Byte) : (s.setByte a b).watch = s.watch := rfl
@[simp] theorem State.setByte_vekin (s : State) (a : Nat) (b : Byte) : (s.setByte a b).vekin = s.vekin := rfl
@[simp] theorem State.setByte_cox (s : State) (a : Nat) (b : Byte) : (s.setByte a b).cox = s.cox := rfl
@[simp] theorem State.setByte_host (s : State) (a : Nat) (b : Byte) : (s.setByte a b).host = s.host := rfl
@[simp] theorem State.setByte_fabric (s : State) (a : Nat) (b : Byte) : (s.setByte a b).fabric = s.fabric := rfl
@[simp] theorem State.setByte_mirror (s : State) (a : Nat) (b : Byte) : (s.setByte a b).mirror = s.mirror := rfl
@[simp] theorem State.setByte_fuses (s : State) (a : Nat) (b : Byte) : (s.setByte a b).fuses = s.fuses := rfl
@[simp] theorem State.setByte_sec (s : State) (a : Nat) (b : Byte) : (s.setByte a b).sec = s.sec := rfl
@[simp] theorem State.setByte_boot (s : State) (a : Nat) (b : Byte) : (s.setByte a b).boot = s.boot := rfl
@[simp] theorem State.setByte_power (s : State) (a : Nat) (b : Byte) : (s.setByte a b).power = s.power := rfl
@[simp] theorem State.setByte_tap (s : State) (a : Nat) (b : Byte) : (s.setByte a b).tap = s.tap := rfl
@[simp] theorem State.setByte_sent (s : State) (a : Nat) (b : Byte) : (s.setByte a b).sent = s.sent := rfl

@[simp] theorem State.setTile_pending (s : State) (t : Nat) (x : Tile) : (s.setTile t x).pending = s.pending := rfl
@[simp] theorem State.setTile_free (s : State) (t : Nat) (x : Tile) : (s.setTile t x).free = s.free := rfl
@[simp] theorem State.setTile_mmio (s : State) (t : Nat) (x : Tile) : (s.setTile t x).mmio = s.mmio := rfl
@[simp] theorem State.setTile_mem (s : State) (t : Nat) (x : Tile) : (s.setTile t x).mem = s.mem := rfl
@[simp] theorem State.setTile_drains (s : State) (t : Nat) (x : Tile) : (s.setTile t x).drains = s.drains := rfl
@[simp] theorem State.setTile_coxIrq (s : State) (t : Nat) (x : Tile) : (s.setTile t x).coxIrq = s.coxIrq := rfl
@[simp] theorem State.setTile_stroke (s : State) (t : Nat) (x : Tile) : (s.setTile t x).stroke = s.stroke := rfl
@[simp] theorem State.setTile_placement (s : State) (t : Nat) (x : Tile) : (s.setTile t x).placement = s.placement := rfl
@[simp] theorem State.setTile_store (s : State) (t : Nat) (x : Tile) : (s.setTile t x).store = s.store := rfl
@[simp] theorem State.setTile_links (s : State) (t : Nat) (x : Tile) : (s.setTile t x).links = s.links := rfl
@[simp] theorem State.setTile_ras (s : State) (t : Nat) (x : Tile) : (s.setTile t x).ras = s.ras := rfl
@[simp] theorem State.setTile_watch (s : State) (t : Nat) (x : Tile) : (s.setTile t x).watch = s.watch := rfl
@[simp] theorem State.setTile_vekin (s : State) (t : Nat) (x : Tile) : (s.setTile t x).vekin = s.vekin := rfl
@[simp] theorem State.setTile_cox (s : State) (t : Nat) (x : Tile) : (s.setTile t x).cox = s.cox := rfl
@[simp] theorem State.setTile_host (s : State) (t : Nat) (x : Tile) : (s.setTile t x).host = s.host := rfl
@[simp] theorem State.setTile_fabric (s : State) (t : Nat) (x : Tile) : (s.setTile t x).fabric = s.fabric := rfl
@[simp] theorem State.setTile_mirror (s : State) (t : Nat) (x : Tile) : (s.setTile t x).mirror = s.mirror := rfl
@[simp] theorem State.setTile_fuses (s : State) (t : Nat) (x : Tile) : (s.setTile t x).fuses = s.fuses := rfl
@[simp] theorem State.setTile_sec (s : State) (t : Nat) (x : Tile) : (s.setTile t x).sec = s.sec := rfl
@[simp] theorem State.setTile_boot (s : State) (t : Nat) (x : Tile) : (s.setTile t x).boot = s.boot := rfl
@[simp] theorem State.setTile_power (s : State) (t : Nat) (x : Tile) : (s.setTile t x).power = s.power := rfl
@[simp] theorem State.setTile_tap (s : State) (t : Nat) (x : Tile) : (s.setTile t x).tap = s.tap := rfl
@[simp] theorem State.setTile_sent (s : State) (t : Nat) (x : Tile) : (s.setTile t x).sent = s.sent := rfl

@[simp] theorem Tile.setC_mode (x : Tile) (n : Nat) (v : Word) : (x.setC n v).mode = x.mode := rfl
@[simp] theorem Tile.setC_pc (x : Tile) (n : Nat) (v : Word) : (x.setC n v).pc = x.pc := rfl
@[simp] theorem Tile.setC_pcHigh (x : Tile) (n : Nat) (v : Word) : (x.setC n v).pcHigh = x.pcHigh := rfl
@[simp] theorem Tile.setC_s (x : Tile) (n : Nat) (v : Word) : (x.setC n v).s = x.s := rfl
@[simp] theorem Tile.setC_f (x : Tile) (n : Nat) (v : Word) : (x.setC n v).f = x.f := rfl
@[simp] theorem Tile.setC_latched (x : Tile) (n : Nat) (v : Word) : (x.setC n v).latched = x.latched := rfl
@[simp] theorem Tile.setC_v (x : Tile) (n : Nat) (v : Word) : (x.setC n v).v = x.v := rfl
@[simp] theorem Tile.setC_p (x : Tile) (n : Nat) (v : Word) : (x.setC n v).p = x.p := rfl
@[simp] theorem Tile.setC_parBad (x : Tile) (n : Nat) (v : Word) : (x.setC n v).parBad = x.parBad := rfl
@[simp] theorem Tile.setC_trace (x : Tile) (n : Nat) (v : Word) : (x.setC n v).trace = x.trace := rfl
@[simp] theorem Tile.setC_traceStopped (x : Tile) (n : Nat) (v : Word) : (x.setC n v).traceStopped = x.traceStopped := rfl
@[simp] theorem Tile.setC_inbox (x : Tile) (n : Nat) (v : Word) : (x.setC n v).inbox = x.inbox := rfl
@[simp] theorem Tile.setC_outbox (x : Tile) (n : Nat) (v : Word) : (x.setC n v).outbox = x.outbox := rfl
@[simp] theorem Tile.setC_refused (x : Tile) (n : Nat) (v : Word) : (x.setC n v).refused = x.refused := rfl
@[simp] theorem Tile.setC_waits (x : Tile) (n : Nat) (v : Word) : (x.setC n v).waits = x.waits := rfl
@[simp] theorem Tile.setC_dmQueue (x : Tile) (n : Nat) (v : Word) : (x.setC n v).dmQueue = x.dmQueue := rfl
@[simp] theorem Tile.setC_dmSlots (x : Tile) (n : Nat) (v : Word) : (x.setC n v).dmSlots = x.dmSlots := rfl
@[simp] theorem Tile.setC_raised (x : Tile) (n : Nat) (v : Word) : (x.setC n v).raised = x.raised := rfl
@[simp] theorem Tile.setC_acc (x : Tile) (n : Nat) (v : Word) : (x.setC n v).acc = x.acc := rfl
@[simp] theorem Tile.setC_kUnit (x : Tile) (n : Nat) (v : Word) : (x.setC n v).kUnit = x.kUnit := rfl
@[simp] theorem Tile.setC_dUnit (x : Tile) (n : Nat) (v : Word) : (x.setC n v).dUnit = x.dUnit := rfl
@[simp] theorem Tile.setC_opSeq (x : Tile) (n : Nat) (v : Word) : (x.setC n v).opSeq = x.opSeq := rfl
@[simp] theorem Tile.setC_kPause (x : Tile) (n : Nat) (v : Word) : (x.setC n v).kPause = x.kPause := rfl
@[simp] theorem Tile.setC_kErr (x : Tile) (n : Nat) (v : Word) : (x.setC n v).kErr = x.kErr := rfl
@[simp] theorem Tile.setC_vecGated (x : Tile) (n : Nat) (v : Word) : (x.setC n v).vecGated = x.vecGated := rfl
@[simp] theorem Tile.setC_matGated (x : Tile) (n : Nat) (v : Word) : (x.setC n v).matGated = x.matGated := rfl

@[simp] theorem Tile.setF_mode (x : Tile) (r : Nat) (v : Word) : (x.setF r v).mode = x.mode := rfl
@[simp] theorem Tile.setF_pc (x : Tile) (r : Nat) (v : Word) : (x.setF r v).pc = x.pc := rfl
@[simp] theorem Tile.setF_pcHigh (x : Tile) (r : Nat) (v : Word) : (x.setF r v).pcHigh = x.pcHigh := rfl
@[simp] theorem Tile.setF_s (x : Tile) (r : Nat) (v : Word) : (x.setF r v).s = x.s := rfl
@[simp] theorem Tile.setF_csr (x : Tile) (r : Nat) (v : Word) : (x.setF r v).csr = x.csr := rfl
@[simp] theorem Tile.setF_latched (x : Tile) (r : Nat) (v : Word) : (x.setF r v).latched = x.latched := rfl
@[simp] theorem Tile.setF_v (x : Tile) (r : Nat) (v : Word) : (x.setF r v).v = x.v := rfl
@[simp] theorem Tile.setF_p (x : Tile) (r : Nat) (v : Word) : (x.setF r v).p = x.p := rfl
@[simp] theorem Tile.setF_parBad (x : Tile) (r : Nat) (v : Word) : (x.setF r v).parBad = x.parBad := rfl
@[simp] theorem Tile.setF_trace (x : Tile) (r : Nat) (v : Word) : (x.setF r v).trace = x.trace := rfl
@[simp] theorem Tile.setF_traceStopped (x : Tile) (r : Nat) (v : Word) : (x.setF r v).traceStopped = x.traceStopped := rfl
@[simp] theorem Tile.setF_inbox (x : Tile) (r : Nat) (v : Word) : (x.setF r v).inbox = x.inbox := rfl
@[simp] theorem Tile.setF_outbox (x : Tile) (r : Nat) (v : Word) : (x.setF r v).outbox = x.outbox := rfl
@[simp] theorem Tile.setF_refused (x : Tile) (r : Nat) (v : Word) : (x.setF r v).refused = x.refused := rfl
@[simp] theorem Tile.setF_waits (x : Tile) (r : Nat) (v : Word) : (x.setF r v).waits = x.waits := rfl
@[simp] theorem Tile.setF_dmQueue (x : Tile) (r : Nat) (v : Word) : (x.setF r v).dmQueue = x.dmQueue := rfl
@[simp] theorem Tile.setF_dmSlots (x : Tile) (r : Nat) (v : Word) : (x.setF r v).dmSlots = x.dmSlots := rfl
@[simp] theorem Tile.setF_raised (x : Tile) (r : Nat) (v : Word) : (x.setF r v).raised = x.raised := rfl
@[simp] theorem Tile.setF_acc (x : Tile) (r : Nat) (v : Word) : (x.setF r v).acc = x.acc := rfl
@[simp] theorem Tile.setF_kUnit (x : Tile) (r : Nat) (v : Word) : (x.setF r v).kUnit = x.kUnit := rfl
@[simp] theorem Tile.setF_dUnit (x : Tile) (r : Nat) (v : Word) : (x.setF r v).dUnit = x.dUnit := rfl
@[simp] theorem Tile.setF_opSeq (x : Tile) (r : Nat) (v : Word) : (x.setF r v).opSeq = x.opSeq := rfl
@[simp] theorem Tile.setF_kPause (x : Tile) (r : Nat) (v : Word) : (x.setF r v).kPause = x.kPause := rfl
@[simp] theorem Tile.setF_kErr (x : Tile) (r : Nat) (v : Word) : (x.setF r v).kErr = x.kErr := rfl
@[simp] theorem Tile.setF_vecGated (x : Tile) (r : Nat) (v : Word) : (x.setF r v).vecGated = x.vecGated := rfl
@[simp] theorem Tile.setF_matGated (x : Tile) (r : Nat) (v : Word) : (x.setF r v).matGated = x.matGated := rfl

@[simp] theorem Tile.setV_mode (x : Tile) (r : Nat) (v : BitVec 16384) : (x.setV r v).mode = x.mode := rfl
@[simp] theorem Tile.setV_pc (x : Tile) (r : Nat) (v : BitVec 16384) : (x.setV r v).pc = x.pc := rfl
@[simp] theorem Tile.setV_pcHigh (x : Tile) (r : Nat) (v : BitVec 16384) : (x.setV r v).pcHigh = x.pcHigh := rfl
@[simp] theorem Tile.setV_s (x : Tile) (r : Nat) (v : BitVec 16384) : (x.setV r v).s = x.s := rfl
@[simp] theorem Tile.setV_f (x : Tile) (r : Nat) (v : BitVec 16384) : (x.setV r v).f = x.f := rfl
@[simp] theorem Tile.setV_csr (x : Tile) (r : Nat) (v : BitVec 16384) : (x.setV r v).csr = x.csr := rfl
@[simp] theorem Tile.setV_latched (x : Tile) (r : Nat) (v : BitVec 16384) : (x.setV r v).latched = x.latched := rfl
@[simp] theorem Tile.setV_p (x : Tile) (r : Nat) (v : BitVec 16384) : (x.setV r v).p = x.p := rfl
@[simp] theorem Tile.setV_parBad (x : Tile) (r : Nat) (v : BitVec 16384) : (x.setV r v).parBad = x.parBad := rfl
@[simp] theorem Tile.setV_trace (x : Tile) (r : Nat) (v : BitVec 16384) : (x.setV r v).trace = x.trace := rfl
@[simp] theorem Tile.setV_traceStopped (x : Tile) (r : Nat) (v : BitVec 16384) : (x.setV r v).traceStopped = x.traceStopped := rfl
@[simp] theorem Tile.setV_inbox (x : Tile) (r : Nat) (v : BitVec 16384) : (x.setV r v).inbox = x.inbox := rfl
@[simp] theorem Tile.setV_outbox (x : Tile) (r : Nat) (v : BitVec 16384) : (x.setV r v).outbox = x.outbox := rfl
@[simp] theorem Tile.setV_refused (x : Tile) (r : Nat) (v : BitVec 16384) : (x.setV r v).refused = x.refused := rfl
@[simp] theorem Tile.setV_waits (x : Tile) (r : Nat) (v : BitVec 16384) : (x.setV r v).waits = x.waits := rfl
@[simp] theorem Tile.setV_dmQueue (x : Tile) (r : Nat) (v : BitVec 16384) : (x.setV r v).dmQueue = x.dmQueue := rfl
@[simp] theorem Tile.setV_dmSlots (x : Tile) (r : Nat) (v : BitVec 16384) : (x.setV r v).dmSlots = x.dmSlots := rfl
@[simp] theorem Tile.setV_raised (x : Tile) (r : Nat) (v : BitVec 16384) : (x.setV r v).raised = x.raised := rfl
@[simp] theorem Tile.setV_acc (x : Tile) (r : Nat) (v : BitVec 16384) : (x.setV r v).acc = x.acc := rfl
@[simp] theorem Tile.setV_kUnit (x : Tile) (r : Nat) (v : BitVec 16384) : (x.setV r v).kUnit = x.kUnit := rfl
@[simp] theorem Tile.setV_dUnit (x : Tile) (r : Nat) (v : BitVec 16384) : (x.setV r v).dUnit = x.dUnit := rfl
@[simp] theorem Tile.setV_opSeq (x : Tile) (r : Nat) (v : BitVec 16384) : (x.setV r v).opSeq = x.opSeq := rfl
@[simp] theorem Tile.setV_kPause (x : Tile) (r : Nat) (v : BitVec 16384) : (x.setV r v).kPause = x.kPause := rfl
@[simp] theorem Tile.setV_kErr (x : Tile) (r : Nat) (v : BitVec 16384) : (x.setV r v).kErr = x.kErr := rfl
@[simp] theorem Tile.setV_vecGated (x : Tile) (r : Nat) (v : BitVec 16384) : (x.setV r v).vecGated = x.vecGated := rfl
@[simp] theorem Tile.setV_matGated (x : Tile) (r : Nat) (v : BitVec 16384) : (x.setV r v).matGated = x.matGated := rfl

@[simp] theorem Tile.setP_mode (x : Tile) (r : Nat) (v : BitVec 16384) : (x.setP r v).mode = x.mode := rfl
@[simp] theorem Tile.setP_pc (x : Tile) (r : Nat) (v : BitVec 16384) : (x.setP r v).pc = x.pc := rfl
@[simp] theorem Tile.setP_pcHigh (x : Tile) (r : Nat) (v : BitVec 16384) : (x.setP r v).pcHigh = x.pcHigh := rfl
@[simp] theorem Tile.setP_s (x : Tile) (r : Nat) (v : BitVec 16384) : (x.setP r v).s = x.s := rfl
@[simp] theorem Tile.setP_f (x : Tile) (r : Nat) (v : BitVec 16384) : (x.setP r v).f = x.f := rfl
@[simp] theorem Tile.setP_csr (x : Tile) (r : Nat) (v : BitVec 16384) : (x.setP r v).csr = x.csr := rfl
@[simp] theorem Tile.setP_latched (x : Tile) (r : Nat) (v : BitVec 16384) : (x.setP r v).latched = x.latched := rfl
@[simp] theorem Tile.setP_v (x : Tile) (r : Nat) (v : BitVec 16384) : (x.setP r v).v = x.v := rfl
@[simp] theorem Tile.setP_parBad (x : Tile) (r : Nat) (v : BitVec 16384) : (x.setP r v).parBad = x.parBad := rfl
@[simp] theorem Tile.setP_trace (x : Tile) (r : Nat) (v : BitVec 16384) : (x.setP r v).trace = x.trace := rfl
@[simp] theorem Tile.setP_traceStopped (x : Tile) (r : Nat) (v : BitVec 16384) : (x.setP r v).traceStopped = x.traceStopped := rfl
@[simp] theorem Tile.setP_inbox (x : Tile) (r : Nat) (v : BitVec 16384) : (x.setP r v).inbox = x.inbox := rfl
@[simp] theorem Tile.setP_outbox (x : Tile) (r : Nat) (v : BitVec 16384) : (x.setP r v).outbox = x.outbox := rfl
@[simp] theorem Tile.setP_refused (x : Tile) (r : Nat) (v : BitVec 16384) : (x.setP r v).refused = x.refused := rfl
@[simp] theorem Tile.setP_waits (x : Tile) (r : Nat) (v : BitVec 16384) : (x.setP r v).waits = x.waits := rfl
@[simp] theorem Tile.setP_dmQueue (x : Tile) (r : Nat) (v : BitVec 16384) : (x.setP r v).dmQueue = x.dmQueue := rfl
@[simp] theorem Tile.setP_dmSlots (x : Tile) (r : Nat) (v : BitVec 16384) : (x.setP r v).dmSlots = x.dmSlots := rfl
@[simp] theorem Tile.setP_raised (x : Tile) (r : Nat) (v : BitVec 16384) : (x.setP r v).raised = x.raised := rfl
@[simp] theorem Tile.setP_acc (x : Tile) (r : Nat) (v : BitVec 16384) : (x.setP r v).acc = x.acc := rfl
@[simp] theorem Tile.setP_kUnit (x : Tile) (r : Nat) (v : BitVec 16384) : (x.setP r v).kUnit = x.kUnit := rfl
@[simp] theorem Tile.setP_dUnit (x : Tile) (r : Nat) (v : BitVec 16384) : (x.setP r v).dUnit = x.dUnit := rfl
@[simp] theorem Tile.setP_opSeq (x : Tile) (r : Nat) (v : BitVec 16384) : (x.setP r v).opSeq = x.opSeq := rfl
@[simp] theorem Tile.setP_kPause (x : Tile) (r : Nat) (v : BitVec 16384) : (x.setP r v).kPause = x.kPause := rfl
@[simp] theorem Tile.setP_kErr (x : Tile) (r : Nat) (v : BitVec 16384) : (x.setP r v).kErr = x.kErr := rfl
@[simp] theorem Tile.setP_vecGated (x : Tile) (r : Nat) (v : BitVec 16384) : (x.setP r v).vecGated = x.vecGated := rfl
@[simp] theorem Tile.setP_matGated (x : Tile) (r : Nat) (v : BitVec 16384) : (x.setP r v).matGated = x.matGated := rfl

@[simp] theorem Tile.setCf_mode (x : Tile) (n : Nat) (g : Fld) (k : Nat) : (x.setCf n g k).mode = x.mode := rfl
@[simp] theorem Tile.setCf_pc (x : Tile) (n : Nat) (g : Fld) (k : Nat) : (x.setCf n g k).pc = x.pc := rfl
@[simp] theorem Tile.setCf_pcHigh (x : Tile) (n : Nat) (g : Fld) (k : Nat) : (x.setCf n g k).pcHigh = x.pcHigh := rfl
@[simp] theorem Tile.setCf_s (x : Tile) (n : Nat) (g : Fld) (k : Nat) : (x.setCf n g k).s = x.s := rfl
@[simp] theorem Tile.setCf_f (x : Tile) (n : Nat) (g : Fld) (k : Nat) : (x.setCf n g k).f = x.f := rfl
@[simp] theorem Tile.setCf_latched (x : Tile) (n : Nat) (g : Fld) (k : Nat) : (x.setCf n g k).latched = x.latched := rfl
@[simp] theorem Tile.setCf_v (x : Tile) (n : Nat) (g : Fld) (k : Nat) : (x.setCf n g k).v = x.v := rfl
@[simp] theorem Tile.setCf_p (x : Tile) (n : Nat) (g : Fld) (k : Nat) : (x.setCf n g k).p = x.p := rfl
@[simp] theorem Tile.setCf_parBad (x : Tile) (n : Nat) (g : Fld) (k : Nat) : (x.setCf n g k).parBad = x.parBad := rfl
@[simp] theorem Tile.setCf_trace (x : Tile) (n : Nat) (g : Fld) (k : Nat) : (x.setCf n g k).trace = x.trace := rfl
@[simp] theorem Tile.setCf_traceStopped (x : Tile) (n : Nat) (g : Fld) (k : Nat) : (x.setCf n g k).traceStopped = x.traceStopped := rfl
@[simp] theorem Tile.setCf_inbox (x : Tile) (n : Nat) (g : Fld) (k : Nat) : (x.setCf n g k).inbox = x.inbox := rfl
@[simp] theorem Tile.setCf_outbox (x : Tile) (n : Nat) (g : Fld) (k : Nat) : (x.setCf n g k).outbox = x.outbox := rfl
@[simp] theorem Tile.setCf_refused (x : Tile) (n : Nat) (g : Fld) (k : Nat) : (x.setCf n g k).refused = x.refused := rfl
@[simp] theorem Tile.setCf_waits (x : Tile) (n : Nat) (g : Fld) (k : Nat) : (x.setCf n g k).waits = x.waits := rfl
@[simp] theorem Tile.setCf_dmQueue (x : Tile) (n : Nat) (g : Fld) (k : Nat) : (x.setCf n g k).dmQueue = x.dmQueue := rfl
@[simp] theorem Tile.setCf_dmSlots (x : Tile) (n : Nat) (g : Fld) (k : Nat) : (x.setCf n g k).dmSlots = x.dmSlots := rfl
@[simp] theorem Tile.setCf_raised (x : Tile) (n : Nat) (g : Fld) (k : Nat) : (x.setCf n g k).raised = x.raised := rfl
@[simp] theorem Tile.setCf_acc (x : Tile) (n : Nat) (g : Fld) (k : Nat) : (x.setCf n g k).acc = x.acc := rfl
@[simp] theorem Tile.setCf_kUnit (x : Tile) (n : Nat) (g : Fld) (k : Nat) : (x.setCf n g k).kUnit = x.kUnit := rfl
@[simp] theorem Tile.setCf_dUnit (x : Tile) (n : Nat) (g : Fld) (k : Nat) : (x.setCf n g k).dUnit = x.dUnit := rfl
@[simp] theorem Tile.setCf_opSeq (x : Tile) (n : Nat) (g : Fld) (k : Nat) : (x.setCf n g k).opSeq = x.opSeq := rfl
@[simp] theorem Tile.setCf_kPause (x : Tile) (n : Nat) (g : Fld) (k : Nat) : (x.setCf n g k).kPause = x.kPause := rfl
@[simp] theorem Tile.setCf_kErr (x : Tile) (n : Nat) (g : Fld) (k : Nat) : (x.setCf n g k).kErr = x.kErr := rfl
@[simp] theorem Tile.setCf_vecGated (x : Tile) (n : Nat) (g : Fld) (k : Nat) : (x.setCf n g k).vecGated = x.vecGated := rfl
@[simp] theorem Tile.setCf_matGated (x : Tile) (n : Nat) (g : Fld) (k : Nat) : (x.setCf n g k).matGated = x.matGated := rfl

@[simp] theorem Tile.setS_mode (x : Tile) (r : Nat) (v : Word) : (x.setS r v).mode = x.mode := by unfold Tile.setS; split <;> rfl
@[simp] theorem Tile.setS_pc (x : Tile) (r : Nat) (v : Word) : (x.setS r v).pc = x.pc := by unfold Tile.setS; split <;> rfl
@[simp] theorem Tile.setS_pcHigh (x : Tile) (r : Nat) (v : Word) : (x.setS r v).pcHigh = x.pcHigh := by unfold Tile.setS; split <;> rfl
@[simp] theorem Tile.setS_f (x : Tile) (r : Nat) (v : Word) : (x.setS r v).f = x.f := by unfold Tile.setS; split <;> rfl
@[simp] theorem Tile.setS_csr (x : Tile) (r : Nat) (v : Word) : (x.setS r v).csr = x.csr := by unfold Tile.setS; split <;> rfl
@[simp] theorem Tile.setS_latched (x : Tile) (r : Nat) (v : Word) : (x.setS r v).latched = x.latched := by unfold Tile.setS; split <;> rfl
@[simp] theorem Tile.setS_v (x : Tile) (r : Nat) (v : Word) : (x.setS r v).v = x.v := by unfold Tile.setS; split <;> rfl
@[simp] theorem Tile.setS_p (x : Tile) (r : Nat) (v : Word) : (x.setS r v).p = x.p := by unfold Tile.setS; split <;> rfl
@[simp] theorem Tile.setS_parBad (x : Tile) (r : Nat) (v : Word) : (x.setS r v).parBad = x.parBad := by unfold Tile.setS; split <;> rfl
@[simp] theorem Tile.setS_trace (x : Tile) (r : Nat) (v : Word) : (x.setS r v).trace = x.trace := by unfold Tile.setS; split <;> rfl
@[simp] theorem Tile.setS_traceStopped (x : Tile) (r : Nat) (v : Word) : (x.setS r v).traceStopped = x.traceStopped := by unfold Tile.setS; split <;> rfl
@[simp] theorem Tile.setS_inbox (x : Tile) (r : Nat) (v : Word) : (x.setS r v).inbox = x.inbox := by unfold Tile.setS; split <;> rfl
@[simp] theorem Tile.setS_outbox (x : Tile) (r : Nat) (v : Word) : (x.setS r v).outbox = x.outbox := by unfold Tile.setS; split <;> rfl
@[simp] theorem Tile.setS_refused (x : Tile) (r : Nat) (v : Word) : (x.setS r v).refused = x.refused := by unfold Tile.setS; split <;> rfl
@[simp] theorem Tile.setS_waits (x : Tile) (r : Nat) (v : Word) : (x.setS r v).waits = x.waits := by unfold Tile.setS; split <;> rfl
@[simp] theorem Tile.setS_dmQueue (x : Tile) (r : Nat) (v : Word) : (x.setS r v).dmQueue = x.dmQueue := by unfold Tile.setS; split <;> rfl
@[simp] theorem Tile.setS_dmSlots (x : Tile) (r : Nat) (v : Word) : (x.setS r v).dmSlots = x.dmSlots := by unfold Tile.setS; split <;> rfl
@[simp] theorem Tile.setS_raised (x : Tile) (r : Nat) (v : Word) : (x.setS r v).raised = x.raised := by unfold Tile.setS; split <;> rfl
@[simp] theorem Tile.setS_acc (x : Tile) (r : Nat) (v : Word) : (x.setS r v).acc = x.acc := by unfold Tile.setS; split <;> rfl
@[simp] theorem Tile.setS_kUnit (x : Tile) (r : Nat) (v : Word) : (x.setS r v).kUnit = x.kUnit := by unfold Tile.setS; split <;> rfl
@[simp] theorem Tile.setS_dUnit (x : Tile) (r : Nat) (v : Word) : (x.setS r v).dUnit = x.dUnit := by unfold Tile.setS; split <;> rfl
@[simp] theorem Tile.setS_opSeq (x : Tile) (r : Nat) (v : Word) : (x.setS r v).opSeq = x.opSeq := by unfold Tile.setS; split <;> rfl
@[simp] theorem Tile.setS_kPause (x : Tile) (r : Nat) (v : Word) : (x.setS r v).kPause = x.kPause := by unfold Tile.setS; split <;> rfl
@[simp] theorem Tile.setS_kErr (x : Tile) (r : Nat) (v : Word) : (x.setS r v).kErr = x.kErr := by unfold Tile.setS; split <;> rfl
@[simp] theorem Tile.setS_vecGated (x : Tile) (r : Nat) (v : Word) : (x.setS r v).vecGated = x.vecGated := by unfold Tile.setS; split <;> rfl
@[simp] theorem Tile.setS_matGated (x : Tile) (r : Nat) (v : Word) : (x.setS r v).matGated = x.matGated := by unfold Tile.setS; split <;> rfl

/-! ### Registers -/

@[simp] theorem State.rd_wr_same (s : State) (a : Nat) (v : Word) : (s.wr a v).rd a = v := SMap.get_set_same
theorem State.rd_wr_ne (s : State) {a b : Nat} (v : Word) (h : b ≠ a) : (s.wr a v).rd b = s.rd b := SMap.get_set_ne h
theorem State.rd_wr (s : State) (a b : Nat) (v : Word) : (s.wr a v).rd b = if b = a then v else s.rd b := SMap.get_set
@[simp] theorem State.rd_setTile (s : State) (t : Nat) (x : Tile) (a : Nat) : (s.setTile t x).rd a = s.rd a := rfl
@[simp] theorem State.rd_setByte (s : State) (a : Nat) (b : Byte) (c : Nat) : (s.setByte a b).rd c = s.rd c := rfl

/-! ### Tiles -/

@[simp] theorem State.tile_setTile_same (s : State) (t : Nat) (x : Tile) : (s.setTile t x).tile t = x := SMap.get_set_same
theorem State.tile_setTile_ne (s : State) {t u : Nat} (x : Tile) (h : u ≠ t) : (s.setTile t x).tile u = s.tile u := SMap.get_set_ne h
theorem State.tile_setTile (s : State) (t u : Nat) (x : Tile) : (s.setTile t x).tile u = if u = t then x else s.tile u := SMap.get_set
@[simp] theorem State.tile_wr (s : State) (a : Nat) (v : Word) (t : Nat) : (s.wr a v).tile t = s.tile t := rfl
@[simp] theorem State.tile_setByte (s : State) (a : Nat) (b : Byte) (t : Nat) : (s.setByte a b).tile t = s.tile t := rfl

/-! ### Registers of a tile -/

@[simp] theorem Tile.c_setC_same (x : Tile) (n : Nat) (v : Word) : (x.setC n v).c n = v := SMap.get_set_same
theorem Tile.c_setC_ne (x : Tile) {n k : Nat} (v : Word) (h : k ≠ n) : (x.setC n v).c k = x.c k := SMap.get_set_ne h
theorem Tile.c_setC (x : Tile) (n k : Nat) (v : Word) : (x.setC n v).c k = if k = n then v else x.c k := SMap.get_set
theorem Tile.c_setCf_ne (x : Tile) {n k : Nat} (g : Fld) (m : Nat) (h : k ≠ n) : (x.setCf n g m).c k = x.c k := SMap.get_set_ne h
@[simp] theorem Tile.c_setCf_same (x : Tile) (n : Nat) (g : Fld) (m : Nat) : (x.setCf n g m).c n = g.put (x.c n) m := SMap.get_set_same

/-- s0 reads zero and discards writes; any other register reads what was written (Table 3.1). -/
theorem Tile.rs_setS (x : Tile) (r q : Nat) (v : Word) :
    (x.setS r v).rs q = if q = 0 then 0 else if q = r then v else x.rs q := by
  unfold Tile.setS Tile.rs
  by_cases hq : q = 0
  · simp [hq]
  · by_cases hr : r = 0
    · simp only [hq, hr, if_false, if_true]
    · simp only [hq, hr, if_false]; exact SMap.get_set
@[simp] theorem Tile.rs_zero (x : Tile) : x.rs 0 = 0 := rfl
theorem Tile.rf_setF (x : Tile) (r q : Nat) (v : Word) : (x.setF r v).rf q = if q = r then v else x.rf q := SMap.get_set
theorem Tile.rv_setV (x : Tile) (r q : Nat) (v : BitVec 16384) : (x.setV r v).rv q = if q = r then v else x.rv q := SMap.get_set
theorem Tile.rp_setP (x : Tile) (r q : Nat) (v : BitVec 16384) : (x.setP r v).rp q = if q = r then v else x.rp q := SMap.get_set

@[simp] theorem Tile.rf_setS (x : Tile) (r q : Nat) (v : Word) : (x.setS r v).rf q = x.rf q := by simp [Tile.rf]
@[simp] theorem Tile.rs_setF (x : Tile) (r q : Nat) (v : Word) : (x.setF r v).rs q = x.rs q := rfl
@[simp] theorem Tile.rs_setC (x : Tile) (n q : Nat) (v : Word) : (x.setC n v).rs q = x.rs q := rfl
@[simp] theorem Tile.rf_setC (x : Tile) (n q : Nat) (v : Word) : (x.setC n v).rf q = x.rf q := rfl
@[simp] theorem Tile.rs_setCf (x : Tile) (n q k : Nat) (g : Fld) : (x.setCf n g k).rs q = x.rs q := rfl
@[simp] theorem Tile.rf_setCf (x : Tile) (n q k : Nat) (g : Fld) : (x.setCf n g k).rf q = x.rf q := rfl
@[simp] theorem Tile.c_setS (x : Tile) (r n : Nat) (v : Word) : (x.setS r v).c n = x.c n := by simp [Tile.c]
@[simp] theorem Tile.c_setF (x : Tile) (r n : Nat) (v : Word) : (x.setF r v).c n = x.c n := rfl

/-! ### Bytes of memory -/

@[simp] theorem State.byte_setByte_same (s : State) (a : Nat) (b : Byte) : (s.setByte a b).byte a = b := SMap.get_set_same
theorem State.byte_setByte_ne (s : State) {a c : Nat} (b : Byte) (h : c ≠ a) : (s.setByte a b).byte c = s.byte c := SMap.get_set_ne h
@[simp] theorem State.byte_wr (s : State) (a : Nat) (v : Word) (c : Nat) : (s.wr a v).byte c = s.byte c := rfl
@[simp] theorem State.byte_setTile (s : State) (t : Nat) (x : Tile) (c : Nat) : (s.setTile t x).byte c = s.byte c := rfl

/-- A store of n bytes leaves every byte outside it alone. -/
theorem State.byte_setBytes_ne (s : State) (a v c : Nat) :
    ∀ n, (c < a ∨ a + n ≤ c) → (s.setBytes a v n).byte c = s.byte c
  | 0, _ => rfl
  | n + 1, h => by
    have : c ≠ a + n := by omega
    simp only [State.setBytes]
    rw [State.byte_setByte_ne _ _ this]
    exact State.byte_setBytes_ne s a v c n (by omega)

/-- A store of n bytes leaves byte i of the value at byte i of the address (R6). -/
theorem State.byte_setBytes (s : State) (a v i : Nat) :
    ∀ n, i < n → (s.setBytes a v n).byte (a + i) = BitVec.ofNat 8 (v / 256 ^ i)
  | 0, h => absurd h (Nat.not_lt_zero _)
  | n + 1, h => by
    simp only [State.setBytes]
    by_cases hi : i = n
    · subst hi; simp
    · rw [State.byte_setByte_ne _ _ (by omega)]
      exact State.byte_setBytes s a v i n (by omega)

/-- Memory keeps its canonical form. -/
theorem State.setByte_wf (s : State) (a : Nat) (b : Byte) (h : Memory.wf s.mem = true) : Memory.wf (s.setByte a b).mem = true :=
  SMap.wf_set h

theorem State.setBytes_wf (s : State) (a v : Nat) (h : Memory.wf s.mem = true) : ∀ n, Memory.wf (s.setBytes a v n).mem = true
  | 0 => h
  | n + 1 => State.setByte_wf _ _ _ (State.setBytes_wf s a v h n)

theorem State.reset_memory_wf : Memory.wf State.reset.mem = true := rfl

end Sys2Proof.Machine
end

