-- ==== Sys2Proof/Laws/Tile.lean ====
section
/-!
SUPPORT. What the shared operations of tile instructions do: when an instruction executes, and how it retires.
-/
namespace Sys2Proof.Machine

/-- A tile instruction whose core executes it has its effect. -/
theorem onTile_executes {t : BitVec 8} {reads : List ParReg} {s : State} {k : Nat → Tile → State} (h : Executes s t reads) :
    onTile t reads s k = .next (k t.toNat (s.tile t.toNat)) := by
  obtain ⟨h1, h2, h3⟩ := h
  have h4 : (reads.any fun r => (s.tile t.toNat).parBad.contains r) = false := by
    rw [List.any_eq_false]; intro r hr; simpa using h3 r hr
  unfold onTile
  rw [if_pos h1, if_neg (by simp [h2]), if_neg (by rw [h4]; simp)]

/-- A tile instruction always answers a next state. -/
theorem onTile_next (t : BitVec 8) (reads : List ParReg) (s : State) (k : Nat → Tile → State) :
    ∃ u, onTile t reads s k = .next u := by
  unfold onTile
  dsimp only
  split
  · split
    · exact ⟨_, rfl⟩
    · split <;> exact ⟨_, rfl⟩
  · exact ⟨_, rfl⟩

theorem onTileSerial_executes {t : BitVec 8} {reads : List ParReg} {s : State} {k : Nat → Tile → State}
    (h : Executes s t reads) (hd : (s.tile t.toNat).drainBusy = false) :
    onTileSerial t reads s k = .next (k t.toNat (s.tile t.toNat)) := by
  unfold onTileSerial; rw [onTile_executes h]; simp [hd]

/-! ### Retirement -/

theorem Tile.c_countRet (x : Tile) {n : Nat} (h1 : n ≠ csrInstret) (h2 : n ≠ csrStatus) : x.countRet.c n = x.c n := by
  unfold Tile.countRet
  simp only
  split
  · rw [Tile.c_setCf_ne _ _ _ h2, Tile.c_setC_ne _ _ h1]
  · rw [Tile.c_setC_ne _ _ h1]

theorem Tile.c_countRet_instret (x : Tile) : x.countRet.c csrInstret = x.c csrInstret + 1 := by
  unfold Tile.countRet
  simp only
  split
  · rw [Tile.c_setCf_ne _ _ _ (by decide), Tile.c_setC_same]
  · rw [Tile.c_setC_same]

theorem Tile.c_countRet_status (x : Tile) (h : x.c csrInstret ≠ BitVec.allOnes 64) : x.countRet.c csrStatus = x.c csrStatus := by
  have : x.c csrInstret + 1 ≠ 0 := by
    intro e
    apply h
    have h2 : x.c csrInstret = 0 - 1 := by rw [← e]; simp
    rw [h2]; rfl
  unfold Tile.countRet
  simp only
  rw [if_neg this, Tile.c_setC_ne _ _ (by decide)]

/-- The fields of a tile that no retirement changes. -/
theorem Tile.countRet_rest (x : Tile) : x.countRet = { x with csr := x.countRet.csr } := by
  unfold Tile.countRet; simp only; split <;> rfl

theorem Tile.atLoopEnd_congr {x y : Tile} (n : Nat) (h1 : y.c (csrLc n) = x.c (csrLc n)) (h2 : y.c (csrLs n) = x.c (csrLs n))
    (h3 : y.pc = x.pc) : y.atLoopEnd n = x.atLoopEnd n := by
  simp [Tile.atLoopEnd, Tile.loopActive, Tile.loopEnd, Tile.cf, h1, h2, h3]

theorem Tile.atLoopEnd_countRet (x : Tile) {n : Nat} (hn : n < 2) : x.countRet.atLoopEnd n = x.atLoopEnd n := by
  apply Tile.atLoopEnd_congr
  · rw [Tile.c_countRet] <;> (unfold csrLc; first | unfold csrInstret | unfold csrStatus) <;> omega
  · rw [Tile.c_countRet] <;> (unfold csrLs; first | unfold csrInstret | unfold csrStatus) <;> omega
  · rw [Tile.countRet_rest]

/-- Where no loop body ends, the pc advances by 4. -/
theorem Tile.seqNext_plain (x : Tile) (h0 : x.atLoopEnd 0 = false) (h1 : x.atLoopEnd 1 = false) :
    x.seqNext = ({ x with pc := x.pc + 4 }, false) := by
  unfold Tile.seqNext Tile.backEdge
  simp [h0, h1]

/-- An instruction that ends no loop body and does not single-step retires in sequence. -/
theorem State.retire1_inSequence {s : State} {t : Nat} (h : InSequence s t) :
    s.retire1 t = s.setTile t { (s.tile t).countRet with pc := (s.tile t).pc + 4, mode := .running } := by
  obtain ⟨h0, h1, h2⟩ := h
  unfold State.retire1 State.stepTrap
  have hpc : (s.tile t).countRet.pc = (s.tile t).pc := by rw [Tile.countRet_rest]
  dsimp only
  rw [Tile.seqNext_plain _ (by rw [Tile.atLoopEnd_countRet _ (by omega)]; exact h0)
    (by rw [Tile.atLoopEnd_countRet _ (by omega)]; exact h1)]
  simp only [h2, hpc]
  rfl

/-- Trace touches only the tile's trace and the count of free values. -/
theorem State.trace_rest (s : State) (t kind code target : Nat) :
    s.trace t kind code target =
      { s with tiles := (s.trace t kind code target).tiles, free := (s.trace t kind code target).free } := by
  unfold State.trace; simp only; split <;> rfl

theorem State.trace_tile (s : State) (t kind code target : Nat) :
    (s.trace t kind code target).tile t = { s.tile t with trace := ((s.trace t kind code target).tile t).trace } := by
  unfold State.trace
  simp only
  split
  · simp
  · rfl

theorem State.trace_tile_ne (s : State) (t kind code target : Nat) {k : Nat} (h : k ≠ t) :
    (s.trace t kind code target).tile k = s.tile k := by
  unfold State.trace
  simp only
  split
  · rw [State.tile_setTile_ne _ _ h]; rfl
  · rfl

end Sys2Proof.Machine
end

