-- ==== Sys2Proof/Tests/Slice0.lean ====
section
/-!
SUPPORT. Tests: each check of WellFormed refuses an ill-formed command; single steps; and, for the statements of
Obligations.lean, states and operands that meet the hypotheses of each clause (`meets_<statement>`).
-/
namespace Sys2Proof.Tests

set_option Elab.async false

open Sys2Proof.Machine

/-! ### States -/

/-- A module that has booted: READY, every rail good, every die on a direct route. -/
def up : State :=
  let s := (State.reset.setf DEV_STATUS DEV_STATUS_READY 1).setf DEV_STATUS DEV_STATUS_STAGE 7
  let s := (List.range 9).foldl (fun s k => s.wr (VKN_ROUTE k) 0) s
  { s with boot := { Boot.init with qualified := true, rails := 8, stageDone := true } }

/-- Its tile 0 runs, in a state that f gives. -/
def run (f : Tile → Tile) : State := up.setTile 0 (f ({ Tile.start with mode := .running, pc := 0x1000 }.setCf csrStatus stFm 0))

/-- Tile 0 runs at user level. -/
def userRun (f : Tile → Tile) : State := run fun x => f (x.setCf csrStatus stPriv 0)

/-- The store of tile 0 begins here. -/
def own : Word := BitVec.ofNat 64 (storeBase 0)

/-! ### WellFormed refuses (each ill-formed command beside its nearest well-formed one) -/

theorem wf_refuses_masters :
    (Instr.evtEn (.tile 256) 0).wf = false ∧ (Instr.evtEn (.tile 255) 0).wf = true ∧ (Instr.registerWrite (.tile 256) 0 0).wf = false ∧
    (Instr.catchEventWrite (.tile 256) 0 0 0).wf = false ∧ (Instr.clean (.tile 256) 0 0 0).wf = false ∧
    (Instr.invalidateAll (.tile 256) 0 0 0).wf = false ∧ (Instr.wayDisable (.tile 256) 0 0 0).wf = false ∧
    (Instr.recov (.tile 256) 0 0).wf = false ∧ (Instr.rasQPop (.tile 256) 0 0).wf = false := by decide

theorem wf_refuses_fields :
    (Instr.catchEventWrite .cox 0 3 0).wf = false ∧ (Instr.catchEventWrite .cox 0 2 0).wf = true ∧
    (Instr.conditionalBranch 0 6 0 0 0).wf = false ∧ (Instr.conditionalBranch 0 5 0 0 0).wf = true ∧
    (Instr.clean .cox 0 33 0).wf = false ∧ (Instr.clean .cox 0 32 0).wf = true ∧ (Instr.flushAll .cox 0 33 0).wf = false ∧
    (Instr.wayEnable .cox 0 33 0).wf = false ∧ (Instr.recoveryEnd 0 3 (some [])).wf = false ∧ (Instr.recoveryEnd 8 7 (some [])).wf = true ∧
    (Instr.vknPortEn .cox 9 0 0).wf = false ∧ (Instr.rasInject .cox 9 0).wf = false ∧ (Instr.rasInject .cox 8 0).wf = true := by decide

theorem wf_refuses_lengths :
    (Instr.allreduce .cox 0 [0, 0, 0]).wf = false ∧ (Instr.allreduce .cox 0 [0, 0, 0, 0]).wf = true ∧
    (Instr.barrier .cox 0 []).wf = false ∧ (Instr.bar2Resize 29).wf = false ∧ (Instr.bar2Resize 43).wf = false ∧
    (Instr.bar2Resize 42).wf = true ∧ (Instr.trip 0 0).wf = false ∧ (Instr.trip 3 0).wf = false ∧ (Instr.trip 7 0).wf = false ∧
    (Instr.trip 6 0).wf = true ∧ (Instr.dieTemperatureSample 9 [0]).wf = false ∧ (Instr.dieTemperatureSample 8 []).wf = false ∧
    (Instr.dieTemperatureSample 8 [0]).wf = true ∧ (Instr.riggerTraining (List.replicate 73 [])).wf = false ∧
    (Instr.memoryTraining (List.replicate 65 [])).wf = false ∧ (Instr.laneMarginLow 0 9 0 0).wf = false ∧
    (Instr.laneMarginLow 1 9 0 0).wf = true := by decide

/-! ### Decode -/

/-- No row of the opcode table has bits (fields is [] in each), so no word spells a command. -/
theorem decode_spells_none (nbits w : Nat) : decodeTableWord nbits w = none := rfl

/-! ### Reset -/

theorem test_reset_canonical : Memory.wf State.reset.mem = true := by decide
theorem test_reset_values : State.reset.fld STK_PERIOD STK_PERIOD_PERIOD_NS = 20000 ∧ State.reset.rd STK_GRP_OWNER = 0xFFFFFFFFFFFF0000 ∧
    State.reset.fld ESURA_LEVEL ESURA_LEVEL_LEVEL = 2 ∧ State.reset.fld THM_THR THM_THR_TRIP = 115 ∧ State.reset.pstate = 0 ∧
    (State.reset.tile 255).user = false := by decide +kernel

/-! ### Scalar core -/

/-- s1 is 7 and s2 the address of the own store; the tile runs at supervisor level and no loop is at its end. -/
def scalar : State := run fun x => (x.setS 1 7).setS 2 own

theorem meets_IntegerInstructionResults :
    integerResult scalar (.add 0 3 1 1) = some (0, [.s 1, .s 1], 3, 14) ∧ integerResult scalar (.addi 0 0 1 0x3FFF) = some (0, [.s 1], 0, 6) ∧
    integerResult scalar (.slli 0 3 1 63) = some (0, [.s 1], 3, 0x8000000000000000) ∧
    integerResult scalar (.divS 0 3 1 0) = some (0, [.s 1, .s 0], 3, BitVec.allOnes 64) := ⟨rfl, rfl, rfl, rfl⟩

theorem meets_IntegerInstructionResults_tile : Executes scalar 0 [.s 1, .s 1] := by unfold Executes; decide +kernel

theorem meets_BitCountAndFieldMoveResults :
    Executes scalar 0 [.s 1] ∧ LeadingZeros ((scalar.tile 0).rs 1) 61 ∧ LeadingZeros ((scalar.tile 0).rs 0) 64 ∧
    TrailingZeros ((scalar.tile 0).rs 1) 0 ∧ TrailingZeros ((scalar.tile 0).rs 0) 64 := by
  unfold Executes LeadingZeros TrailingZeros; decide +kernel

theorem meets_ScalarRetirementFrame : InSequence scalar 0 := by unfold InSequence; decide +kernel

/-- Loop lc1 is at its last instruction, with COUNT c1; lc0 ends there too when `both`. -/
def looping (c0 c1 : Nat) : State := run fun x =>
  let x := ((x.setCf (csrLc 1) lcCount c1).setC (csrLs 1) 0xFF8)
  let x := (x.setCf (csrLc 1) lcBody 2)
  (((x.setCf (csrLc 0) lcCount c0).setC (csrLs 0) 0xFFC).setCf (csrLc 0) lcBody 1)

theorem meets_LoopBackEdge :
    (((looping 0 2).tile 0).atLoopEnd 1 = true ∧ 1 < ((looping 0 2).tile 0).cf (csrLc 1) lcCount) ∧
    (((looping 0 1).tile 0).atLoopEnd 1 = true ∧ ((looping 0 1).tile 0).atLoopEnd 0 = false) ∧
    (((looping 2 1).tile 0).atLoopEnd 0 = true ∧ 1 < ((looping 2 1).tile 0).cf (csrLc 0) lcCount) ∧
    (((looping 1 0).tile 0).atLoopEnd 1 = false ∧ ((looping 1 0).tile 0).atLoopEnd 0 = true ∧ ((looping 1 0).tile 0).cf (csrLc 0) lcCount = 1) := by
  decide +kernel

theorem meets_ControlTransferResults :
    InSequence scalar 0 ∧ Executes scalar 0 [.s 1, .s 2] ∧ (scalar.tile 0).drainBusy = false ∧
    ((scalar.tile 0).rs 1).toNat % 2 ^ 32 ≠ 0 ∧ ((scalar.tile 0).rs 0).toNat % 2 ^ 32 = 0 := by
  unfold InSequence Executes; decide +kernel

theorem meets_FastCallAndReturn :
    Executes scalar 0 [.csr 8] ∧ Executes scalar 0 [.csr 11] ∧ Executes scalar 0 [.s 31] ∧ (scalar.tile 0).user = false ∧
    Executes (userRun id) 0 [.s 31] ∧ ((userRun id).tile 0).user = true ∧ InSequence (userRun id) 0 := by
  unfold Executes InSequence; decide +kernel

theorem meets_ShiftImmediateReservedTraps : 64 ≤ (64 : BitVec 14).toNat ∧ Executes scalar 0 [.s 1] := by
  unfold Executes; decide +kernel

theorem meets_BreakIllegalAndFetchTrap :
    Executes scalar 0 [] ∧ InSequence scalar 0 ∧ (scalar.tile 0).drainBusy = false ∧ illegalSub (0xF0000000 : BitVec 32).toNat = some 2 ∧
    scalar.translate 0 false .fetch 0x1000 = .ok 0x1000 ∧ inStore 0 0x1000 4 = false ∧
    (userRun id).translate 0 true .fetch 0x1000 = .error 0x06 := by
  unfold Executes InSequence; decide +kernel

/-- fsp 4 KiB above the own store's base, fsl at it, the trap table 64 KiB above it. -/
def trapper : State := run fun x => ((x.setC csrFsp (own + 0x1000)).setC csrFsl own).setC csrTbase (own + 0x10000)

theorem meets_BreakIllegalAndFetchTrap_ebreak :
    Executes trapper 0 [] ∧ InSequence trapper 0 ∧ (trapper.tile 0).drainBusy = false ∧ TrapReady trapper 0 0x0E := by
  unfold Executes InSequence TrapReady GoodBytes; decide +kernel

theorem meets_TrapEntrySavesFrame : TrapReady trapper 0 0x2F ∧ TrapReady trapper 0 0 := by
  unfold TrapReady GoodBytes; decide +kernel

theorem meets_EscalationFreezesTile :
    ((run fun x => x.setCf csrStatus stFm 1).tile 0).cf csrStatus stFm = 1 ∧ (scalar.tile 0).cf csrStatus stFm = 0 ∧
    ((scalar.tile 0).c csrFsp).toNat < 256 + ((scalar.tile 0).c csrFsl).toNat := by decide +kernel

theorem meets_TrapReturnRestoresFrame :
    InSequence trapper 0 ∧ (trapper.tile 0).drainBusy = false ∧ Executes trapper 0 [] ∧ (trapper.tile 0).user = false ∧
    inStore 0 ((trapper.tile 0).c csrFsp).toNat 256 = true ∧ GoodBytes trapper 0 ((trapper.tile 0).c csrFsp).toNat 256 ∧
    (trapper.tile 0).kPause = .none ∧ ((userRun id).tile 0).user = true := by
  unfold InSequence Executes GoodBytes; decide +kernel

/-- SSTEP is set at user level. -/
def stepping : State := userRun fun x => (x.setCf csrStatus stSstep 1).setS 1 7

theorem meets_SingleStepRaisesSstep :
    Executes stepping 0 [.s 1, .s 1] ∧ integerResult stepping (.add 0 3 1 1) = some (0, [.s 1, .s 1], 3, 14) ∧
    (stepping.tile 0).atLoopEnd 0 = false ∧ (stepping.tile 0).atLoopEnd 1 = false ∧ (stepping.tile 0).user = true ∧
    (stepping.tile 0).cf csrStatus stSstep = 1 := by
  unfold Executes; decide +kernel

/-- Interrupt c is pending and enabled in tile 0, which runs or waits in wfi. -/
def interrupted (c : Nat) (m : TileMode) : State := run fun x =>
  { (x.setC csrMask (BitVec.allOnes 64)).setCf csrMask mkLevel 0 with latched := BitVec.ofNat 64 (2 ^ c), mode := m }

theorem meets_WaitingInstructions :
    Executes scalar 0 [] ∧ (scalar.tile 0).drainBusy = false ∧ scalar.wakes 0 = false ∧ (interrupted 4 .running).wakes 0 = true ∧
    Executes (interrupted 4 .running) 0 [] ∧ (scalar.tile 0).kErr = none ∧ (scalar.tile 0).kPause = .none ∧ (scalar.tile 0).matWaited = true ∧
    (scalar.tile 0).trapsOn (((scalar.tile 0).c csrFflags).toNat % 32) = false ∧
    ((run fun x => (x.setC csrFflags 1).setC csrFtrap 1).tile 0).trapsOn 1 = true ∧
    ((run fun x => { x with waits := 1 }).tile 0).waits ≠ 0 ∧
    ({ scalar with store := { scalar.store with outStores := [⟨0, 0, 8, 0, false⟩] } } : State).store.outStores.any (·.tile == 0) = true := by
  unfold Executes; decide +kernel

theorem meets_WfiWakesAndInterruptsEnter :
    (interrupted 4 .wfi).stilled 0 = false ∧ (interrupted 4 .wfi).wakes 0 = true ∧ ((interrupted 4 .wfi).tile 0).mode = .wfi ∧
    (interrupted 4 .running).recognised 0 = some 4 ∧ (interrupted 8 .running).recognised 0 = some 8 ∧
    (interrupted 7 .running).recognised 0 = some 7 ∧ scalar.recognised 0 = none ∧
    ((run fun x => { x with mode := .wfi }).wakes 0) = false := by decide +kernel

theorem meets_TranslationAndNoteWrites :
    rsvBad (TIL_XLAT_W1 0 1023) 0 = false ∧ rsvBad (TIL_XLAT_W0 0 0) 0 = false ∧ TIL_XLAT_W0_SIZE.get 0 = 0 ∧
    (∃ v, rsvBad (TIL_XLAT_W0 0 1023) v = true) ∧ rsvBad (TIL_COX_NOTE 0) 5 = false := by
  refine ⟨by decide +kernel, by decide +kernel, by decide +kernel, ⟨BitVec.allOnes 64, by decide +kernel⟩, by decide +kernel⟩

/-! ### Floating point, CSRs, loads and stores -/

/-- f1 is 1.5, f2 is -2.0; s2 the own store's base, s3 an address with bit 48 set. -/
def floats : State := run fun x =>
  (((x.setF 1 0x3FF8000000000000).setF 2 0xC000000000000000).setS 2 own).setS 3 0x0001000000000000

theorem meets_FloatInstructionResults :
    (∃ v fl, fpResult floats (.fadd 0 3 1 2) = some (0, [.f 1, .f 2], true, 3, v, fl)) ∧
    (∃ v fl, fpResult floats (.fcvtLD 0 3 2) = some (0, [.f 2], false, 3, v, fl)) ∧ Executes floats 0 [.f 1, .f 2] := by
  refine ⟨⟨_, _, rfl⟩, ⟨_, _, rfl⟩, ?_⟩
  unfold Executes; decide +kernel

theorem meets_ScalarFlagsTrapOrRetire :
    (16 : Nat) < 32 ∧ Nat.land 16 (((run fun x => x.setC csrFtrap 16).tile 0).c csrFtrap).toNat ≠ 0 ∧
    Nat.land 16 (((floats.tile 0).c csrFtrap).toNat % 32) = 0 := by decide +kernel

theorem meets_SignMoveAndClassResults : Executes floats 0 [.f 1, .f 2] ∧ Executes floats 0 [.s 1] := by
  unfold Executes; decide +kernel

theorem meets_CsrAccessResults :
    (∃ d, CsrMay scalar 0 csrStatus 0 0 d) ∧ (∃ d, CsrMay scalar 0 csrTid 0 0 d) ∧
    (∃ d, CsrMay scalar 0 csrTbase 1 0 d ∧ d.ro = false ∧ (scalar.tile 0).rs 0 &&& d.rsv = 0) ∧
    (∃ d, CsrMay scalar 0 csrFtrap 2 1 d ∧ d.ro = false ∧ (scalar.tile 0).rs 1 &&& d.rsv = 0) ∧
    (∃ d, CsrMay scalar 0 csrFtrap 3 1 d) ∧ Executes scalar 0 [.csr csrTbase, .s 0] ∧
    csrFtrap ∉ [csrLen, csrGrp, csrFflags, csrVfx, csrAccmode, csrMprog] := by
  unfold CsrMay
  refine ⟨⟨_, rfl, ?_⟩, ⟨_, rfl, ?_⟩, ⟨_, ⟨rfl, ?_⟩, ?_⟩, ⟨_, ⟨rfl, ?_⟩, ?_⟩, ⟨_, rfl, ?_⟩, ?_, ?_⟩ <;>
    first | decide +kernel | (unfold Executes; decide +kernel)

theorem meets_CsrAccessTraps :
    csrDesc 0xFFF = none ∧ Executes scalar 0 [.csr 0xFFF] ∧
    (∃ d, csrDesc csrTbase = some d ∧ d.sup = true) ∧ ((userRun id).tile 0).user = true ∧ Executes (userRun id) 0 [.csr csrTbase, .s 1] ∧
    (∃ d, CsrMay (run fun x => x.setS 1 (BitVec.allOnes 64)) 0 csrFtrap 1 1 d ∧ d.ro = false ∧ BitVec.allOnes 64 &&& d.rsv ≠ 0) := by
  unfold CsrMay
  refine ⟨by decide, ?_, ⟨_, rfl, by decide +kernel⟩, by decide +kernel, ?_, ⟨_, ⟨rfl, ?_⟩, ?_⟩⟩ <;>
    first | decide +kernel | (unfold Executes; decide +kernel)

/-- s1 holds v. -/
def holding (v : Word) : State := run fun x => x.setS 1 v

theorem meets_ModeCsrEffects :
    (∃ d, CsrMay (holding 1) 0 csrAccmode 1 1 d ∧ 1 &&& d.rsv = 0) ∧ ((holding 1).tile 0).isPaused = false ∧
    ((holding 1).tile 0).cf csrMprog mpHeld = 0 ∧ ((holding 1).tile 0).matIdle = true ∧
    (1 : Word).getLsbD 0 ≠ (((holding 1).tile 0).c csrAccmode).getLsbD 0 ∧
    (∃ d, CsrMay (run fun x => (x.setS 1 0x8000000000000000).setCf csrMprog mpValid 1) 0 csrMprog 1 1 d) ∧
    (∃ d, CsrMay (holding 0xF) 0 csrGrp 1 1 d ∧ 0xF &&& d.rsv = 0) ∧
    (∃ d, CsrMay (holding 5) 0 csrLen 1 1 d ∧ 5 &&& d.rsv = 0 ∧ ((holding 5).tile 0).c csrLen &&& ~~~ d.rw = 0) := by
  unfold CsrMay
  refine ⟨⟨_, ⟨rfl, ?_⟩, ?_⟩, ?_, ?_, ?_, ?_, ⟨_, rfl, ?_⟩, ⟨_, ⟨rfl, ?_⟩, ?_⟩, ⟨_, ⟨rfl, ?_⟩, ?_⟩⟩ <;> decide +kernel

theorem meets_LoadsFromOwnStore :
    Executes floats 0 [.s 2] ∧ (floats.tile 0).user = false ∧ inStore 0 own.toNat 8 = true ∧ GoodBytes floats 0 own.toNat 8 ∧
    inStore 0 (storeBase 0 + 0x600000 - 1) 1 = true ∧ inStore 0 (storeBase 0 + 0x600000 - 7) 8 = false := by
  unfold Executes GoodBytes; decide +kernel

theorem meets_StoresToOwnStore :
    InSequence floats 0 ∧ Executes floats 0 [.s 1, .s 2] ∧ Executes floats 0 [.f 1, .s 2] ∧ inStore 0 own.toNat 8 = true ∧
    floats.dataBad own.toNat 8 = false ∧ (floats.tile 0).trapsOn (fp32.ofV (floats.tile 0).frm (fp64.decode ((floats.tile 0).rf 1).toNat)).2 = false := by
  unfold InSequence Executes; decide +kernel

theorem meets_AccessFaultsTrap :
    Executes floats 0 [.s 1, .s 3] ∧ 2 ^ 48 ≤ ((floats.tile 0).rs 3).toNat ∧ ((userRun id).tile 0).user = true ∧
    ∀ i, i < 1024 → (userRun id).xlatHit 0 0 i = false := by
  unfold Executes; decide +kernel

/-! ### Vector engine -/

/-- len is 4, GF 1 and EW 32; s2 is the own store's base, s1 is 7; p1 has bits 0 and 2. -/
def vec : State := run fun x =>
  ((((((x.setC csrGrp 8).setC csrLen 4).setS 2 own).setS 1 7).setP 1 5).setV 1 0x00000004000000030000000200000001)

theorem meets_VectorElementwiseResults :
    (∃ v, vectorForm vec (.vadd 0 false 2 1 1 5 0) = some v ∧ v.ok (vec.tile 0) ∧
      VecExecutes vec 0 (v.reads (vec.tile 0)) ((vec.tile 0).groupOf v.d (fmtW v.fmt))) ∧
    (∃ v, vectorForm vec (.vdiv 0 true 2 1 1 1 11) = some v ∧ v.ok (vec.tile 0)) ∧ (vec.tile 0).len = 4 := by
  refine ⟨⟨_, rfl, ?_, ?_⟩, ⟨_, rfl, ?_⟩, ?_⟩ <;> (try unfold VecForm.ok GroupOk) <;> (try unfold VecExecutes Executes) <;> decide +kernel

theorem meets_VectorRetirement :
    ((vec.tile 0).cf csrStatus stPrecise ≠ 1) ∧ ((run fun x => (x.setCf csrStatus stPrecise 1).setC csrFtrap 1).tile 0).cf csrStatus stPrecise = 1 ∧
    Nat.land 1 ((((run fun x => (x.setCf csrStatus stPrecise 1).setC csrFtrap 1).tile 0).c csrFtrap).toNat % 32) ≠ 0 := by decide +kernel

theorem meets_VectorSetConvertExtract :
    Executes vec 0 [.s 1] ∧ (vec.tile 0).drainBusy = false ∧ isFIQ 5 = true ∧ GroupOk (vec.tile 0) 2 32 ∧
    VecExecutes vec 0 (scalarReg 5 1 :: pmReads 9) ((vec.tile 0).groupOf 2 32) ∧ clsIQ 5 = true ∧ GroupOk (vec.tile 0) 1 (fmtW 5) ∧
    0 < (vec.tile 0).len ∧ VecExecutes vec 0 (vregs (vec.tile 0) 1 (fmtW 5)) [] ∧ (scalar.tile 0).len = 0 ∧ (vec.tile 0).mode ≠ .frozen := by
  unfold Executes VecExecutes Executes GroupOk; decide +kernel

theorem meets_VectorSetConvertExtract_nclip :
    nclipDst 5 = some 6 ∧ GroupOk (vec.tile 0) 4 16 ∧ GroupOk (vec.tile 0) 1 32 ∧
    overlapBad 4 ((vec.tile 0).nregs 16) 1 ((vec.tile 0).nregs 32) = false ∧
    VecExecutes vec 0 (vregs (vec.tile 0) 1 32 ++ [.s 1] ++ pmReads 0) ((vec.tile 0).groupOf 4 16) ∧
    cvtPair 5 1 = true ∧ overlapBad 4 ((vec.tile 0).nregs (regW 1)) 1 ((vec.tile 0).nregs (regW 5)) = false := by
  unfold VecExecutes Executes GroupOk; decide +kernel

theorem meets_PredicateResults :
    clsIQ 5 = true ∧ GroupOk (vec.tile 0) 1 (fmtW 5) ∧ VecExecutes vec 0 (vregs (vec.tile 0) 1 32 ++ [.s 1] ++ pmReads 1) [] ∧
    VecExecutes vec 0 [.p 1, .p 2] [] ∧ VecExecutes vec 0 [] [] ∧ 2 < (vec.tile 0).len ∧ ((vec.tile 0).rp 1).getLsbD 0 = true ∧
    ∀ j, j < (vec.tile 0).len → ((vec.tile 0).rp 2).getLsbD j = false := by
  unfold VecExecutes Executes GroupOk; decide +kernel

theorem meets_ReductionResults :
    clsIQ 5 = true ∧ GroupOk (vec.tile 0) 1 (fmtW 5) ∧
    VecExecutes vec 0 (vregs (vec.tile 0) 1 32 ++ .s 1 :: .s 30 :: .s 31 :: pmReads 1) [] ∧
    (List.range (vec.tile 0).len).filter ((vec.tile 0).activeAt 0) ≠ [] ∧ (List.range (scalar.tile 0).len).filter ((scalar.tile 0).activeAt 0) = [] := by
  unfold VecExecutes Executes GroupOk; decide +kernel

theorem meets_StepKeepsLenWithinVlmax : LensWithin State.reset := by
  intro k
  have h : State.reset.tile k = Tile.start := rfl
  rw [h]; decide +kernel

/-- s2 is `a`. -/
def vecAt (a : Word) : State := run fun x => (((x.setC csrGrp 8).setC csrLen 4).setS 2 a)

theorem meets_VectorLoadsAndStores :
    (vec.tile 0).user = false ∧ isFIQ 5 = true ∧ GroupOk (vec.tile 0) 1 (fmtW 5) ∧ inStore 0 own.toNat 16 = true ∧ GoodBytes vec 0 own.toNat 16 ∧
    VecExecutes vec 0 [.s 2] ((vec.tile 0).groupOf 1 (fmtW 5)) ∧ inStore 0 (own.toNat / 65536 * 65536 + 65536) 65536 = true ∧
    (vec.tile 0).gf = 1 ∧ inStore 0 own.toNat 2048 = true ∧ GoodBytes vec 0 own.toNat 2048 ∧ vec.dataBad own.toNat 2048 = false ∧ InSequence vec 0 ∧
    VecExecutes vec 0 (.s 2 :: vregs (vec.tile 0) 1 (fmtW 5)) [] ∧ VecExecutes vec 0 [.s 2, .p 1] [] := by
  unfold VecExecutes Executes GroupOk GoodBytes InSequence; decide +kernel

theorem meets_VectorLoadsAndStores_first_fault :
    let s := vecAt (own + 0x600000 - 8)
    let va := ((s.tile 0).rs 2).toNat
    va / 65536 * 65536 + 65536 = storeBase 0 + 0x600000 ∧ inStore 0 va 8 = true ∧ 2 < (s.tile 0).len ∧ storeBase 0 + 0x600000 < va + 3 * 4 := by
  decide +kernel

theorem meets_VectorChecksTrap :
    Executes vec 0 [] ∧ 24 ≤ (24 : BitVec 5).toNat ∧ isFIQ 23 = false ∧ ¬ GroupOk ((run fun x => x.setC csrGrp 9).tile 0) 1 32 ∧
    isF 1 = true ∧ 2 < ((run fun x => x.setC csrGrp 10).tile 0).gf * fmtW 1 / ((run fun x => x.setC csrGrp 10).tile 0).ew := by
  unfold Executes GroupOk; decide +kernel

/-! ### Matrix engine and numerics watch -/

/-- s1 is the own store's base, s2 4 MiB above it, s3 two K indices. -/
def mat : State := run fun x => ((x.setS 1 own).setS 2 (own + 0x400000)).setS 3 2

theorem meets_AccumulatorOperations :
    MatrixIdle (mat.tile 0) ∧ InSequence mat 0 ∧ (mat.tile 0).bankBad 1 = false ∧ (mat.tile 0).bankBad 0 = false ∧ Executes mat 0 [.s 1] ∧
    (mat.tile 0).user = false ∧ own.toNat % 128 = 0 ∧ inStore 0 own.toNat (16384 * 4) = true ∧ GoodBytes mat 0 own.toNat (16384 * 4) ∧
    (mat.tile 0).parBad.contains (.acc 1) = false := by
  unfold MatrixIdle InSequence Executes GoodBytes; decide +kernel

theorem meets_AccumulatorOperations_wide :
    let s := run fun x => (x.setC csrAccmode 1).setS 1 own
    (s.tile 0).bankBad 2 = false ∧ inStore 0 own.toNat (16384 * 8) = true := by decide +kernel

/-- FP16 × FP16, no ring, no panel scales. -/
def kDesc : BitVec 32 := BitVec.ofNat 32 (2 * 2 ^ 23 + 2 * 2 ^ 18)

theorem meets_KStreamHandOff :
    Executes mat 0 [.s 1, .s 2, .s 3] ∧ MatrixIdle (mat.tile 0) ∧
    kChecks (mat.tile 0) 0 (kdescOf kDesc) own.toNat (own.toNat + 0x400000) 2 = none ∧ (kdescOf kDesc).ring = 0 ∧
    inStore 0 own.toNat (panelStride 2) = true ∧ inStore 0 (own.toNat + 0x400000) (panelStride 2) = true ∧
    InSequence (mat.setTile 0 { mat.tile 0 with pc := (mat.tile 0).pc + 4 }) 0 ∧
    (∃ e, kChecks (mat.tile 0) 0 (kdescOf kDesc) own.toNat 1 2 = some e) := by
  refine ⟨?_, ?_, ?_, ?_, ?_, ?_, ?_, ⟨(exMatConfig, 3), ?_⟩⟩ <;>
    first | decide +kernel | (unfold Executes; decide +kernel) | (unfold MatrixIdle; decide +kernel) | (unfold InSequence; decide +kernel)

/-- A K-stream of two indices of FP16, with ring r, in tile 0. -/
def stream (r : Nat) : KOp :=
  { kind := .stream, bank := 0, seq := 0, pc := 0x1000, pages := [], a := own.toNat, b := own.toNat + 0x400000, k := 2, kbase := 0, afmt := 2, bfmt := 2
    psa := false, psb := false, ring := r, rdy := 1, free := 2, zero := false, sr := false, seed := 0, started := true, done := 0, added := 0
    taken := 0, held := false, flags := 0 }
def streaming (r : Nat) : State := run fun x => { x with kUnit := [stream r] }

theorem meets_KStreamCompletesAndPauses :
    PlainStream (streaming 0) 0 (stream 0) ∧ (stream 0).ring = 0 ∧ GoodBytes (streaming 0) 0 own.toNat 512 ∧
    GoodBytes (streaming 0) 0 (own.toNat + 0x400000) 512 ∧
    ({ streaming 0 with store := { Store.init with badBytes := [(own.toNat, true)] } } : State).badIn own.toNat 512 = true := by
  unfold PlainStream GoodBytes; decide +kernel

theorem meets_RingTakeSignalsFree :
    let s := { streaming 1 with links := { Links.init with done := [.ring 0] } }
    PlainStream s 0 (stream 1) ∧ (stream 1).rdy ≠ (stream 1).free ∧ (stream 1).free < 64 ∧ s.bkBehind 0 2 = false ∧ s.links.done = [.ring 0] ∧ (s.buckle 2).waiters = [] ∧
    (s.buckle 2).count < 0xFFFFFFFE ∧ GoodBytes s 0 own.toNat 512 ∧ GoodBytes s 0 (own.toNat + 0x400000) 512 := by
  unfold PlainStream GoodBytes; decide +kernel

/-- A chain of no stages, ROWLEN 128; PAR of one row with stride 32. -/
def chainWord : Word := BitVec.ofNat 64 (128 * 2 ^ 32)
def drainPar : Word := BitVec.ofNat 64 (32 * 2 ^ 16)
def draining : State :=
  let s := run fun x => ((x.setS 1 (own + 0x10000)).setS 2 own).setS 3 drainPar
  s.setBytes own.toNat chainWord.toNat 8

theorem meets_DrainHandOffAndCompletion :
    let ws := (List.range 10).map fun i => BitVec.ofNat 64 (draining.bytes (own.toNat + 8 * i) 8)
    MatrixIdle (draining.tile 0) ∧ InSequence draining 0 ∧ Executes draining 0 [.s 1, .s 2, .s 3, .s 0] ∧ (draining.tile 0).bankBad 0 = false ∧
    own.toNat % 16 = 0 ∧ inStore 0 own.toNat 80 = true ∧ GoodBytes draining 0 own.toNat 80 ∧ chainVersion ws = false ∧
    chainInconsistent ws true = false ∧ drainBad (chainOf ws) 0 drainPar false 0 = false ∧ (own.toNat + 0x10000) % 16 = 0 ∧
    inStore 0 (own.toNat + 0x10000) (drainBytes (chainOf ws) drainPar false) = true := by
  unfold MatrixIdle InSequence Executes GoodBytes; decide +kernel

def drainOp : DOp :=
  { bank := 0, seq := 0, pc := 0x1000, pages := [], words := chainWord :: List.replicate 9 0, dst := own.toNat, par := drainPar, panel := false
    arg := 0, recs := 0, base := 0 }

theorem meets_DrainHandOffAndCompletion_end :
    let s := run fun x => { x with dUnit := [drainOp] }
    (s.tile 0).kUnit = [] ∧ (s.tile 0).mode = .running ∧ s.stilled 0 = false ∧ (s.tile 0).parBad = [] ∧
    s.dataBad drainOp.dst ((parRows drainOp.par - 1) * 16 * parStride drainOp.par + drainRow (chainOf drainOp.words).outFmt) = false ∧
    isMX (chainOf drainOp.words).outFmt = false ∧ drainRow (chainOf drainOp.words).outFmt ≤ 16 * parStride drainOp.par ∧
    (mat.tile 0).mode ≠ .frozen ∧ (mat.tile 0).matIdle = true := by decide +kernel

theorem meets_NumericsWatchCommands :
    let w : WatchItem := ⟨263, 255, [0, 1]⟩
    let s : State := { up with watch := [w] }
    (s.watch.find? fun q => q.tile == 263) = some w ∧ w.tag < 256 ∧ s.drain? (.watch 7) = none ∧
    (let s1 := { s.setf (NWT_CTRL 7) NWT_CTRL_EN 1 with watch := [⟨255, 1, [0]⟩] }
     s1.bit (NWT_CTRL 7) NWT_CTRL_EN = true ∧ s1.watchBusy 7 = true) ∧ (31 : Nat) / 32 ≠ 1 := by decide +kernel

/-! ### Messages, buckles and the data mover -/

/-- s1 holds v. -/
def carrying (v : Nat) : State := run fun x => x.setS 1 (BitVec.ofNat 64 v)

/-- Tile 0 runs; its outbound queue holds a message for tile 255, and its inbox one from tile 3; s1 is the own store's base. -/
def note : Msg := { who := 255, tag := 9, payload := [1, 2] }
def mail (n : Nat) (refused : Bool) : State :=
  (run fun x => { x.setS 1 own with outbox := [note], inbox := [⟨3, 1, [7]⟩], refused := refused }).setTile 255 { Tile.start with inbox := List.replicate n note }
    |>.setf (TIL_MSG_CTRL 255) TIL_MSG_CTRL_EN 1

theorem meets_MessageInstructions :
    Executes scalar 0 (.s 1 :: (List.range 8).map fun i => .s (24 + i)) ∧ ((scalar.tile 0).rs 1).toNat ≤ 255 ∧ (scalar.tile 0).outbox.length < 8 ∧
    8 ≤ ((run fun x => { x with outbox := List.replicate 8 note }).tile 0).outbox.length ∧ 255 < (((carrying 256).tile 0).rs 1).toNat ∧
    ((mail 63 false).tile 0).outbox = [note] ∧ (mail 63 false).stilled 255 = false ∧ (mail 63 false).stilled 0 = false ∧ (mail 63 false).flows 0 7 = true ∧
    ((mail 63 false).tile 255).inbox.length < 64 ∧ (mail 63 false).bit (TIL_MSG_CTRL 255) TIL_MSG_CTRL_EN = true ∧
    (mail 63 false).drain? (.inbox 255) = none ∧ 64 ≤ ((mail 64 false).tile 255).inbox.length ∧ ((mail 0 true).tile 0).refused = true ∧
    ((mail 0 true).tile 0).inbox = [⟨3, 1, [7]⟩] ∧ InSequence (mail 0 true) 0 ∧ Executes (mail 0 true) 0 [.s 1] ∧
    own.toNat % 64 = 0 ∧ inStore 0 own.toNat 64 = true ∧ (mail 0 true).dataBad own.toNat 64 = false := by
  unfold Executes InSequence; decide +kernel

theorem meets_InboxEnableAndLimit :
    up.drain? (.inbox 0) = none ∧
    (let s := up.setf (TIL_MSG_CTRL 0) TIL_MSG_CTRL_EN 1; s.bit (TIL_MSG_CTRL 0) TIL_MSG_CTRL_EN = true ∧ ∀ p ∈ s.tiles, p.2.outbox = []) ∧
    (let s := { run (fun x => { x with refused := true, outbox := [{ note with who := 5 }] }) with drains := [⟨.inbox 5, 2, false⟩] }
     ∃ x, s.tiles = [(0, x)] ∧ x.refused = true ∧ x.outbox = [{ note with who := 5 }]) := by
  refine ⟨by decide +kernel, by decide +kernel, ⟨_, rfl, by decide +kernel, by decide +kernel⟩⟩

/-- s1 holds buckle 16,383 and s2 a count. -/
def buckled (w : Nat) : State := run fun x => { (x.setS 1 16383).setS 2 5 with waits := w }

theorem meets_BuckleInstructions :
    Executes (buckled 7) 0 [.s 1, .s 2] ∧ ((buckled 7).tile 0).user = false ∧ ((buckled 7).tile 0).waits < 8 ∧ 8 ≤ ((buckled 8).tile 0).waits ∧
    Executes (carrying 16384) 0 [.s 1, .s 2] ∧ 16383 < (((carrying 16384).tile 0).rs 1).toNat ∧
    (let s := { run (fun x => { x with mode := .bread 3, waits := 1 }) with links := { Links.init with reads := [(0, 4)], done := [.tile 0 true], homes := [(.tile 0 true, 7)] } }
     (s.tile 0).mode = .bread 3 ∧ s.stilled 0 = false ∧ (s.links.reads.find? fun r => r.1 == 0) = some (0, 4) ∧ WaitWho.tile 0 true ∈ s.links.done ∧
     s.holds (SMap.get (fun _ => 0) s.links.readHome 0) 0 = false ∧
     ((s.links.homesOf (.tile 0 true)).head?.all fun q => !s.holds q.2 0) = true) := by
  unfold Executes; decide +kernel

/-- An operation of tile 0 on buckle 16,383, home tile 255, on its way to a count c. -/
def bound (k : BkKind) (c : Nat) : State :=
  { up with links := { Links.init with ops := [⟨0, 16383, k⟩], buckles := SMap.set (fun _ => Buckle.zero) [] 16383 ⟨c, []⟩ } }

theorem meets_BuckleHomeEffects :
    (bound (.add 1) 0xFFFFFFFE).stilled 255 = false ∧ (bound (.add 1) 0xFFFFFFFE).flows 0 7 = true ∧ (16383 / 64 = 255) ∧
    ((bound (.add 1) 0xFFFFFFFE).links.ops.find? fun o => o.tile == 0 && (o.buckle / 64 == 255 || 0 / 32 != 255 / 32 && o.buckle / 2048 == 255 / 32)) = some ⟨0, 16383, .add 1⟩ ∧
    ((bound (.add 1) 0xFFFFFFFE).buckle 16383) = ⟨0xFFFFFFFE, []⟩ ∧ ((bound (.wait 3 true) 3).buckle 16383).count = 3 ∧
    ((bound (.wait 3 false) 2).buckle 16383).count < 3 ∧ ((bound .read 2).links.ops = [⟨0, 16383, .read⟩]) ∧
    rsvBad (tilBase 255 + (0x8000 + 16 * 63)) 0xFFFFFFFF = false := by decide +kernel

/-- A COPY of 64 bytes, one unit, inside the own store (Table 7.2). -/
def copyWords : List Word := [0, own + 0x1000, own + 0x2000, BitVec.ofNat 64 (2 ^ 32 + 64), 0, 0, 0, 0]

/-- The descriptor stands at `own`; the move is enabled or not; k descriptors are in place. -/
def posting (en k : Nat) : State :=
  let s := run fun x => { x.setS 1 own with dmQueue := List.replicate k ⟨copyWords, 0, false, 0⟩ }
  ((List.range 8).foldl (fun s i => s.setBytes (own.toNat + 8 * i) (copyWords.getD i 0).toNat 8) s).setf (TIL_DM_CTRL 0) TIL_DM_CTRL_EN en

theorem meets_DataMoverPosts : Executes (posting 1 0) 0 [.s 1] ∧ PostOk (posting 1 0) 0 (((posting 1 0).tile 0).rs 1).toNat 0 copyWords := by
  unfold Executes PostOk GoodBytes; decide +kernel

theorem meets_DataMoverPosts_full :
    Executes (posting 1 64) 0 [.s 1] ∧ PostOk (posting 1 64) 0 (((posting 1 64).tile 0).rs 1).toNat 0 copyWords ∧
    64 ≤ ((posting 1 64).tile 0).dmQueue.length + ((posting 1 64).tile 0).dmSlots.length ∧
    (posting 1 64).bit (TIL_DM_CTRL 0) TIL_DM_CTRL_EN = true := by
  unfold Executes PostOk GoodBytes; decide +kernel

theorem meets_DataMoverPosts_off :
    Executes (posting 0 0) 0 [.s 1] ∧ PostOk (posting 0 0) 0 (((posting 0 0).tile 0).rs 1).toNat 0 copyWords ∧
    (posting 0 0).bit (TIL_DM_CTRL 0) TIL_DM_CTRL_EN = false := by
  unfold Executes PostOk GoodBytes; decide +kernel

/-- An active slot that copies `copyWords`, one behind its gate, and a tile that holds one slot. -/
def copySlot (gated : Bool) : DmSlot :=
  { entry := ⟨copyWords, 5, false, 0⟩, gated := gated, next := 0, started := false, level := 0, part := 0, flags := 0, fail := none, sent := false, host := none
    asked := 0, answered := 0, brought := 0, ending := none }
def slotted (q : DmSlot) : State := run fun x => { x with dmSlots := [q] }

theorem meets_DataMoverSlotsAndCompletion :
    (let x := (posting 1 1).tile 0
     x.dmQueue = [⟨copyWords, 0, false, 0⟩] ∧ x.dmSlots.length < 4 ∧ x.mode ≠ .frozen ∧ (posting 1 1).stilled 0 = false ∧ dmFence copyWords = false) ∧
    (let s := { slotted (copySlot true) with links := { Links.init with done := [.gate 0 5] } }
     (s.tile 0).dmSlots = [copySlot true] ∧ WaitWho.gate 0 5 ∈ s.links.done) ∧
    OneUnitCopy (slotted (copySlot false)) 0 (copySlot false) ∧ ((slotted (copySlot false)).tile 0).dmQueue = [] ∧
    OneUnitCopy { { slotted (copySlot false) with drains := [⟨.mover 0, 5, false⟩] } with drains := [] } 0 (copySlot false) := by
  unfold OneUnitCopy; decide +kernel

/-- A REDUCE_PUT of FP32 over tiles 31 and 32, staging at 0x1000: tile 32, position 1, holds the partial of four bytes. -/
def reduceWords : List Word :=
  [BitVec.ofNat 64 (5 * 2 ^ 52), 0, 0, BitVec.ofNat 64 (2 ^ 32 + 4), 0, BitVec.ofNat 64 (31 * 2 ^ 56 + 2 ^ 48 + 2 ^ 40 + 0x1000), 0, 0]
def reduceSlot : DmSlot := { copySlot false with entry := ⟨reduceWords, 0, false, 0⟩, started := true, part := 0xFFFFFFFF }

theorem meets_ReducePartialReachesParent :
    let s := up.setTile 32 { Tile.start with dmSlots := [reduceSlot] }
    let q := reduceSlot
    (s.tile 32).dmSlots = [q] ∧ q.entry.ticket = 0 ∧ dmOp q.entry.words = 5 ∧ q.gated = false ∧ q.started = true ∧ q.fail = none ∧
    q.sent = false ∧ rdPos q.entry.words 32 = some 1 ∧ q.level = 0 ∧ rdFirst q.entry.words = 31 ∧ (s.tile 31).dmSlots = [] ∧
    s.links.partials = [] ∧ s.flows 1 0 = true ∧ s.stilled 32 = false ∧ s.stilled 31 = false ∧ dmStart q.entry.words = 0 ∧
    s.dataBad (storeBase 31 + rdStage q.entry.words) (dmSize q.entry.words) = false ∧ q.part < 256 ^ dmSize q.entry.words := by decide +kernel

/-! ### Last-level store -/

/-- Die 7 of `up`: slots 31 and 32 ask for one line of its first memory; its tags are valid. -/
def lls : State :=
  (([31, 32].foldl (fun s k => (s.setf (LLS_BURN_ADDR 7 k) LLS_BURN_ADDR_ADDR 0xA800000000).setf (LLS_BURN_LEN 7 k) LLS_BURN_LEN_LEN 1) up).setf
    (LLS_STATUS 7) LLS_STATUS_TAGS_VALID 1)

theorem meets_BurnisherSubmission :
    (3, Instr.invalidate (.tile 255) 7 31 0) ∈ burnCommands (.tile 255) 7 31 0 ∧ OwnsSlot (.tile 255) 7 31 ∧ OwnsSlot .cox 7 32 ∧
    ¬ OwnsSlot .cox 7 31 ∧ ¬ OwnsSlot (.tile 254) 7 31 ∧
    lls.bit (LLS_BURN_STATUS 7 31) LLS_BURN_STATUS_BUSY = false ∧ lls.burnReject 7 (burnCmdOf lls 7 31 3 0) false = none ∧
    rsvBad (LLS_BURN_CMD 7 31) (LLS_BURN_CMD_OP.put 0 3) = false ∧
    (13, Instr.wayEnable .cox 7 32 0) ∈ burnCommands .cox 7 32 0 ∧ lls.burnReject 7 (burnCmdOf lls 7 32 9 0) false = none ∧
    lls.burnReject 7 (burnCmdOf lls 7 32 13 0) false = some 0x10 ∧
    (lls.setf (LLS_BURN_STATUS 7 32) LLS_BURN_STATUS_BUSY 1).bit (LLS_BURN_STATUS 7 32) LLS_BURN_STATUS_BUSY = true := by
  unfold OwnsSlot
  refine ⟨?_, ?_, ?_, ?_, ?_, ?_, ?_, ?_, ?_, ?_, ?_, ?_⟩ <;> first | (simp only [burnCommands]; simp) | decide +kernel

/-- A command of slot 32 of die 7 that waits, or runs, in its Burnisher. -/
def burnCmd (op : Nat) : BurnCmd := { slot := 32, op := op, addr := 0xA800000000, len := 1, way := 15, cb := some 16383 }
def burning (run wait : Option BurnCmd) : State :=
  (lls.setBurn 7 { running := run, queue := wait.toList, lines := 0, lost := false }).setf (LLS_BURN_STATUS 7 32) LLS_BURN_STATUS_BUSY 1

/-- The line of the command's address, in way 0 of its set, dirty. -/
def burnKey : Nat := lineKey 7 0xA800000000 0
def dirtied (op : Nat) : State :=
  (burning (some (burnCmd op)) none).setLine burnKey { valid := true, dirty := true, addr := 0xA800000000, data := 5, bad := 0 }

theorem meets_BurnisherRuns :
    ((burning none (some (burnCmd 12))).burn 7).running = none ∧ ((burning none (some (burnCmd 12))).burn 7).queue = [burnCmd 12] ∧
    (burning none (some (burnCmd 12))).wayUnfit 7 12 15 = false ∧ (burning none (some (burnCmd 13))).wayUnfit 7 13 15 = true ∧
    ((burning (some (burnCmd 3)) none).burn 7).running = some (burnCmd 3) ∧ ((burning (some (burnCmd 3)) none).burn 7).lost = false ∧
    SMap.wf noLine (burning (some (burnCmd 3)) none).store.lines = true ∧
    (burning (some (burnCmd 3)) none).bit (LLS_BURN_STATUS 7 32) LLS_BURN_STATUS_CANCEL = false ∧
    ((burning (some (burnCmd 3)) none).setf (LLS_BURN_STATUS 7 32) LLS_BURN_STATUS_CANCEL 1).bit (LLS_BURN_STATUS 7 32) LLS_BURN_STATUS_CANCEL = true ∧
    (burning none (some (burnCmd 1))).bit (LLS_BURN_STATUS 7 32) LLS_BURN_STATUS_BUSY = true ∧ ((burning (some (burnCmd 1)) none).burn 7).queue = [] := by
  decide +kernel

theorem meets_BurnisherRuns_lines :
    (let s := (dirtied 1).setf (HBM_STATE (memOf 0xA800000000)) HBM_STATE_TSTATE 0
     (s.burn 7).running = some (burnCmd 1) ∧ OneLineIn s 7 burnKey (burnCmd 1) ∧ s.waitsIn 0xA800000000 1 = false) ∧
    (let s := (burning (some (burnCmd 4)) none).setf (HBM_STATE (memOf 0xA800000000)) HBM_STATE_TSTATE 0
     ∀ i, i < 1 → s.memDown (memOf (0xA800000000 + 128 * i)) = false ∧ s.regionMode (0xA800000000 + 128 * i) = none) ∧
    (let s := ((burning (some (burnCmd 5)) none).setf (HBM_STATE (memOf 0xA800000000)) HBM_STATE_TSTATE 0).setf (LLS_CTRL 7) LLS_CTRL_EN 1
     s.bit (LLS_CTRL 7) LLS_CTRL_EN = true ∧ s.hit 7 0xA800000000 = none ∧ s.homeDown 7 (memOf 0xA800000000) = false ∧
     s.lineListed 7 0xA800000000 = false ∧ s.pageListed 7 0xA800000000 = false ∧ s.cwErrors 0xA800000000 = [] ∧ s.cwErrors 0xA800000040 = [] ∧
     s.fillWay 7 0xA800000000 = some 0 ∧ (s.line (lineKey 7 0xA800000000 0)).valid = false) := by
  unfold OneLineIn; decide +kernel

theorem meets_BurnisherWays :
    ∀ op ∈ [8, 9, 10, 11, 12, 13], ((burning (some (burnCmd op)) none).burn 7).running = some (burnCmd op) ∧
      ((burning (some (burnCmd op)) none).burn 7).lost = false := by decide +kernel

theorem meets_SliceEnableAndWays :
    rsvBad (LLS_CTRL 7) 1 = false ∧ rsvBad (LLS_CTRL 7) 2 = true ∧ lls.drain? (.store 7) = none ∧ lls.bit (LLS_STATUS 7) LLS_STATUS_TAGS_VALID = true ∧
    (lls.setf (LLS_CTRL 7) LLS_CTRL_EN 1).bit (LLS_CTRL 7) LLS_CTRL_EN = true ∧
    up.bit (LLS_STATUS 7) LLS_STATUS_TAGS_VALID = false ∧
    ({ lls with drains := [⟨.store 7, 1025, false⟩] } : State).drain? (.store 7) = some ⟨.store 7, 1025, false⟩ ∧
    (let s : State := { lls with store := { lls.store with parHist := [(7 * 16 + 15, List.replicate 8 0)] } }
     s.way 7 0 15 = false ∧ s.way 7 32 15 = false ∧ s.way 7 16 15 = false ∧ 5 ≤ s.eligibleCount 7 ∧
     8 ≤ (SMap.get noHist s.store.parHist (7 * 16 + 15)).length) ∧
    (lls.setWay 7 0 15 true).way 7 0 15 = true ∧ (lls.setWay 7 0 15 true).burnMoves 7 15 = false := by decide +kernel

/-! ### Memory controllers -/

/-- Memory 63 with thresholds 80, 90 and 100 °C, in thermal state st. -/
def warm (st cw : Nat) : State :=
  (((up.put (HBM_THR 63) (HBM_THR_WARN.put (HBM_THR_THROT.put (HBM_THR_CRIT.put 0 100) 90) 80)).setf (HBM_STATE 63) HBM_STATE_TSTATE st).setMemInfo 63
    { MemInfo.init with coolWarn := cw })

theorem meets_MemoryControllerCommands :
    rsvBad (HBM_THR 63) 0 = false ∧ rsvBad (HBM_THR 63) (HBM_THR_WARN.put (HBM_THR_THROT.put (HBM_THR_CRIT.put 0 100) 90) 80) = false ∧
    (let s := warm 0 0
     s.fld (HBM_THR 63) HBM_THR_WARN = 80 ∧ s.fld (HBM_THR 63) HBM_THR_THROT = 90 ∧ s.fld (HBM_THR 63) HBM_THR_CRIT = 100 ∧
     s.fld (HBM_STATE 63) HBM_STATE_TSTATE = 0 ∧ (∀ p ∈ s.fabric.crews, p.2.state ≠ 2)) ∧
    (let s := warm 1 15
     s.fld (HBM_STATE 63) HBM_STATE_TSTATE = 1 ∧ 15 ≤ (s.memInfo 63).coolWarn ∧ (76 : BitVec 8).toInt < 80 - 3 ∧ ¬ (77 : BitVec 8).toInt < 80 - 3) ∧
    (warm 2 0).fld (HBM_STATE 63) HBM_STATE_TSTATE = 2 ∧ (90 : BitVec 8).toInt = 90 ∧ (100 : BitVec 8).toInt = 100 ∧
    (let s := up.setMemInfo 63 { MemInfo.init with window := some (0, true) }
     (s.memInfo 63).window = some (0, true) ∧ after 0 s.now = false) ∧
    (let s : State := { up.setf (HBM_STATE 63) HBM_STATE_TSTATE 0 with stroke := { up.stroke with ticks := 3600000 } }
     s.memDown 63 = false ∧ (s.memInfo 63).lastRetrain + 3600000 ≤ s.stroke.ticks) ∧
    (let s := (up.setf (HBM_STATE 0) HBM_STATE_TSTATE 0).setErrors 0x02800000 [(0, 1)]
     regionOf 0x02800000 = .hbm 0 ∧ s.memDown 0 = false ∧ s.unswept 0 0x02800000 = false ∧ s.codeword 0x02800000 = 1 ∧
     (s.row (rowOf 0 0x02800000)).corrected.length < 3) ∧
    (let s := up.setf (HBM_STATE 63) HBM_STATE_SWEEP 1
     memEnd 63 ≤ 0x028000000000 ∧ s.bit (HBM_STATE 63) HBM_STATE_SWEEP = true ∧ SMap.get noNat s.store.sweepPos 63 < memEnd 63) ∧
    (let s := (up.setMemInfo 63 { MemInfo.init with offlineAt := some 0 }).wr STK_NOW 65
     (s.memInfo 63).offlineAt = some 0 ∧ 64 < (s.now - 0).toNat) := by decide +kernel

/-! ### Context streamers -/

/-- Die 7: context 127 is open with 0x30000 entries of its table at the base of the die's HBM; the streamer is open. -/
def cxs : State :=
  let a := CXS_CTX_CTRL 7 127
  let s := (up.setf (CXS_CTRL 7) CXS_CTRL_EN 1).setf (CXS_CTX_PT_LEN 7 127) CXS_CTX_PT_LEN_PT_LEN 2
  let s := (s.setf (CXS_CTX_PT_BASE 7 127) CXS_CTX_PT_BASE_PT_BASE (0xA800000000 / 2 ^ CXS_CTX_PT_BASE_PT_BASE.lo))
  (((s.setf (HBM_STATE 14) HBM_STATE_TSTATE 0).setf a CXS_CTX_CTRL_EN 1).setf a CXS_CTX_CTRL_NBLK 1).setf (CXS_POOL_BASE 7) CXS_POOL_BASE_SZ 4
    |>.setf (CXS_POOL_BASE 7) CXS_POOL_BASE_BASE (0xA800010000 / 2 ^ CXS_POOL_BASE_BASE.lo)

/-- Context 127, COUNT 2, FIRST 0. -/
def cxsW0 (count : Nat) : Word := BitVec.ofNat 64 (127 * 2 ^ 48 + count * 2 ^ 24)

theorem meets_StreamerSubmission :
    (1, Instr.fetch .cox 7 32 (cxsW0 2) 0 0 0) ∈ streamCommands .cox 7 32 (cxsW0 2) 0 0 0 ∧
    cxs.cxsReject 7 (Fld.put ⟨56, 4⟩ (cxsW0 2) 1) 0 0 = none ∧ cxs.cxsReject 7 (Fld.put ⟨56, 4⟩ (cxsW0 3) 6) 0 0 = some 2 ∧
    ((31 : BitVec 6).toNat < 32) := by
  refine ⟨?_, ?_, ?_, ?_⟩ <;> first | (simp only [streamCommands]; simp) | decide +kernel

/-- The last command of the queue of die 7. -/
def cxsOne (running waits : Bool) (crec : Nat) : CxsCmd :=
  { slot := 31, op := 6, ctx := 127, first := 0, count := 1, start := 0, due := 0, sfmt := 0, dst := 0, cb := none, crec := crec
    running := running, done := 0, waits := waits, ending := none }
def cxsBusy (c : CxsCmd) (ds : List Drain) : State := { cxs.setCxsQueue 7 [c] with drains := ds }

theorem meets_StreamerRuns_commands :
    (cxsBusy (cxsOne false false 0) []).cxsQueue 7 = [cxsOne false false 0] ∧ after 0 (cxsBusy (cxsOne false false 0) []).now = false ∧
    cxs.bit DEV_STATUS DEV_STATUS_EASY = false ∧
    (let r := (cxsBusy (cxsOne true false 0) []).cxsRead
       ((cxsBusy (cxsOne true false 0) []).addr (CXS_CTX_PT_BASE 7 127) CXS_CTX_PT_BASE_PT_BASE + 16 * 0) 16
     r.1.cxsQueue 7 = [cxsOne true false 0] ∧ r.1.drains = [] ∧ (match r.2 with | .ok w => w | .error _ => 2 ^ 128) = 0) ∧
    (cxsBusy (cxsOne true true own.toNat) []).poolCount 7 = 0 ∧ regionOf own.toNat = .store 0 ∧
    (cxsBusy (cxsOne true true own.toNat) []).stilled 0 = false ∧ (cxsBusy (cxsOne true true own.toNat) []).flows 7 (dieOf own.toNat) = true ∧
    (cxsBusy (cxsOne true true own.toNat) []).dataBad own.toNat 16 = false ∧ cxs.poolLate 7 = [] ∧
    (cxsBusy (cxsOne true false 0) [⟨.streamer 7, 1025, false⟩]).drains = [⟨.streamer 7, 1025, false⟩] := by decide +kernel

theorem meets_StreamerRuns_pool :
    (let v : Word := 0xA800020000
     let fr := CXS_POOL_ADD_FRAME.get v * 65536
     v.toNat / 2 ^ 48 = 0 ∧ v.toNat % 65536 = 0 ∧ dieHbm 7 fr 65536 = true ∧ cxs.pageRetired (memOf fr) fr = false ∧
     cxs.fld (CXS_POOL_BASE 7) CXS_POOL_BASE_SZ = 4 ∧ cxs.poolCount 7 < 2 ^ 4 ∧
     (({ cxs with store := { cxs.store with poolAdds := cxs.store.poolAdds ++ [(7, fr)] } } : State).memWrite .cxs 7 (cxs.addr (CXS_POOL_BASE 7) CXS_POOL_BASE_BASE) 8 fr).2.isNone = true) ∧
    dieHbm 7 (CXS_POOL_ADD_FRAME.get (0xBFFFFFFFFF : Word) * 65536) 65536 = true ∧ (0xBFFFFFFFFF : Nat) % 65536 ≠ 0 ∧ (2 ^ 48 : Nat) / 2 ^ 48 ≠ 0 ∧
    dieHbm 7 (CXS_POOL_ADD_FRAME.get (0xC000000000 : Word) * 65536) 65536 = false := by decide +kernel

theorem meets_StreamerRuns_registers :
    (let v := CXS_POOL_BASE_BASE.put (CXS_POOL_BASE_SZ.put 0 20) (0xA800000000 / 4096)
     rsvBad (CXS_POOL_BASE 7) v = false ∧ (up.setf (CXS_CTRL 7) CXS_CTRL_EN 0).bit (CXS_CTRL 7) CXS_CTRL_EN = false ∧ up.bit (CXS_STATUS 7) CXS_STATUS_ACTIVE = false ∧
     CXS_POOL_BASE_SZ.get v = 20 ∧ dieHbm 7 (CXS_POOL_BASE_BASE.get v * 4096) (8 * 2 ^ 20) = true) ∧
    rsvBad (CXS_CTRL 7) 1 = false ∧ up.drains = [] ∧
    (let v := CXS_CTX_CTRL_NBLK.put (CXS_CTX_CTRL_EN.put 0 1) 1
     let s := { cxs with mmio := cxs.mmio }.setf (CXS_CTX_CTRL 7 127) CXS_CTX_CTRL_EN 0
     rsvBad (CXS_CTX_CTRL 7 127) v = false ∧ CXS_CTX_CTRL_EN.get v = 1 ∧ s.bit (CXS_CTX_CTRL 7 127) CXS_CTX_CTRL_EN = false ∧
     s.bit (CXS_CTX_CTRL 7 127) CXS_CTX_CTRL_ACTIVE = false ∧ s.ctxBad 7 127 v = 0 ∧ s.ctxBad 7 127 (CXS_CTX_CTRL_EN.put 0 1) = 2) := by
  decide +kernel

/-! ### Vekin -/

/-- Inner link 7, with its hub's port in state st as f gives it and the die's port running, as g gives it. -/
def link (st : Nat) (f g : Port → Port) : State :=
  (((up.setf (VKN_PSTATUS 8 7) VKN_PSTATUS_STATE st).setf (VKN_PSTATUS 7 2) VKN_PSTATUS_STATE 2).setPort 8 7 (f Port.init)).setPort 7 2
    (g Port.init)

def port (st : Nat) (f : Port → Port) : State := link st f id

/-- A flit of SEQ 0 with no message, whose CRC field holds c. -/
def emptyFlit (c : Word) : BitVec 2048 := c.setWidth 2048 <<< 1920

theorem emptyFlit_slice (c : Word) (o n : Nat) (h : o + n ≤ 1920 ∨ 1984 ≤ o) : (emptyFlit c).extractLsb' o n = 0#n := by
  ext i hi
  simp only [emptyFlit, BitVec.getElem_extractLsb', BitVec.getLsbD_shiftLeft, BitVec.getLsbD_setWidth, BitVec.getElem_zero]
  rcases h with h | h
  · have : decide (o + i < 1920) = true := by simp; omega
    simp [this]
  · simp [BitVec.getLsbD_of_ge c (o + i - 1920) (by omega)]

theorem foldl_same {α β : Type} (f g : α → β → α) (l : List β) (h : ∀ i ∈ l, ∀ a, f a i = g a i) (a : α) : l.foldl f a = l.foldl g a := by
  induction l generalizing a with
  | nil => rfl
  | cons i l ih =>
    rw [List.foldl_cons, List.foldl_cons, h i (by simp)]
    exact ih (fun j hj => h j (by simp [hj])) _

theorem emptyFlit_byte (c d : Word) (i : Nat) (h : i < 240 ∨ 248 ≤ i) :
    (emptyFlit c).extractLsb' (8 * i) 8 = (emptyFlit d).extractLsb' (8 * i) 8 :=
  (emptyFlit_slice c (8 * i) 8 (by omega)).trans (emptyFlit_slice d (8 * i) 8 (by omega)).symm

theorem emptyFlit_crc (c d : Word) : flitCrc (emptyFlit c) = flitCrc (emptyFlit d) :=
  congrArg (· ^^^ BitVec.allOnes 64) (foldl_same _ _ _ (fun i hi a => congrArg (fun b => crcByte a b.toNat) (emptyFlit_byte c d i (by
    rcases List.mem_append.mp hi with h | h
    · exact .inl (List.mem_range.mp h)
    · obtain ⟨j, -, rfl⟩ := List.mem_map.mp h
      exact .inr (Nat.le_add_left 248 j)))) _)

theorem emptyFlit_field (c : Word) : flitW (emptyFlit c) 0xF0 = c.toNat := by
  unfold flitW
  congr 1
  ext i hi
  simp only [emptyFlit, BitVec.getElem_extractLsb', BitVec.getLsbD_shiftLeft, BitVec.getLsbD_setWidth]
  have h1 : ¬ 1920 + i < 1920 := by omega
  have h3 : 1920 + i < 2048 := by omega
  simp [h3, hi, show i < 2048 by omega]

/-- The flit with its right CRC. -/
def goodFlit : BitVec 2048 := emptyFlit (flitCrc (emptyFlit 0))

theorem goodFlit_words (o : Nat) (h : o ≤ 232 ∨ 248 ≤ o) : flitW goodFlit o = 0 := by
  unfold flitW goodFlit
  rw [emptyFlit_slice _ _ _ (by omega)]
  rfl

theorem goodFlit_crc : flitCrc goodFlit = BitVec.ofNat 64 (flitW goodFlit 0xF0) := by
  rw [goodFlit, emptyFlit_crc _ 0, emptyFlit_field, BitVec.ofNat_toNat, BitVec.setWidth_eq]

theorem goodFlit_growth : flitGrowth goodFlit = false := by
  unfold flitGrowth flitHeads flitMap
  simp only [goodFlit_words 0 (by omega), goodFlit_words 8 (by omega), goodFlit_words 248 (by omega)]
  decide +kernel

theorem meets_VekinPorts_flits :
    isPort 8 7 = true ∧ peerOf 8 7 = (7, 2) ∧ (port 2 id).portState 8 7 = 2 ∧ (port 3 id).portState 7 2 = 2 ∧
    flitCrc goodFlit = BitVec.ofNat 64 (flitW goodFlit 0xF0) ∧ flitGrowth goodFlit = false ∧
    (flitW goodFlit 0).testBit 33 = false ∧ bitsAt (flitW goodFlit 0) 48 12 = ((port 2 id).port 8 7).expect ∧
    (flitW goodFlit 0).testBit 35 = false ∧ (flitW goodFlit 0).testBit 34 = false ∧ bitsAt (flitW goodFlit 0) 14 11 = 0 ∧
    bitsAt (flitW goodFlit 0) 0 11 = 0 ∧ (∀ c, c < 14 → flitMap goodFlit c = 0) ∧
    ((port 2 id).port 7 2).replay = 0 ∧ ((port 2 id).port 7 2).sinceAck < 31 ∧ ((port 2 id).port 7 2).nak = false ∧
    ((port 2 id).port 7 2).nextSeq = ((port 2 id).port 8 7).expect ∧ ((port 2 id).port 7 2).unacked.length < 512 ∧
    Port.init.credits.length = 8 ∧ (∀ c, c < 8 → Port.init.credits.getD c 0 ≤ portBuffers.getD c 0) := by
  have h0 := goodFlit_words 0 (by omega)
  have h8 := goodFlit_words 8 (by omega)
  refine ⟨by decide +kernel, by decide +kernel, by decide +kernel, by decide +kernel, goodFlit_crc, goodFlit_growth, ?_, ?_, ?_, ?_, ?_, ?_,
    ?_, by decide +kernel, by decide +kernel, by decide +kernel, by decide +kernel, by decide +kernel, by decide +kernel,
    by decide +kernel⟩
  all_goals first | (rw [h0]; decide +kernel) | (unfold flitMap; rw [h8]; decide +kernel)

/-- The die's port has sent the good flit, which is to be sent again. -/
theorem meets_VekinPorts_replay :
    let s := link 2 id fun y => { y with unacked := [goodFlit], replay := 1, nextSeq := 1 }
    (s.port 7 2).replay = 1 ∧ (s.port 7 2).unacked.length = 1 := by decide +kernel

/-- A port whose state is that after training sends an empty flit of SEQ 0 with its right CRC. -/
theorem empty_leaves (s : State) (f : BitVec 2048) (hp : s.port 7 2 = Port.init) (hg : flitGrowth f = false)
    (hc : flitCrc f = BitVec.ofNat 64 (flitW f 0xF0)) (h0 : flitW f 0 = 0) (h8 : flitW f 8 = 0) :
    (s.sendFlit 7 2 f []).isSome = true := by
  have hz (o n : Nat) : bitsAt 0 o n = 0 := by simp [bitsAt]
  unfold State.sendFlit State.sendChunk flitMap
  simp only [hp, hg, hc, flitCredits, h0, h8, hz]
  simp [Port.init, List.range, List.range.loop, portBuffers]

theorem goodFlit_leaves (s : State) (hp : s.port 7 2 = Port.init) : (s.sendFlit 7 2 goodFlit []).isSome = true :=
  empty_leaves s _ hp goodFlit_growth goodFlit_crc (goodFlit_words 0 (by omega)) (goodFlit_words 8 (by omega))

theorem meets_VekinPorts_rejected :
    (port 2 fun x => { x with expect := 4095, rejRun := 6, rejStroke := 9 }).port 7 2 = Port.init ∧
    flitParity (goodFlit ^^^ 0) ≠ flitParity goodFlit ^^^ 1 ∧ flitSeq goodFlit = some 0 ∧
    (let x := (port 2 fun x => { x with rejRun := 6, rejStroke := 9 }).port 8 7
     x.rejRun < 7 ∧ x.rejStroke ≠ up.now) ∧
    (let x := (port 2 fun x => { x with rejRun := 7 }).port 8 7
     x.rejRun = 7 ∧ x.expect = 0) ∧
    (let x := (port 2 fun x => { x with expect := 4095, rejStroke := 9 }).port 8 7
     bitsAt (flitW goodFlit 0) 48 12 ≠ x.expect ∧ x.rejRun < 7 ∧ x.rejStroke ≠ up.now) ∧
    ¬ ((port 4 id).portState 8 7 = 2 ∨ (port 4 id).portState 8 7 = 3) := by
  have h0 := goodFlit_words 0 (by omega)
  refine ⟨by decide +kernel, fun h => ?_, ?_, by decide +kernel, by decide +kernel, ?_, by decide +kernel⟩
  · have h := congrArg (fun v => v.getLsbD 0) h
    simp at h
  · unfold flitSeq
    rw [h0]
    decide +kernel
  · rw [h0]
    decide +kernel

theorem meets_VekinPorts_states :
    (let s := (port 3 id).setf (VKN_PCTRL 8 7) VKN_PCTRL_EN 1
     rsvBad (VKN_PCTRL 8 7) (s.rd (VKN_PCTRL 8 7) &&& 1 ||| 2) = false ∧ s.portState 8 7 = 3) ∧
    (port 4 id).portState 8 7 = 4 ∧ (∀ m, m < fullWidth 8 7 → ((port 4 id).rd (VKN_PLANES 8 7)).getLsbD (4 * m + 3) = false) ∧
    ((port 4 id).port 8 7).weak = [] ∧
    (let s := (port 4 id).setf (VKN_PLANES 8 7) ⟨0, 3⟩ 3
     s.fld (VKN_PLANES 8 7) ⟨0, 3⟩ ≤ 3 ∧ (∀ m, m < fullWidth 8 7 → (s.rd (VKN_PLANES 8 7)).getLsbD (4 * m + 3) = false) ∧
       (s.port 8 7).deadSpares.getD 0 0 = 0) ∧
    ((port 4 fun x => { x with fails := 1 }).port 8 7).fails < 2 ∧
    ((port 4 fun x => { x with fails := 2 }).port 8 7).fails = 2 ∧ (port 1 id).portState 8 7 = 1 ∧ (port 0 id).portState 8 7 = 0 ∧
    rsvBad (VKN_PCTRL 8 7) (1 &&& ~~~ 2) = false ∧ rsvBad (VKN_PCTRL 8 7) (0 &&& ~~~ 2) = false ∧
    (let s : State := { (port 2 id).setf (VKN_PCTRL 8 7) VKN_PCTRL_EN 0 with drains := [⟨.rigger 8 7, 2, false⟩] }
     s.drain? (.rigger 8 7) = some ⟨.rigger 8 7, 2, false⟩ ∧ s.bit (VKN_PCTRL 8 7) VKN_PCTRL_EN = false ∧
       ∀ w ∈ s.vekin.old, w.link ≠ linkOf 8 7) := by decide +kernel

/-- The last-level store of die 7 is closed, and its last line of HBM is served. -/
theorem meets_VekinMessages :
    clsOf 5 = some Cls.crew ∧ cxs.flows 8 (dieOf 0xA800000000) = true ∧
    (match (cxs.memRead .crew 0xA800000000 128).2 with | .ok _ => true | .error _ => false) = true ∧
    (match (up.memRead .crew 0xA800000000 128).2 with | .ok _ => false | .error (e, _) => e != .held) = true ∧
    (cxs.memWrite .crew 7 0xA800000000 128 (2 ^ 1023)).2.isNone = true ∧
    (up.memWrite .crew 7 0xA800000000 128 (2 ^ 1023)).2.isSome = true ∧
    MemoryServes cxs .crew 0xA800000000 128 ∧ WriteFree cxs 0xA800000000 128 ∧
    (let l := 0xA800000000
     let s := cxs.setLine (lineKey 7 l 15) { valid := true, dirty := true, addr := l, data := 5, bad := 0 }
     LineServed s l ∧ s.hit 7 l = some 15 ∧ (s.line (lineKey 7 l 15)).bad = 0) ∧
    (let r : Rsp := ⟨7, 8, 4095, 65535, none, none, .crew⟩
     let s : State := { up with vekin := { up.vekin with rsp := [r] } }
     s.vekin.rsp = [r] ∧ r.dst = (8 : BitVec 4).toNat ∧ r.unit = (4095 : BitVec 12).toNat ∧ s.holds r.src r.dst = false) ∧
    (let i : CoxIrq := ⟨LLS_STATUS 7, 0, none⟩
     (i.reg - dieBase 0) / 0x02000000 = (7 : BitVec 3).toNat ∧ up.flows 7 8 = true) := by
  unfold MemoryServes WriteFree LineServed
  decide +kernel

/-- A store of tile 0 of one byte at the last address of a line of HBM of die 7. -/
theorem meets_VekinMessages_store :
    let a := 0xA80000007F
    let o : OutStore := ⟨0, a, 1, 5, false⟩
    let s : State := { cxs with store := { cxs.store with outStores := [o] } }
    s.store.outStores = [o] ∧ MemoryServes s .scalar a 1 ∧ WriteFree s a 1 ∧ s.flows 0 (dieOf a) = true := by
  unfold MemoryServes WriteFree LineServed
  decide +kernel

/-! ### Stroke time -/

/-- The source is c, the stroke block is in state st and the period is 10,000 ns; f gives what it keeps beside its registers. -/
def stroked (c st : Nat) (f : Stroke → Stroke) : State :=
  (((up.setf STK_CTRL STK_CTRL_SRC c).setf STK_STATUS STK_STATUS_STATE st).setf STK_PERIOD STK_PERIOD_PERIOD_NS 10000).strk f

theorem meets_StrokeSourceAndLock_edges :
    (∀ p ∈ (stroked 1 2 id).fabric.crews, p.2.state ≠ 2) ∧ (99 : BitVec 16).toNat < 100 ∧ 400 < (401 : BitVec 16).toNat ∧
    (799 : BitVec 16).toNat < 800 ∧ 1600 < (1601 : BitVec 16).toNat ∧ (stroked 1 2 id).src = 1 ∧ (stroked 1 2 id).stkState = 2 ∧
    (stroked 1 2 id).fld STK_IN_COMP STK_IN_COMP_COMP_NS = 0 ∧ 1024 * (9 - 0) ≤ (stroked 1 2 id).fld STK_PERIOD STK_PERIOD_PERIOD_NS ∧
    (let s := stroked 1 1 fun k => { k with qual := 15, slewed := true }
     s.pllRuns = true ∧ s.src = 1 ∧ s.stkState = 1 ∧ s.stroke.qual = 15 ∧ s.bit STK_CTRL STK_CTRL_STEP_OK = false) ∧
    ((stroked 1 1 id).stkState = 1 ∧ (stroked 1 1 id).stroke.slewed = false) ∧
    (let s := (stroked 1 2 id).wr STK_NOW 65535
     s.now.toNat % 65536 ≠ 0 ∧ s.bit STK_NUM_LOAD STK_NUM_LOAD_PEND = false ∧ s.stkState = 2) ∧
    (stroked 1 2 id).stroke.edgeCatch ≠ some (stroked 1 2 id).now ∧ (stroked 1 2 id).stroke.missRun = 0 ∧
    (stroked 1 2 fun k => { k with missRun := 1 }).stroke.missRun = 1 := by decide +kernel

theorem meets_StrokeSourceAndLock_others :
    (let s := ((stroked 2 1 fun k => { k with qual := 15, slewed := true }).setf STK_CTRL STK_CTRL_PTP_PORT 3).wr FAB_STATUS 8
     s.src = 2 ∧ s.fld STK_CTRL STK_CTRL_PTP_PORT = 3 ∧ s.fabUp 3 = true ∧ s.stroke.grandmaster = none ∧ s.stkState = 1 ∧
     s.stroke.ptp.getD 0 0 = (0 : BitVec 8).toNat ∧ s.stroke.ptp.getD 1 0 = (0 : BitVec 2).toNat ∧ s.stroke.ptp.getD 1 0 ≠ (1 : BitVec 2).toNat ∧
     -7 ≤ (0xF9 : BitVec 8).toInt ∧ (0xF9 : BitVec 8).toInt ≤ 0 ∧
     s.stroke.lockedOnce = false ∧ s.bit STK_CTRL STK_CTRL_STEP_OK = false ∧ (s.rd STK_EPOCH).toNat ≤ 0 ∧
     1024 * (9 : Int).natAbs ≤ s.fld STK_PERIOD STK_PERIOD_PERIOD_NS) ∧
    (stroked 2 2 id).src = 2 ∧ (stroked 2 2 id).stkState = 2 ∧
    (let s := (stroked 0 3 id).setf STK_HOLD_CNT STK_HOLD_CNT_COUNT 65536
     65536 ≤ s.fld STK_HOLD_CNT STK_HOLD_CNT_COUNT ∧ s.stkState = 3) ∧
    (let v := STK_CTRL_EVT_EN.put (STK_CTRL_SRC.put 0 2) ((stroked 0 2 id).fld STK_CTRL STK_CTRL_EVT_EN)
     rsvBad STK_CTRL v = false ∧ STK_CTRL_SRC.get v = 2 ∧ (stroked 0 2 id).src = 0 ∧ (stroked 0 2 id).drains = [] ∧
     STK_CTRL_EVT_EN.get v = (stroked 0 2 id).fld STK_CTRL STK_CTRL_EVT_EN) ∧
    rsvBad STK_PERIOD (STK_PERIOD_PERIOD_NS.put 0 2000) = false ∧ rsvBad STK_PERIOD (STK_PERIOD_PERIOD_NS.put 0 100001) = false ∧
    STK_PERIOD_PERIOD_NS.get (STK_PERIOD_PERIOD_NS.put 0 100001) = 100001 ∧ (stroked 0 0 id).stkState = 0 ∧
    ((0xFFFF0000 : Word) &&& 0xFFFC = 0) := by decide +kernel

/-- Entry 511 of the table: its STATE, KIND, TARGET, ARG and REPEAT, due in this stroke at phase 1023. -/
def entry (st kind target arg rep : Nat) : State :=
  ((((up.wr STK_GRP_OWNER 0).setf STK_CTRL STK_CTRL_EVT_EN 1).wr (STK_EVT_W1 511) (BitVec.ofNat 64 (arg * 2 ^ 32 + kind * 2 ^ 28 + target * 1024 + 1023))).wr
    (STK_EVT_W2 511) (BitVec.ofNat 64 rep)).setf (STK_EVT_W3 511) STK_EVT_W3_STATE st

theorem meets_CatchEventTable_registers :
    (entry 0 7 16383 1 0).drains = [] ∧ (entry 0 7 16383 1 0).evtOwner 511 = 0 ∧ (entry 0 7 16383 1 0).evtState 511 ≠ 1 ∧
    rsvBad (STK_EVT_DUE 511 + 8 * 2) 0 = false ∧ (entry 1 7 16383 1 0).evtState 511 = 1 ∧
    (entry 0 0 0 0 0).evtOwner 511 ≠ 255 / 32 + 1 ∧ (entry 0 7 16383 1 0).armBad 511 = none ∧
    (entry 0 8 256 1 0).armBad 511 = some STK_STATUS_ARG_ERR ∧ (entry 0 9 0 0 0).armBad 511 = some STK_STATUS_VER_ERR ∧
    (entry 2 0 0 0 0).firesNow 511 = false := by decide +kernel

theorem meets_CatchEventTable_firing :
    (let s := entry 1 8 255 8 3
     s.evtNext = some (1023, 511) ∧ s.evtDue 511 = s.now ∧ s.bit STK_CTRL STK_CTRL_EVT_EN = true ∧ s.easy = false ∧
     s.evtKind 511 ∈ [0, 4, 7, 8] ∧ 0 < s.fld (STK_EVT_W2 511) STK_EVT_W2_REPEAT) ∧
    (entry 1 0 0 0 0).evtNext = some (1023, 511) ∧ (entry 1 0 0 0 0).fld (STK_EVT_W2 511) STK_EVT_W2_REPEAT = 0 ∧
    (let s := (entry 1 8 255 8 3).setf STK_CTRL STK_CTRL_EVT_EN 0
     s.evtNext = some (1023, 511) ∧ s.bit STK_CTRL STK_CTRL_EVT_EN = false) ∧
    (let e : EventMsg := ⟨511, 8, 255, 511, 0⟩
     let s := up.strk fun k => { k with inFlight := [e] }
     s.drains = [] ∧ s.stroke.inFlight = [e] ∧ s.flows 8 e.die = true ∧ s.ring (e.arg / 8) = none) ∧
    STK_CTRL_SRC.get (up.rd STK_CTRL) ≠ 3 ∧ rsvBad STK_CTRL (STK_CTRL_EVT_EN.put (up.rd STK_CTRL) 1) = false ∧
    up.stroke.inFlight = [] := by decide +kernel

theorem meets_CatchAndTick :
    up.evtNext = none ∧ up.pllRuns = true ∧ up.fabric.crews = [] ∧ up.fabric.ctxs = [] ∧ up.fabric.waits = [] ∧ up.fabric.ops = [] ∧
    up.host.posted = [] ∧ up.host.reads = [] ∧ up.store.memInfo = [] ∧ up.boot.dataReset = none ∧
    up.bit STK_NUM_LOAD STK_NUM_LOAD_PEND = false ∧ up.stkPhase ≤ (1023 : BitVec 10).toNat ∧
    up.bit DEV_STATUS DEV_STATUS_COX_RST = false := by decide +kernel

/-! ### The Cox: mailboxes, sessions, long operations -/

/-- The session with the last number, of a BAR0 client, with this role. -/
def ses (role : Nat) : Session :=
  { num := 65535, party := 0, client := 7, role := role, minor := 0, mask := 8190, irq := false, vec := 0, queue := [], lost := 0, lastTick := 0 }

/-- A request of that session in the last mailbox: a code, LEN and the payload. -/
def req (code len : Nat) (ws : List Word) : CoxReq :=
  { origin := .bar0 511, h0 := BitVec.ofNat 64 (65535 * 2 ^ 48 + code * 65536), h1 := BitVec.ofNat 64 len, rest := false, tick := 0, words := ws }

/-- s, where the request is the only one in the Cox's queue and its session is open with this role. -/
def askIn (s : State) (role code len : Nat) (ws : List Word) : State :=
  { s with cox := { s.cox with queue := [req code len ws], sessions := [ses role] } }
def ask (role code len : Nat) (ws : List Word) : State := askIn up role code len ws

theorem meets_CoxCheckOrder :
    IsCoxCommand false 0x0080 2 false .pairJoin ∧ (ask 1 0x80 0 []).coxIdle = false ∧ (ask 1 0x80 0 []).cox.queue = [req 0x80 0 []] ∧
    (req 0x80 0 []).cmd = 0x80 ∧ (req 0x80 0 []).growth = false ∧ ({ req 0x80 0 [] with rest := true } : CoxReq).growth = true ∧
    up.sessionOf (req 0x80 0 []) = none ∧ ((ask 1 0x80 0 []).sessionOf (req 0x80 0 [])).isSome = true ∧
    (taken (ask 1 0x80 0 []) (req 0x80 0 [])).sessionOf (req 0x80 0 []) = some (ses 1) ∧ roleOk 1 2 false = false := by
  refine ⟨by unfold IsCoxCommand; simp, by decide +kernel, by decide +kernel, by decide +kernel, by decide +kernel, by decide +kernel, by decide +kernel,
    by decide +kernel, by decide +kernel, by decide +kernel⟩

theorem meets_CoxAnswerReaches :
    (req 0x80 0 []).origin = .bar0 511 ∧ (Ans.ok (List.replicate 504 0)).payload.length ≤ 504 ∧ (up.mailbox 511).freeAtEnd = false ∧
    ((up.setMailbox 511 { Mailbox.free with freeAtEnd := true }).mailbox 511).freeAtEnd = true ∧ up.cox.log.length + 2 ≤ 4096 := by decide +kernel

/-- s, when n management ticks have passed. -/
def atTick (n : Nat) (s : State) : State := { s with stroke := { s.stroke with ticks := n } }

/-- The host's accesses are open; mailbox 511 is in state st, the others are claimed. -/
def boxes (st : Nat) (code : Nat) : State :=
  let s := ((up.setf PCI_STATUS PCI_STATUS_MSE 1).setf PCI_STATUS PCI_STATUS_FRST 0).setMailbox 511 { state := st, tick := 0, freeAtEnd := false }
  (s.setMailWord 511 0 (req code 0 []).h0) |> atTick 1000

theorem meets_MailboxCommands :
    (boxes 1 3).hostOpen = true ∧ (boxes 1 3).host.posted = [] ∧ (boxes 1 3).host.reads = [] ∧ ((boxes 1 3).mailbox 511).state = 1 ∧ ((boxes 3 3).mailbox 511).state = 3 ∧ (boxes 1 3).cox.queue = [] ∧
    coxCodes.contains ((boxes 1 3).mailReq 511).cmd = true ∧ ((boxes 0 3).mailbox 511).state = 0 ∧ ((boxes 2 3).mailbox 511).state = 2 ∧
    (let s := { boxes 1 0xFFFF with cox := { (boxes 1 0xFFFF).cox with sessions := [ses 0] } }
     coxCodes.contains (s.mailReq 511).cmd = false ∧ s.coxIdle = false ∧ (s.mailReq 511).growth = false ∧ (s.mailbox 511).freeAtEnd = false ∧
     (s.sessionOf (s.mailReq 511)).isSome = true) ∧
    ((boxes 1 3).mailbox 511).tick + 1000 ≤ (boxes 1 3).stroke.ticks ∧ (boxes 0 3).hostOpen = true ∧ ((boxes 0 3).mailbox 0).state = 0 ∧
    ({ up with cox := { up.cox with queue := List.replicate 8 { req 3 0 [] with origin := .mctp 255 0 } } } : State).cox.queue.length = 8 := by
  decide +kernel

/-- All 512 mailboxes are claimed. -/
def claimed : State :=
  { boxes 1 3 with cox := { (boxes 1 3).cox with mailboxes := (List.range 512).map fun m => (m, { state := 1, tick := 0, freeAtEnd := false }) } }

theorem meets_MailboxCommands_none : claimed.hostOpen = true ∧ ∀ j, j < 512 → (claimed.mailbox j).state ≠ 0 := by decide +kernel

/-- A HELLO of a CONTROLLER for the interface 2.0 (Table 11.9). -/
def helloReq : CoxReq :=
  { req 1 24 [BitVec.ofNat 64 (2 * 2 ^ 56 + 2 * 2 ^ 40 + 2 * 2 ^ 32 + 2 ^ 30), 7, 8190] with h0 := BitVec.ofNat 64 65536 }
def greeting : State := { up with cox := { up.cox with queue := [helloReq] } }

theorem meets_SessionCommands_hello :
    greeting.cox.queue = [helloReq] ∧ helloReq.cmd = 1 ∧ helloReq.session = 0 ∧ greeting.coxIdle = false ∧ helloReq.growth = false ∧
    helloReq.len = 24 ∧ helloReq.origin.party ≠ 2 ∧
    (let w0 := helloReq.words.getD 0 0
     field w0 31 30 < 2 ∧ field w0 17 0 = 0 ∧ helloReq.w 2 < 8192 ∧ helloReq.w 2 % 2 = 0 ∧ field w0 63 56 = 2 ∧ field w0 47 40 ≤ 2 ∧
     2 ≤ field w0 39 32) ∧ greeting.cox.sessions.length < 4096 ∧ (∀ x ∈ greeting.cox.sessions, x.num ≠ 0) ∧
    greeting.freeSession = some 1 := by decide +kernel

theorem meets_SessionCommands :
    CoxServes (ask 0 2 0 []) 2 0 true (req 2 0 []) (ses 0) ∧ (req 2 0 []).len = 0 ∧ (∀ l ∈ (ask 0 2 0 []).cox.lops, l.session ≠ 65535) ∧
    CoxServes (ask 3 3 0 []) 3 0 true (req 3 0 []) (ses 3) ∧ CoxServes (ask 0 4 8 [251]) 4 0 false (req 4 8 [251]) (ses 0) ∧
    (req 4 8 [251]).len = 8 ∧ (req 4 8 [251]).w 0 = 251 ∧
    ((taken (ask 0 4 8 [251]) (req 4 8 [251])).cox.sessions.find? (·.num == (ses 0).num)) = some (ses 0) ∧
    CoxServes (ask 0 5 8 [8190]) 5 0 false (req 5 8 [8190]) (ses 0) ∧ (req 5 8 [8190]).w 0 = 8190 ∧
    (let s := atTick 1000 (ask 0 2 0 [])
     (s.cox.sessions.find? (·.num == (65535 : BitVec 16).toNat)) = some (ses 0) ∧ s.lastDoor (ses 0) + 1000 ≤ s.stroke.ticks ∧
     s.bit DEV_STATUS DEV_STATUS_COX_RST = false ∧ s.cox.lops = []) := by
  unfold CoxServes; decide +kernel

/-- An operation of that session in state st with handle 9. -/
def lopOf (cmd st : Nat) : Lop :=
  { handle := 9, cmd := cmd, state := st, status := 0, progress := 0, total := 0, startTick := 0, endTick := 0, cause := 0, session := 65535
    party := 0, client := 7, detach := false, suspend := false, cancel := false, args := [], result := [] }
def withLop (s : State) (l : Lop) : State := { s with cox := { s.cox with lops := [l], nextHandle := 10 } }

theorem meets_LongOperationCommands :
    (∀ p ∈ [(0x10, 0, 5), (0x11, 1, 0), (0x11, 1, 1), (0x12, 1, 2), (0x13, 1, 2), (0x13, 1, 1)],
      let s := withLop (ask 1 p.1 8 [9]) (lopOf 0x92 p.2.2)
      CoxServes s p.1 p.2.1 false (req p.1 8 [9]) (ses 1) ∧ (taken s (req p.1 8 [9])).lop 9 = some (lopOf 0x92 p.2.2)) ∧
    CoxServes (ask 0 0x10 8 [9]) 0x10 0 false (req 0x10 8 [9]) (ses 0) ∧ (taken (ask 0 0x10 8 [9]) (req 0x10 8 [9])).lop 9 = none ∧
    CoxServes (ask 0 0x14 8 [0]) 0x14 0 false (req 0x14 8 [0]) (ses 0) ∧
    (let s := atTick 60000 (withLop up (lopOf 0x92 3))
     s.lop 9 = some (lopOf 0x92 3) ∧ (lopOf 0x92 3).live = false ∧ 60000 ≤ (s.stroke.ticks + 2 ^ 32 - (lopOf 0x92 3).endTick) % 2 ^ 32) := by
  unfold CoxServes; decide +kernel

/-- An open MCTP session whose queue holds n records. -/
def mctpSes (n : Nat) : Session := { ses 0 with party := 1, queue := List.replicate n { ev := ⟨5, 0, 0, 0⟩, tick := 0, stroke := 0 } }
def mctpOpen (n : Nat) : State := { up with cox := { up.cox with sessions := [mctpSes n] } }

/-- R288: an event asserts ALERT_N; the 65th is counted as lost. -/
theorem test_alert :
    (mctpOpen 0).alertLow = false ∧ ((mctpOpen 0).sessionEvent (mctpSes 0) ⟨5, 0, 0, 0⟩).alertLow = true ∧
    (mctpOpen 64).cox.sessions.find? (·.num == (mctpSes 64).num) = some (mctpSes 64) ∧ 64 ≤ (mctpSes 64).queue.length ∧
    ((mctpOpen 64).sessionEvent (mctpSes 64) ⟨5, 0, 0, 0⟩).cox.sessions = [{ mctpSes 64 with lost := 1 }] := by decide +kernel

/-! ### The Cox: long commands, tiles, events, logs -/

/-- Code, needed role, LEN and payload of requests; s serves each of them, and f holds of the state that does. -/
def ServedAll (s : State) (f : State → Prop) (l : List (Nat × Nat × Nat × List Word)) : Prop :=
  ∀ p ∈ l, CoxServes (askIn s 2 p.1 p.2.2.1 p.2.2.2) p.1 p.2.1 false (req p.1 p.2.2.1 p.2.2.2) (ses 2) ∧ (req p.1 p.2.2.1 p.2.2.2).len = p.2.2.1 ∧
    f (askIn s 2 p.1 p.2.2.1 p.2.2.2)

theorem meets_LongCommandsAccepted :
    ServedAll (up.setf SEC_STATUS SEC_STATUS_STAGED 1)
      (fun s => s.lopsFull = false ∧ tilesBad 255 1 = false ∧ s.tilesStop (tilesOf 255 1) = none ∧ s.easy = false ∧
        s.slot32Live 7 = false ∧ s.reach 8 7 = true ∧ (s.memInfo 63).retired = false ∧ s.reach 8 (memDie 63) = true ∧ s.liveOf 0x81 = none ∧
        s.liveOf 0xA0 = none ∧ s.liveOf 0xA1 = none ∧ s.liveOf 0xB0 = none ∧ s.liveOf 0x92 = none ∧ s.fwBusy = false ∧ s.pstate = 0 ∧
        s.bootStage = 7 ∧ s.fabric.crews = [] ∧ s.bit SEC_STATUS SEC_STATUS_STAGED = true)
      [(0x42, 2, 24, [255, 1, 1]), (0x61, 1, 32, [7, 5, 0, 0]), (0x62, 2, 24, [7, 13, 15]), (0x63, 2, 8, [63]), (0x81, 2, 0, []), (0x91, 2, 8, [0]),
        (0x92, 2, 8, [255]), (0xA0, 2, 16, [0, 0]), (0xA1, 2, 0, []), (0xB0, 2, 8, [2])] := by
  unfold ServedAll CoxServes; decide +kernel

/-- Every memory is in thermal state NORMAL. -/
def cool : State := (List.range 64).foldl (fun s m => s.setf (HBM_STATE m) HBM_STATE_TSTATE 0) up

theorem meets_LongCommandsAccepted_scrub :
    ServedAll cool (fun s => s.lopsFull = false ∧ s.easy = false ∧ ∀ m, m < 64 → s.memDown m = false)
      [(0x60, 2, 16, [0, 0xC000000000])] := by
  unfold ServedAll CoxServes; decide +kernel

/-- A PAIR_JOIN with INTERVAL 65,535 and empty areas at the end of HBM (Table 14.4). -/
def pairJoinWords : List Word :=
  [1, BitVec.ofNat 64 (65535 * 2 ^ 32), 0, 0xBFFFFF0000, 0x10000, 0xBFFFFF0000, 0x10000, 0xBFFFFF0000, 0x10000, 0, 1, 0]

theorem meets_LongCommandsAccepted_join :
    let s := askIn (up.wr STK_GRP_OWNER 0) 2 0x80 96 pairJoinWords
    CoxServes s 0x80 2 false (req 0x80 96 pairJoinWords) (ses 2) ∧ (req 0x80 96 pairJoinWords).len = 96 ∧ s.lopsFull = false ∧
    firstBad (s.joinChecks (req 0x80 96 pairJoinWords)) = none ∧ s.pstate = 0 ∧ s.liveOf 0x80 = none ∧ s.liveOf 0x81 = none ∧
    (∀ i, i < 256 → s.regMode i < 2) ∧ s.freeEntry.isSome = true ∧ s.freeCtx.isSome = true := by
  unfold CoxServes; decide +kernel

/-- A CREW_FORM of one member that leads (Table 13.4). -/
def formWords : List Word :=
  [7, BitVec.ofNat 64 (2 ^ 59 + 2 ^ 54 + 24 * 2 ^ 49 + 16 * 2 ^ 44 + 16383 * 2 ^ 30 + 2 ^ 15), BitVec.ofNat 64 (2 ^ 32 + 16), 0,
    BitVec.ofNat 64 (2 ^ 47 + 2 ^ 38 + 2 ^ 30 + 2 ^ 26), 0, 0x10000, 0, 0, 0]

theorem meets_LongCommandsAccepted_crews :
    CoxServes (ask 1 0x71 80 formWords) 0x71 1 false (req 0x71 80 formWords) (ses 1) ∧ (req 0x71 80 formWords).len = 80 ∧
    firstBad (crewFormChecks { Crew.none with p := formWords, state := 1 }) = none ∧ Crew.lead { Crew.none with p := formWords } = true ∧
    Crew.nmem { Crew.none with p := formWords } = 1 ∧ (ask 1 0x71 80 formWords).fabric.crews = [] ∧
    ServedAll (up.setCrew 1023 { Crew.none with state := 2 })
      (fun s => (s.crew 1023).state = 2 ∧ s.otherOwns 3 1023 (ses 2) = false ∧ (s.crew 1023).leaving = none) [(0x72, 1, 16, [1023, 0])] := by
  unfold ServedAll CoxServes; decide +kernel

theorem meets_LongOperationProgress :
    (∀ p ∈ [(0x63, 0), (0xB0, 0), (0x60, 0), (0x60, 1)], (withLop up (lopOf p.1 p.2)).lop (9 : BitVec 32).toNat = some (lopOf p.1 p.2)) ∧ up.coxIdle = false ∧
    (lopOf 0x63 0).startTick = 0 ∧ up.store.codewords = [] ∧
    (let l : Lop := { lopOf 0x60 1 with suspend := true, total := 1, args := [0, 65536, 0, 0] }
     (withLop up l).lop 9 = some l ∧ l.progress < l.total) ∧
    (let l : Lop := { lopOf 0x60 1 with cancel := true, total := 1, progress := 1 }
     (withLop up l).lop 9 = some l ∧ l.total ≤ l.progress) ∧
    (let l : Lop := { lopOf 0x42 1 with args := [255, 1, 0] }
     let s := (withLop up l).setf (TIL_DM_CTRL 255) TIL_DM_CTRL_EN 0
     s.lop 9 = some l ∧ s.drains = [] ∧ s.links.buckles = [] ∧ s.bit (TIL_DM_CTRL 255) TIL_DM_CTRL_EN = false) := by decide +kernel

/-- TILE_START of the last tile at user level. -/
def startWords : List Word := [255, 1, 0x200, 0x100, 0x100, 4, 4, 4, 4, 0xFFFFFFFFFFFC, 1]

theorem meets_CoxTileCommands :
    ServedAll (up.setf (TIL_ESC 255) TIL_ESC_VALID 1)
      (fun s => s.tilesStop (tilesOf 255 1) = none ∧ (∀ t ∈ tilesOf 255 1, (s.tile t).mode = .idle) ∧
        ∀ t ∈ tilesOf 255 1, s.bit (TIL_ESC t) TIL_ESC_VALID = true)
      [(0x40, 1, 88, startWords), (0x41, 1, 88, startWords), (0x43, 1, 16, [255, 1]), (0x44, 1, 24, [255, 1, 0xFFFFFFFFFFFF])] ∧
    tilesBad 255 1 = false ∧ firstBad (startChecks (req 0x40 88 startWords)) = none ∧
    rsvBad (TIL_COX_NOTE 255) 0xFFFFFFFFFFFF = false := by
  unfold ServedAll CoxServes; decide +kernel

/-- EVENT_ARM of a BUCKLE_ADD to buckle 16,383. -/
def armWords : List Word := [0, BitVec.ofNat 64 (2 ^ 32 + 7 * 2 ^ 28 + 16383 * 1024 + 1023), 0]

theorem meets_CoxEventStrokeAndLogCommands :
    ServedAll ((up.wr STK_GRP_OWNER 0).setf STK_PERIOD STK_PERIOD_PERIOD_NS 100000)
      (fun s => s.freeEntry = some 0 ∧ s.fld STK_PERIOD STK_PERIOD_PERIOD_NS = 100000 ∧ s.drains = [] ∧ rsvBad STK_CTRL (s.rd STK_CTRL) = false ∧
        (∀ p ∈ s.fabric.crews, p.2.state ≠ 2) ∧ s.src ≠ 2 ∧ s.fld SEC_DEBUG SEC_DEBUG_LEVEL = 0)
      [(0x48, 1, 24, armWords), (0x50, 2, 88, [2, 1, 1, 100000, 4095, 0, 7, 127, 2, 0, 0]), (0x51, 2, 8, [0xFFFFFFFFFFFF]), (0x23, 0, 16, [0, 0]),
        (0x23, 0, 16, [1, 0]), (0x24, 0, 8, [0])] ∧
    rsvBad (STK_EVT_W1 0) (armWords.getD 1 0) = false ∧ STK_EVT_W1_VER.get (armWords.getD 1 0) = 0 ∧ STK_EVT_W1_KIND.get (armWords.getD 1 0) = 7 ∧
    evtRange 7 (STK_EVT_W1_TARGET.get (armWords.getD 1 0)) (STK_EVT_W1_ARG.get (armWords.getD 1 0)) = true ∧ rsvBad (STK_EVT_W2 0) 0 = false ∧
    ServedAll { up with cox := { up.cox with owners := [⟨2, 511, 0, 7⟩] } }
      (fun s => s.owned 2 511 = some ⟨2, 511, 0, 7⟩ ∧ s.firesNow 511 = false) [(0x49, 1, 8, [511])] ∧
    ServedAll (up.setf SEC_DEBUG SEC_DEBUG_LEVEL 1) (fun s => 0 < s.fld SEC_DEBUG SEC_DEBUG_LEVEL) [(0x23, 0, 16, [1, 0])] := by
  unfold ServedAll CoxServes; decide +kernel

/-! ### The host -/

/-- The function answers; BAR2 spans the whole address space; die 7's memory 14 is trained. -/
def hosted : State :=
  let s := ((up.setf PCI_STATUS PCI_STATUS_MSE 1).setf PCI_STATUS PCI_STATUS_FRST 0).setf PCI_STATUS PCI_STATUS_BME 1
  { s.setf (HBM_STATE 14) HBM_STATE_TSTATE 0 with host := { up.host with bar2 := 42, pend := [2047], msixOn := true } }

theorem meets_HostRequests :
    HostCalm hosted ∧ hosted.doorOf 0xFFF000 = none ∧ (0xFFF000 : Nat) + 4096 ≤ 0x1000000 ∧
    (let a := 0xA800000040
     a % 128 + 64 ≤ 128 ∧ a + 64 ≤ 2 ^ hosted.host.bar2 ∧ hosted.bar2Addr false a = some a ∧ hosted.bar2Addr true a = some a ∧ hosted.planeDown = false ∧
     hosted.flows 8 (dieOf a) = true ∧ MemoryServes hosted .host a 64 ∧ WriteFree hosted a 64 ∧
     (let s := { hosted with store := { hosted.store with restores := [⟨a / 4096, 0, true⟩] } }
      HostCalm s ∧ s.bar2Addr false a = some a ∧ regionOf a = .hbm (memOf (a / 128 * 128)) ∧ s.restoring (a / 128 * 128) = true ∧
        s.bit (RAS_INJECT 7) RAS_INJECT_ARM = false ∧ s.homeDown 7 14 = false)) ∧
    hosted.bar2Addr false 0x00C000000000 = none ∧ (0x00C000000000 : Nat) + 4096 ≤ 2 ^ hosted.host.bar2 := by
  unfold HostCalm MemoryServes WriteFree LineServed
  decide +kernel

theorem meets_HostRequests_registers :
    (let s := hosted.setMailbox 511 { Mailbox.free with state := 1 }
     boxOf 0x4FE000 = some (511, 0) ∧ (0 : Nat) + 512 ≤ 0x1000 ∧ (s.mailbox 511).state = 1 ∧ (hosted.mailbox 511).state = 0) ∧
    rsvBad HOST_INT_MASK 15 = false ∧ 2047 ∈ hosted.host.pend ∧ hosted.bit PCI_STATUS PCI_STATUS_BME = true ∧ hosted.host.msixOn = true ∧ hosted.host.fmask = false ∧
    2046 ∉ hosted.host.pend ∧ 30 ≤ (30 : BitVec 6).toNat ∧ (42 : BitVec 6).toNat ≤ 42 ∧
    (let s := { hosted with host := { hosted.host with msix := [(2 * 2047 + 1, 0)] } }
     ∀ v ∈ s.host.pend, (SMap.get msixDefault s.host.msix (2 * v + 1)).getLsbD 32 = false) := by decide +kernel

/-- A window of 64 KiB at the end of BAR2, over the end of HBM, readable and writable. -/
def winWords : List Word := [0x7FFFF0000, 0xBFFFFF0000, 0x10000, 6]

theorem meets_HostFunction_commands :
    ServedAll { up with host := { up.host with bar2 := 35 } }
      (fun s => s.host.bar2 = 35 ∧ ∀ j, j < 64 → s.bit (PCI_WIN_W0 j) PCI_WIN_W0_V = false) [(0x38, 1, 32, winWords)] ∧
    ServedAll (up.setf (PCI_WIN_W0 63) PCI_WIN_W0_V 1)
      (fun s => s.bit (PCI_WIN_W0 63) PCI_WIN_W0_V = true ∧ s.otherOwns 1 63 (ses 2) = false) [(0x39, 1, 8, [63])] ∧
    ServedAll up (fun _ => True) [(0x21, 0, 8, [15]), (0x22, 0, 16, [156, 100]), (0x20, 0, 0, [])] := by
  unfold ServedAll CoxServes; decide +kernel

theorem meets_HostFunction_outbound :
    (let l := lopOf 0xA0 1
     let s := { withLop hosted l with sec := { hosted.sec with stage := some (9, 0, 3) } }
     s.hostDown = false ∧ s.sec.stage = some ((9 : BitVec 32).toNat, 0, 3) ∧ s.lop 9 = some l ∧ l.state = 1 ∧
     [1, 2, 3].length = min 65536 (3 - s.sec.staged.length)) ∧
    (let q := { copySlot false with next := 1, host := some (0, 0), asked := 1 }
     let s := hosted.setTile 255 { Tile.start with dmSlots := [q] }
     s.hostDown = false ∧ s.slot 255 5 = some q ∧ dmCount q.entry.words ≤ q.next ∧ q.ending = none ∧ q.answered = 0 ∧ s.stilled 255 = false ∧
     s.bkReady 255 q.entry.words = true) := by decide +kernel

theorem meets_HostFunction_resets :
    hosted.tiles = [] ∧ hosted.cox.sessions = [] ∧ hosted.sec.stage = none ∧ hosted.bit DEV_STATUS DEV_STATUS_COX_RST = false ∧ hosted.bit PCI_STATUS PCI_STATUS_FRST = false ∧
    ({ up with host := { up.host with perst := true } } : State).host.perst = true ∧ 4 ≤ up.boot.rails ∧ up.host.perst = false ∧
    (16 : BitVec 5).toNat ∈ [1, 4, 8, 16] := by decide +kernel

/-- A ring of 4,096 entries whose entry at HEAD is for tile 255 alone; free count 0, ready count 63. -/
def ring (st tail : Nat) : Ring :=
  { party := 0, client := 7, log2n := 12, free := 0, rdy := 63, nirq := false, vec := 0, land := 0x5FFE00, base := 0, tail := tail, head := 0
    state := st, err := 0, notify := 0, next := 0, asked := false, granted := false, counts := [] }
def ringed (g : Ring) (free : Nat) : State :=
  let s : State := { hosted with cox := { hosted.cox with rings := [(63, g)] }, host := { hosted.host with bar4 := [(6, 255)] } }
  if free = 0 then s else { s with links := { s.links with buckles := [(64 * 255, ⟨free, []⟩)] } }

theorem meets_LaunchRings_commands :
    (let ws : List Word := [BitVec.ofNat 64 (12 * 2 ^ 56 + 63 * 2 ^ 44), 0x5FFE00]
     ServedAll hosted (fun s => freeFrom (s.cox.rings.map (·.1)) 0 64 = some 0 ∧ s.bar4Room (2 ^ 12 * 64) = some 0) [(0x30, 1, 16, ws)] ∧
     field (ws.getD 0 0) 63 60 = 0 ∧ field (ws.getD 0 0) 31 0 = 0 ∧ field (ws.getD 0 0) 59 56 = 12 ∧
     field (ws.getD 0 0) 55 50 ≠ field (ws.getD 0 0) 49 44 ∧ field (ws.getD 1 0) 63 23 = 0 ∧ field (ws.getD 1 0) 22 0 % 512 = 0) ∧
    ServedAll (ringed (ring 0 0) 0) (fun s => s.ring 63 = some (ring 0 0)) [(0x31, 1, 8, [63])] := by
  unfold ServedAll CoxServes; decide +kernel

theorem meets_LaunchRings :
    HostCalm (ringed (ring 1 1) 1) ∧ (ring 1 1).base % 4096 = 0 ∧
    (∀ j, j < 5 → (ringed (ring 1 1) 1).doorOf ((ring 1 1).door + 8 * j) = some (63, ring 1 1)) ∧ (ringed (ring 1 1) 1).ring 63 = some (ring 1 1) ∧ (ringed (ring 3 4096) 1).ring 63 = some (ring 3 4096) ∧
    (ring 3 4096).ahead ≤ (ring 3 4096).size ∧ (4096 + 2 ^ 32 - (ring 1 1).head) % 2 ^ 32 ≤ 2 ^ (ring 1 1).log2n ∧
    2 ^ (ring 1 1).log2n < (4097 + 2 ^ 32 - (ring 1 1).head) % 2 ^ 32 ∧
    (let s := ringed (ring 1 1) 1
     let w := s.entryWord (ring 1 1) 0
     s.entryErr w = none ∧ field w 38 38 = 0 ∧ field w 55 48 = 255 ∧ field w 47 40 = 0 ∧ s.buckle (64 * 255) = ⟨1, []⟩ ∧
     s.buckle (64 * 255 + 63) = ⟨0, []⟩ ∧ (1 : Nat) < bkMax ∧
     s.landFault 255 = false ∧ s.moving 255 = false ∧ s.holds 8 7 = false ∧
     s.dataBad (storeBase 255 + (ring 1 1).land) 64 = false) ∧
    (let s := ringed (ring 1 1) 0
     s.entryErr (s.entryWord (ring 1 1) 0) = none ∧ s.buckle (64 * 255) = ⟨0, []⟩ ∧ s.links.done.contains (.launch 63) = false) ∧
    (let s := { ringed (ring 1 1) 0 with host := { hosted.host with bar4 := [(7, 1)] } }
     s.entryErr (s.entryWord (ring 1 1) 0) = some 1) := by
  unfold HostCalm
  decide +kernel

/-! ### Crews and the fabric -/

/-- Member 16,383 of the active crew 1,023, which f gives; the engine is enabled. -/
def crewed (f : Crew → Crew) : State :=
  (up.setCrew 1023 (f { Crew.none with
    state := 2, p := [7, BitVec.ofNat 64 (2 ^ 59 + 2 ^ 54 + 16383 * 2 ^ 30 + 2 ^ 15), BitVec.ofNat 64 (2 ^ 32 + 16)]
    members := [⟨16383, 1023, none, 0, 0, 65536, true, false⟩], leader := some 16383, handle := 9 })).setf CRW_CTRL CRW_CTRL_EN 1

/-- A barrier of that crew at phase 2³² − 1. -/
def barrierWords : List Word := [BitVec.ofNat 64 (1023 * 2 ^ 38 + 0xFFFFFFFF), 0, 0, 0, 0, 0, 0, 0]
def barrierOp (i : Nat) (started : Bool) : CrewOp := { newCrewOp i (crewDescriptor 6 barrierWords) with started := started }

theorem meets_CrewSubmissions :
    (let o := newCrewOp 256 (crewDescriptor 6 barrierWords)
     let s := crewed id
     o.crew = 1023 ∧ s.crwReject o (s.crew o.crew) = 0 ∧ (s.crew o.crew).phase = none) ∧
    (let o := newCrewOp 255 (crewDescriptor 6 (barrierWords.set 7 1))
     let s := crewed id
     s.crwReject o (s.crew o.crew) = 0 + 1) ∧
    (let o := newCrewOp 255 (crewDescriptor 1 barrierWords)
     up.crwReject o (up.crew o.crew) = 1 + 1) ∧
    rsvBad CRW_CTRL 1 = false ∧ rsvBad CRW_CTRL 0 = false ∧ (crewed id).drains = [] ∧ (crewed id).bit CRW_CTRL CRW_CTRL_EN = true ∧
    (crewed id).fabric.ops = [] ∧
    (let s : State := { crewed id with fabric := { (crewed id).fabric with ops := [barrierOp 255 true] } }
     s.bit CRW_CTRL CRW_CTRL_EN = true ∧ s.fabric.ops ≠ [] ∧ ∀ o ∈ s.fabric.ops, o.f 4 47 0 = 0) := by decide +kernel

theorem meets_CrewProgress_operations :
    (let s : State := { crewed id with fabric := { (crewed id).fabric with ops := [barrierOp 255 true] } }
     s.opOf (1023 : BitVec 10).toNat (0xFFFFFFFF : BitVec 32).toNat 0 = some (barrierOp 255 true) ∧ (barrierOp 255 true).started = true ∧
     s.opDone (s.crew 1023) (barrierOp 255 true) = some 0) ∧
    (let s : State :=
      { crewed (fun c => { c with members := ⟨0, 0, some 0, 0, 0, 0, true, false⟩ :: c.members }) with
        fabric := { (crewed fun c => { c with members := ⟨0, 0, some 0, 0, 0, 0, true, false⟩ :: c.members }).fabric with ops := [barrierOp 255 true] } }
     s.opOf 1023 0xFFFFFFFF 0 = some (barrierOp 255 true) ∧ s.opDone (s.crew 1023) (barrierOp 255 true) = none) ∧
    (let o := { barrierOp 255 true with words := [0, 0, 0, 0, own] }
     CrewStores up 0 (o.f 4 47 0) 16 ∧ o.f 4 47 0 ≠ 0) ∧
    (let o := { barrierOp 255 true with words := [0, 0, 0, 0, BitVec.ofNat 64 (2 ^ 63 + 16383 * 2 ^ 49)] }
     o.f 4 47 0 = 0 ∧ o.f 4 63 63 = 1 ∧ up.moving (o.f 4 62 49 / 64) = false ∧ (up.buckle (o.f 4 62 49)).waiters = [] ∧
     (up.buckle (o.f 4 62 49)).count + 1 < bkMax) ∧
    (let s : State := { (crewed id).wr STK_NOW 1 with fabric := { (crewed id).fabric with ops := [barrierOp 255 true] } }
     s.now = (barrierOp 255 true).start + BitVec.ofNat 64 ((s.crew 1023).deadline + (barrierOp 255 true).stretch)) := by unfold CrewStores; decide +kernel

theorem meets_CrewProgress_rosters :
    (let ms := ((crewed id).crew 1023).members
     ((crewed fun c => { c with announced := some (1, ms) }).crew 1023).announced = some (1, ms) ∧ (crewed id).now ≠ 1 ∧
     (let s := crewed fun c => { c with announced := some (0, ms) }
      (s.crew 1023).announced = some (s.now, ms) ∧ (s.crew 1023).state = 2 ∧ ms.any (·.num == (s.crew 1023).own) = true) ∧
     (let s := withLop (crewed fun c => { c with announced := some (0, ms), state := 1 }) (lopOf 0x71 1)
      (s.crew 1023).announced = some (s.now, ms) ∧ (s.crew 1023).state = 1 ∧ (s.crew 1023).lead = true ∧ ms.all (·.ready) = true ∧ (s.crew 1023).pend = none ∧
      s.lop (s.crew 1023).handle = some (lopOf 0x71 1)) ∧
     (let s := crewed fun c => { c with announced := some (0, ms), state := 1, pend := some (0, 1) }
      (s.crew 1023).announced = some (s.now, ms) ∧ (s.crew 1023).state = 1 ∧ (s.crew 1023).pend.isNone = false) ∧
     (let s := crewed fun c => { c with announced := some (0, []), state := 3 }
      (s.crew 1023).announced = some (s.now, []) ∧ (s.crew 1023).state = 3 ∧ s.fabric.ops = [])) := by decide +kernel

/-- Fabric port 7 is up; peer context 65,535 is open, as f gives it. -/
def linked (f : PeerCtx → PeerCtx) : State :=
  (up.wr FAB_STATUS 128).setCtx 65535 (f { PeerCtx.closed with state := 1, addr := some 5, ports := 128, rto := 1, retry := 1, hb := true, link := { Link.init with expect := 0xFFFFFFFF } })

/-- A header of this TYPE and LEN to that context, with PSN 2³² − 1; k more in its first doubleword. -/
def hdr (typ len k : Nat) : Hdr := ⟨BitVec.ofNat 64 (typ * 2 ^ 56 + 65535 * 2 ^ 32 + len + k), BitVec.ofNat 64 (0xFFFFFFFF * 2 ^ 32), 0, 0⟩

theorem meets_FabricPackets_heard :
    up.fabUp 7 = false ∧ (linked id).fabUp 7 = true ∧ (linked id).ectBad (hdr 1 1 0) 5 1 0 = true ∧
    (∀ typ, typ = 1 ∨ typ = 2 → (linked id).ectBad (hdr typ 0 0) 5 typ 0 = false) ∧ hEce.get (hdr 1 0 0).w0 = 0 ∧
    ((linked id).ctx (hDst.get (hdr 1 0 0).w0)).link.wait = [] ∧ hAckv.get (hdr 1 0 0).w0 = 0 ∧ hAckv.get (hdr 1 0 (2 ^ 55)).w0 = 1 ∧
    (linked id).ectBad (hdr 2 0 (2 ^ 55)) 5 2 0 = false ∧ (hdr 2 0 (2 ^ 55)).w2 = 0 := by
  refine ⟨by decide +kernel, by decide +kernel, by decide +kernel, ?_, by decide +kernel, by decide +kernel, by decide +kernel, by decide +kernel,
    by decide +kernel, by decide +kernel⟩
  rintro typ (rfl | rfl) <;> decide +kernel

theorem meets_FabricPackets_taken :
    TakenInOrder (linked id) 7 (hdr 3 (24 + 4096) 0) 5 3 (24 + 4096) 65535 ∧ subGrowth 0 0 = false ∧
    (linked id).opOf (collOf 0 0 0 31 4096 0).crew (collOf 0 0 0 31 4096 0).phase (collOf 0 0 0 31 4096 0).opid = none ∧
    TakenInOrder (linked id) 7 (hdr 4 (24 + 64) 0) 5 4 (24 + 64) 65535 ∧
    (let s := (linked id).setCrew 1023 { Crew.none with state := 2, p := [0, 0, 0, 0, 0, own, 64, 0] }
     let q := collOf (BitVec.ofNat 64 (1023 * 2 ^ 54)) 0 0 0 64 0
     TakenInOrder s 7 (hdr 4 (24 + 64) 0) 5 4 (24 + 64) 65535 ∧ q.crew = 1023 ∧ (s.crew q.crew).state ≠ 0 ∧
     q.off + 64 ≤ ((s.crew q.crew).p.getD 6 0).toNat ∧ CrewStores s 0 ((s.crew q.crew).w 5 47 0 + q.off) 64 ∧
     TakenInOrder s 7 (hdr 5 16 0) 5 5 (16 : BitVec 13).toNat 65535) ∧
    ((linked id).crew 0).state = 0 ∧ ((linked id).ctx 65535).link.unacked.length < 512 := by
  unfold TakenInOrder CrewStores; decide +kernel

theorem meets_FabricPackets_management :
    (let ws : List Word := [0x30000, 0, 0, 0, 0, 0, 0, 0]
     TakenInOrder (linked id) 7 (hdr 6 (8 * ws.length) 0) 5 6 (8 * ws.length) 65535 ∧ (linked id).cox.queue = [] ∧
     coxCodes.contains ((ws.getD 0 0).toNat / 65536 % 65536) = true) ∧
    (let ws : List Word := [0x10000, 0, 0, 0, 0, 0, 0, 0, BitVec.ofNat 64 (65535 * 2 ^ 48)]
     TakenInOrder (linked id) 7 (hdr 6 (8 * ws.length) 0) 5 6 (8 * ws.length) 65535 ∧ (ws.getD 0 0).toNat / 65536 % 65536 = 1 ∧
     (ws.getD 0 0).toNat % 256 = 0 ∧ ((linked id).ctx 65535).mgmt = []) := by
  unfold TakenInOrder; decide +kernel

theorem meets_FabricPackets_timers :
    (let q (n : Nat) : Pkt := { psn := 0xFFFFFFFF, typ := 5, body := [], sent := 0, tries := n }
     let s (n : Nat) := (linked fun x => { x with link := { x.link with unacked := [q n] } }).wr STK_NOW 1
     (∀ n, n < 2 → (((s n).ctx 65535).link.unacked.find? (·.psn == (0xFFFFFFFF : BitVec 32).toNat)) = some (q n) ∧ ((s n).ctx 65535).state = 1 ∧
       ((s n).ctx 65535).rto ≤ ((s n).now - (q n).sent).toNat ∧
       (s n).portsUp ((s n).ctx 65535).ports ≠ []) ∧
     (q 0).tries < ((s 0).ctx 65535).retry ∧ ((s 1).ctx 65535).retry ≤ (q 1).tries ∧
     (s 1).fabric.crews = []) ∧
    (let s := linked fun x => { x with hbLoss := 64, heard := 0xFFFFFFC0 }
     (s.ctx 65535).state = 1 ∧ (s.ctx 65535).hb = true ∧ (s.ctx 65535).addr.isSome = true ∧ (s.ctx 65535).hbLoss ≤ (s.now.toNat + 2 ^ 32 - (s.ctx 65535).heard) % 2 ^ 32) ∧
    rsvBad (FAB_PCTRL 7) 1 = false ∧ FAB_PCTRL_MODE_MAX.get 1 ≠ 3 ∧ rsvBad (FAB_PCTRL 7) 0 = false ∧ up.drains = [] ∧
    (let s := (up.setf (FAB_PCTRL 7) FAB_PCTRL_EN 1).setf (FAB_PCTRL 7) FAB_PCTRL_MODE_MAX 2
     s.fld (FAB_PCTRL 7) FAB_PCTRL_MODE_MAX = 2 ∧ s.bit (FAB_PCTRL 7) FAB_PCTRL_EN = true ∧ s.src ≠ 2) := by decide +kernel

/-- The session of a member's Cox on context 65,535, and a request of it. -/
def memberSes : Session := { ses 3 with party := 2 }
def memberReq (code len : Nat) (ws : List Word) : CoxReq := { req code len ws with origin := .ect 65535 }
def memberAsk (s : State) (code len : Nat) (ws : List Word) : State :=
  { s with cox := { s.cox with queue := [memberReq code len ws], sessions := [memberSes] } }

theorem meets_CrewCommands_host :
    ServedAll up (fun s => s.drains = [] ∧ (s.fabric.ctxs.any fun q => q.2.state == 1 && q.2.ports.testBit 7) = false)
      [(0x70, 2, 32, [BitVec.ofNat 64 (7 * 2 ^ 61 + 2 ^ 58 + 4791 * 2 ^ 32), BitVec.ofNat 64 (128 * 2 ^ 56), 0, 0])] ∧
    ServedAll (crewed id) (fun s => (s.crew 1023).state ≠ 0 ∧ s.otherOwns 3 1023 (ses 2) = false) [(0x73, 0, 8, [1023])] := by
  unfold ServedAll CoxServes; decide +kernel

theorem meets_CrewCommands_join :
    (let p : List Word := [7, BitVec.ofNat 64 (2 ^ 54 + 2 ^ 30 + 2 ^ 15), BitVec.ofNat 64 (2 ^ 32 + 16), 0, 0, 2, 2, 1023, 5, 0, 4791, 65536, 1]
     let s := (memberAsk (crewed fun c => { c with state := 1 }) 0x100 104 p).setCtx 65535 { PeerCtx.closed with state := 1, sstate := 2 }
     let c := s.crew 1023
     let j := { Crew.none with p := p.take 5 }
     CoxServes s 0x100 3 true (memberReq 0x100 104 p) memberSes ∧ s.crewByKey 7 = some 1023 ∧ j.w 1 63 60 = 0 ∧ j.w 1 14 8 = 0 ∧
     j.w 4 25 0 = 0 ∧ c.lead = true ∧ c.state = 1 ∧ c.announced = none ∧ c.next = [] ∧ c.w 1 56 54 ≤ min c.rules 2 ∧ joinWords j = joinWords c ∧
     (c.members.any fun m => m.num == j.own) = false ∧ syncFits c.syncReq (s.ctx 65535) = true ∧ c.syncReq = 0 ∧
     (c.members.filter fun m => !m.withdrawn).length + 1 ≠ c.nmem) ∧
    (let s := crewed fun c => { c with p := [7, BitVec.ofNat 64 (2 ^ 59 + 2 ^ 54 + 16383 * 2 ^ 30 + 2 * 2 ^ 15), 0, 0, 0] }
     ((s.crew 1023).members.filter fun m => !m.withdrawn).length + 1 = (s.crew 1023).nmem) := by
  unfold CoxServes; decide +kernel

theorem meets_CrewCommands_members :
    (let s := crewed fun c => { c with members := ⟨1, 0, some 65535, 0, 0, 0, false, false⟩ :: c.members }
     CoxServes (memberAsk s 0x102 8 [7]) 0x102 3 true (memberReq 0x102 8 [7]) memberSes ∧ (memberAsk s 0x102 8 [7]).crewByKey 7 = some 1023 ∧
     CoxServes (memberAsk s 0x103 16 [7, 0]) 0x103 3 true (memberReq 0x103 16 [7, 0]) memberSes ∧
     (s.crew 1023).members.find? (·.ctx == some 65535) = some ⟨1, 0, some 65535, 0, 0, 0, false, false⟩ ∧ (s.crew 1023).announced = none ∧
     (s.crew 1023).next = [] ∧ CoxServes (memberAsk s 0x104 8 [7]) 0x104 3 true (memberReq 0x104 8 [7]) memberSes) ∧
    (let s := crewed fun c => { c with p := [7, BitVec.ofNat 64 (2 ^ 54 + 16383 * 2 ^ 30)] }
     let ws : List Word := [2, 2, 16, 1, 16383, 1023, 0, 0, 0, 0]
     CoxServes (memberAsk s 0x101 80 ws) 0x101 3 true (memberReq 0x101 80 ws) memberSes ∧ ws.length = 4 + 6 * 1 ∧ (s.crew 1023).lead = false ∧
     (s.crew 1023).pend = none ∧ (s.crew 1023).announced = none ∧ (memberReq 0x101 80 ws).w 3 % 2 ^ 32 = 1 ∧
     (memberReq 0x101 80 ws).w 4 = (s.crew 1023).own ∧ (memberReq 0x101 80 ws).w 5 = 1023 ∧ s.fabric.crews = [(1023, s.crew 1023)] ∧
     s.fabric.ctxs.length + 1 ≤ 65536) := by
  unfold CoxServes; decide +kernel

/-! ### The pair, mirroring and the journal -/

/-- Pair port 1 is up, the engine is in state st and f gives it. -/
def paired (st : Nat) (f : Mirror → Mirror) : State :=
  let s := (up.setf (MIR_PSTATUS 1) MIR_PSTATUS_STATE 2).setf MIR_STATUS MIR_STATUS_PSTATE st
  { s with mirror := f { Mirror.init with link := { Link.init with expect := 0xFFFFFFFF } } }

/-- A pair header of this TYPE with PSN 2³² − 1; k more in its first doubleword. -/
def pairHdr (typ k : Nat) : Hdr := ⟨BitVec.ofNat 64 (typ * 2 ^ 56 + 0xFFFFFFFF + k), 0, 0, 9⟩

theorem meets_PairFrames_order :
    up.pairPort 1 = false ∧ (paired 3 id).pairPort 1 = true ∧ (paired 3 id).bit (MIR_PSTATUS 1) MIR_PSTATUS_MISCABLED = false ∧
    pairGrowth (pairHdr 1 (2 ^ 60)) = true ∧ phPort.get (pairHdr 2 0).w0 ≠ (1 : BitVec 1).toNat ∧ pairGrowth (pairHdr 2 0) = false ∧ joinRsv [] = false ∧
    hTyp.get (pairHdr 2 0).w0 = 2 ∧ phPort.get (pairHdr 2 (2 ^ 55)).w0 = (1 : BitVec 1).toNat := by decide +kernel

/-- A state in which a frame of any TYPE arrives in order, and what f says of it. -/
def Arrives (s : State) (typ k : Nat) (f : State → Prop) : Prop := PairInOrder s 1 (pairHdr typ k) typ ∧ f s

theorem pairInOrder_of (s : State) (typ k : Nat) (hc : s.mirror.ckpt.all (·.ended) = true)
    (h : s.pairPort 1 = true ∧ s.bit (MIR_PSTATUS 1) MIR_PSTATUS_MISCABLED = false ∧ pairGrowth (pairHdr typ k) = false ∧
      hTyp.get (pairHdr typ k).w0 = typ ∧ phState.get (pairHdr typ k).w0 ≠ 5 ∧ phState.get (pairHdr typ k).w0 ≠ 7 ∧ s.mirror.link.unacked = [] ∧
      s.mirror.link.wait = [] ∧ s.mirror.link.got = [] ∧ s.mirror.link.expect = (pairHdr typ k).w0.toNat % 2 ^ 32 ∧ s.mirror.link.owed < 7 ∧
      s.store.held = [] ∧ s.mirror.copying = []) : PairInOrder s 1 (pairHdr typ k) typ := by
  obtain ⟨h1, h2, h3, h4, h5, h6, h7, h8, h9, h10, h11, h12, h13⟩ := h
  refine ⟨h1, h2, h3, h4, h5, h6, h7, h8, h9, h10, h11, h12, h13, fun c e => ?_⟩
  rw [e] at hc
  simpa using hc

theorem meets_PairFrames_heard : Arrives (paired 3 id) 1 0 (fun _ => True) ∧ Arrives (paired 3 id) 9 0 (fun _ => True) :=
  ⟨⟨pairInOrder_of _ _ _ (by decide +kernel) (by decide +kernel), trivial⟩, ⟨pairInOrder_of _ _ _ (by decide +kernel) (by decide +kernel), trivial⟩⟩

theorem meets_PairFrames_hello :
    Arrives (paired 0 id) 2 (2 ^ 55) (fun s => s.pstate ≠ 1) ∧
    Arrives (paired 1 fun m => { m with helloSent := true }) 2 (2 ^ 55) (fun s => s.pstate = 1 ∧ s.mirror.helloSent = true ∧
      (∀ r, r < 256 → s.regMode r ≠ 1) ∧ s.mirror.p.getD 0 0 = 0 ∧ s.mirror.ckpt = none ∧
      s.fld STK_PERIOD STK_PERIOD_PERIOD_NS < 2 ^ 17) ∧
    Arrives (withLop (paired 1 fun m => { m with helloSent := true, handle := 9 }) (lopOf 0x80 1)) 2 (2 ^ 55) (fun s => s.pstate = 1 ∧
      s.mirror.helloSent = true ∧ (0 : BitVec 17).toNat ≠ s.fld STK_PERIOD STK_PERIOD_PERIOD_NS ∧ s.lop s.mirror.handle = some (lopOf 0x80 1)) :=
  ⟨⟨pairInOrder_of _ _ _ (by decide +kernel) (by decide +kernel), by decide +kernel⟩,
    ⟨pairInOrder_of _ _ _ (by decide +kernel) (by decide +kernel), by decide +kernel⟩,
    ⟨pairInOrder_of _ _ _ (by decide +kernel) (by decide +kernel), by decide +kernel⟩⟩

def halfCkpt (e : Bool) : Ckpt := { seq := 5, close := 0, toSend := [], inFlight := [], count := 0, ended := e, synced := true }

theorem meets_PairFrames_checkpoints :
    Arrives (paired 2 id) 3 0 (fun s => s.pstate = 2 ∧ s.mirror.staged = false) ∧
    Arrives (paired 4 id) 4 0 (fun s => s.pstate = 4 ∧ s.mirror.stageSeq = (0 : BitVec 32).toNat) ∧
    Arrives (paired 4 fun m => { m with ckpt := some (halfCkpt true), oversized := true }) 5 0 (fun s => s.mirror.ckpt = some (halfCkpt true) ∧
      s.store.restores = [] ∧ s.drains = [] ∧ s.pstate = 4 ∧ s.mirror.oversized = true) ∧
    Arrives (paired 1 id) 6 0 (fun s => s.pstate = 1 ∧ rsvBad (MIR_REG_W0 0) 0 = false ∧ rsvBad (MIR_REG_W1 0) 0 = false ∧
      rsvBad (MIR_REG_W2 0) 0 = false ∧ rsvBad (MIR_REG_W3 0) 0 = false) ∧
    Arrives (paired 3 id) 7 0 (fun s => s.pstate = 3 ∧ s.store.restores = [] ∧ s.imageCovers 0 1 = false ∧ s.regionMode 0 ≠ some 1) :=
  ⟨⟨pairInOrder_of _ _ _ (by decide +kernel) (by decide +kernel), by decide +kernel⟩,
    ⟨pairInOrder_of _ _ _ (by decide +kernel) (by decide +kernel), by decide +kernel⟩,
    ⟨pairInOrder_of _ _ _ (by decide +kernel) (by decide +kernel), by decide +kernel⟩,
    ⟨pairInOrder_of _ _ _ (by decide +kernel) (by decide +kernel), by decide +kernel⟩,
    ⟨pairInOrder_of _ _ _ (by decide +kernel) (by decide +kernel), by decide +kernel⟩⟩

theorem meets_PairFrames_retransmissions :
    let q (n : Nat) : Pkt := { psn := 0xFFFFFFFF, typ := 5, body := [], sent := 0, tries := n }
    let s (n : Nat) := (paired 3 fun m => { m with link := { m.link with unacked := [q n] } }).wr STK_NOW 2
    (∀ n, n ∈ [7, 8] → ((s n).mirror.link.unacked.find? (·.psn == (0xFFFFFFFF : BitVec 32).toNat)) = some (q n) ∧ 2 ≤ ((s n).now - (q n).sent).toNat) ∧
    (q 7).tries < 8 ∧ (s 7).pairUp ≠ [] ∧ (s 7).pairMute = false ∧ (s 7).mirror.portFail = [0, 0] ∧ 8 ≤ (q 8).tries ∧ (s 8).store.held = [] ∧ (s 8).store.restores = [] ∧
    (s 8).drains = [] ∧ (s 8).pstate = 3 := by decide +kernel

theorem meets_MirrorEngine_checkpoints :
    (let s := paired 3 fun m => { m with freezing := [7, 0], cur := [(0, true)] }
     7 ∈ s.mirror.freezing ∧ s.mirror.freezing.erase 7 ≠ [] ∧ (∀ q ∈ s.mirror.cur, q.2 = true) ∧ (∀ r, r < 256 → s.regMode r ≠ 4)) ∧
    7 ∉ (paired 3 id).mirror.freezing ∧
    (let s := paired 2 fun m => { m with stageSeq := 5, stageEnd := some 0 }
     s.mirror.staged = true ∧ s.pstate = 2 ∧ s.mirror.stage = []) ∧ (paired 3 id).mirror.staged = false ∧
    (let s := paired 0 fun m => { m with ckpt := some (halfCkpt false) }
     s.mirror.ckpt = some (halfCkpt false) ∧ s.mirror.freezing = [] ∧ s.pstate = 0 ∧ (∀ r, r < 256 → s.regMode r ≠ 3 ∧ s.regMode r ≠ 4)) := by
  decide +kernel

theorem meets_MirrorEngine_partner :
    (let s := ((paired 3 id).setf (MIR_PCTRL 1) MIR_PCTRL_EN 1).setf (MIR_PCTRL 1) MIR_PCTRL_MODE_MAX 2
     s.pstate ≠ 4 ∧ s.mirror.ckpt = none ∧ s.mirror.copying = [] ∧ s.store.restores = [] ∧ s.fld (MIR_PCTRL 1) MIR_PCTRL_MODE_MAX = 2 ∧
     s.bit (MIR_PCTRL 1) MIR_PCTRL_EN = true ∧ s.pstate = 3 ∧ s.pairUp = [1]) ∧
    (∀ st, st ∈ [2, 3, 4] → let s := (paired st id).wr STK_NOW 64
      s.pstate = st ∧ s.old64 (s.fld MIR_HEARD MIR_HEARD_PAIR) = true ∧ s.store.restores = [] ∧ s.store.held = [] ∧ s.drains = [] ∧
      s.mirror.hbCtx = none ∧ s.mirror.staged = false) ∧
    (∀ st, st ∈ [2, 3, 4] →
      let s := ((paired st fun m => { m with hbCtx := some 65535 }).setCtx 65535 { PeerCtx.closed with state := 1, heard := 1 }).wr STK_NOW 64
      s.pstate = st ∧ s.old64 (s.fld MIR_HEARD MIR_HEARD_PAIR) = true ∧ s.store.restores = [] ∧ s.store.held = [] ∧ s.drains = [] ∧
      s.mirror.hbCtx = some 65535 ∧ (s.ctx 65535).state = 1 ∧ s.old64 (s.ctx 65535).heard = false) ∧
    (let s := { (paired 3 id).wr STK_NOW 8 with store := { Store.init with restores := [⟨5, 0, true⟩] } }
     (s.store.restores.any fun r => r.granule == (5 * 4096 + 4095 : BitVec 48).toNat / 4096 && r.asked && decide (8 ≤ (s.now - r.stroke).toNat)) = true ∧
     s.store.codewords = [] ∧ s.store.held = []) := by decide +kernel

theorem meets_MirrorEngine_enable :
    rsvBad MIR_CTRL 1 = false ∧ rsvBad MIR_CTRL 0 = false ∧
    (let s := (paired 3 fun m => { m with ckpt := some (halfCkpt false) }).setf MIR_CTRL MIR_CTRL_EN 1
     s.drains = [] ∧ s.bit MIR_CTRL MIR_CTRL_EN = true ∧ s.mirror.ckpt.isSome = true ∧ s.store.held = [] ∧ s.pstate ≠ 0) := by decide +kernel

/-- A region of 64 KiB at the end of the HBM of die 0, in this MODE. -/
def regionWords (mode : Nat) : List Word :=
  [255, MIR_REG_W0_MODE.put (MIR_REG_W0_BASE.put 0 0x17FFFF0000) mode, MIR_REG_W1_LEN.put 0 0x10000, 0, 0]

theorem meets_RegionAndJournalCommands :
    ServedAll up (fun s => firstBad (s.regionChecks (req 0x82 40 (regionWords 0))) = none ∧ s.otherOwns 4 255 (ses 2) = false ∧ s.regMode 255 = 0)
      [(0x82, 1, 40, regionWords 0)] ∧
    ServedAll up (fun s => firstBad (s.regionChecks (req 0x82 40 (regionWords 4))) = none ∧ s.otherOwns 4 255 (ses 2) = false ∧ s.regMode 255 = 0 ∧
      s.owned 4 255 = none) [(0x82, 1, 40, regionWords 4)] ∧
    ServedAll (paired 4 fun m => { m with p := [0, 0, 0, 0, 0, 0, 0, 0xBFFFFF0000, 0x10000] })
      (fun s => firstBad (s.regionChecks (req 0x82 40 (regionWords 1))) = none ∧ s.otherOwns 4 255 (ses 2) = false ∧ s.regMode 255 = 0 ∧
        ((List.range 256).filter fun i => s.regMode i == 1).foldl (fun n i => n + mapBytes (s.regLen i))
          (mapBytes (MIR_REG_W1_LEN.get ((regionWords 1).getD 2 0))) ≤ (s.mirror.p.getD 8 0).toNat) [(0x82, 1, 40, regionWords 1)] ∧
    (MIR_REG_W0_MODE.get ((regionWords 0).getD 1 0) = 0 ∧ MIR_REG_W0_MODE.get ((regionWords 4).getD 1 0) = 4 ∧
      MIR_REG_W0_MODE.get ((regionWords 1).getD 1 0) = 1) ∧
    ServedAll (up.wr STK_GRP_OWNER 0) (fun s => s.pstate = 0 ∧ s.mirror.entry = none ∧ s.freeEntry = some 0 ∧ inHbm64k 0xBFFFFF0000 0x10000 = true)
      [(0x83, 1, 32, [BitVec.ofNat 64 (65535 * 2 ^ 32), 0, 0xBFFFFF0000, 0x10000])] := by
  unfold ServedAll CoxServes; decide +kernel

/-! ### Power, placement, Easy, patina -/

/-- Logical tile 255 has been slow for 1,000 catches; slot 33 of die 7 is a spare, or none is; PLACE_EN. -/
def slowed (spare : Bool) : State :=
  let s := ((up.setf (TRM_TILE_W0 7 31) TRM_TILE_W0_SLOW_CNT 1000).setf (TRM_CTRL 7) TRM_CTRL_PLACE_EN 1)
  { s with placement := { Placement.init with setAside := if spare then [(34 * 7 + 32, 2)] else [(34 * 7 + 32, 2), (34 * 7 + 33, 2)] } }

theorem meets_PowerAndPlacement_cap :
    ServedAll ((up.wr STK_GRP_OWNER 0).setf (PWR_SLOT 0) PWR_SLOT_V 1)
      (fun s => s.bit (PWR_SLOT 1) PWR_SLOT_V = false ∧ s.bit (PWR_SLOT 0) PWR_SLOT_V = true ∧
        (List.range 32).find? (fun i => s.evtState i == 0 && s.evtOwner i == 0) = some 0)
      [(0x90, 2, 16, [2600, 0]), (0x90, 2, 16, [5200, 7])] := by
  unfold ServedAll CoxServes; decide +kernel

theorem meets_PowerAndPlacement_moves :
    (33 : BitVec 6).toNat < 34 ∧ up.easy = false ∧
    (let s := slowed true
     s.stkPhase = 0 ∧ s.easy = false ∧ (s.placement.moves.any (·.1 == 7)) = false ∧
     ((s.tilesOn 7).find? fun t => s.moveDue t && s.canMove t && !(decide (s.sparesOf 7 = []) && s.placement.noted.contains t)) = some 255 ∧
     s.sparesOf 7 = [33] ∧ s.bit (TRM_CTRL 7) TRM_CTRL_PLACE_EN = true) ∧
    (let s := slowed false
     s.stkPhase = 0 ∧ s.easy = false ∧ (s.placement.moves.any (·.1 == 7)) = false ∧
     ((s.tilesOn 7).find? fun t => s.moveDue t && s.canMove t && !(decide (s.sparesOf 7 = []) && s.placement.noted.contains t)) = some 255 ∧
     s.sparesOf 7 = []) ∧
    (let s : State := { up with placement := { Placement.init with moves := [(7, 255, 33, 2, 0)] } }
     s.placement.moves.find? (·.1 == 7) = some (7, 255, 33, 2, 0) ∧ after 0 s.now = false) := by decide +kernel

theorem meets_PowerAndPlacement_enables :
    (let s : State := { up with power := { up.power with flowLow := 1000 } }
     1000 ≤ s.power.flowLow ∧ s.bit PWR_STATUS PWR_STATUS_FLOW_LOW = false) ∧ up.power.flowLow < 1000 ∧
    rsvBad PWR_CTRL 1 = false ∧ rsvBad PWR_CTRL 0 = false ∧ up.drains = [] ∧ (up.setf PWR_CTRL PWR_CTRL_CAP_EN 1).bit PWR_CTRL PWR_CTRL_CAP_EN = true ∧
    rsvBad (TRM_CTRL 7) 1 = false ∧ rsvBad (TRM_CTRL 7) 0 = false ∧ (slowed true).bit (TRM_CTRL 7) TRM_CTRL_PLACE_EN = true := by decide +kernel

theorem meets_EasyAndPatina :
    (∀ args, args ∈ [[0], [2 ^ 64 - 1]] →
      let l : Lop := { lopOf 0x91 1 with args := args }
      let s := withLop (up.wr STK_GRP_OWNER 0) l
      s.cox.lops.find? (fun l => l.cmd == 0x91 && l.state == 1) = some l ∧ s.lop l.handle = some l ∧ s.stkPhase = 0 ∧ s.easy = false ∧
      l.cancel = false ∧ s.quiescent = true ∧ l.args.getD 0 0 < 2 ^ 64 ∧ s.freeEntry = some 0) ∧
    (let l : Lop := { lopOf 0x91 1 with args := [0] }
     let s := withLop (up.wr STK_GRP_OWNER (BitVec.allOnes 64)) l
     s.lop l.handle = some l ∧ s.quiescent = true ∧ s.easy = false ∧ s.freeEntry = none) ∧
    (let s := up.setf DEV_STATUS DEV_STATUS_EASY 1
     s.easy = true ∧ s.power.wake = none) ∧
    (let s : State := { up with power := { up.power with wake := some 0 } }
     s.power.wake = some 0 ∧ after 0 s.now = false ∧ s.stkPhase = 0 ∧ s.power.easyF < 4096) ∧
    (let s := atTick 86400000 up
     s.cox.lastReplan + 86400000 ≤ s.stroke.ticks ∧ s.liveOf 0x92 = none ∧ s.lopsFull = false ∧ s.easy = false ∧ s.coxIdle = false ∧
     s.bit DEV_STATUS DEV_STATUS_READY = true) := by decide +kernel

theorem meets_EasyAndPatina_read : ServedAll up (fun _ => True) [(0x93, 0, 16, [271, 1]), (0x93, 0, 16, [146, 126])] := by
  unfold ServedAll CoxServes; decide +kernel

/-! ### Images, debug unlock, SPDM, PLDM -/

/-- The image in use has the ADVANCE flag and SVN 64; the fuses hold SVN n. -/
def imaged (n : Nat) : State :=
  { up.setf SEC_FUSE SEC_FUSE_SVN n with sec := { up.sec with running := List.replicate 12 0 ++ [64, 128, 0, 0] } }

/-- The first doubleword of a token of slot 2 for level 3, of serial number 0 and a nonce of zeros; what a payload lacks reads as 0. -/
def token : List Word := [BitVec.ofNat 64 (3 * 2 ^ 58 + 2 * 2 ^ 56)]

theorem meets_DebugUnlockAndCoxRestart_advance :
    imgField (imaged 63).sec.running 8 47 47 = 1 ∧ (imaged 63).fld SEC_FUSE SEC_FUSE_SVN < imgSvn (imaged 63).sec.running ∧
    imgSvn (imaged 64).sec.running ≤ (imaged 64).fld SEC_FUSE SEC_FUSE_SVN ∧ Master.host ≠ .cox := by decide +kernel

theorem meets_DebugUnlockAndCoxRestart_tokens :
    ServedAll up (fun s => s.sec.nonce = none) [(0xA2, 2, 0, [])] ∧
    (let t := wordsBytes token
     imgField t 0 57 56 = 2 ∧ imgField t 0 63 60 = 0 ∧ imgField t 0 55 0 = 0 ∧ allZero t 0x30 0x10 = true ∧ allZero t 0x741 0xBF = true ∧
     dword t 8 = 0 ∧ cut t 0x10 32 = List.replicate 32 0) ∧
    ServedAll { up with sec := { up.sec with nonce := some (List.replicate 32 0, 0) }, fuses := { up.fuses with serial := 0 } }
      (fun s => s.sec.nonce = some (List.replicate 32 0, 0) ∧ s.stroke.ticks < 0 + 60000 ∧ s.fuses.serial = 0) [(0xA2, 2, 3328, token)] ∧
    (atTick 60000 { up with sec := { up.sec with nonce := some ([], 0) } }).sec.nonce = some ([], 0) ∧
    (atTick 59999 { up with sec := { up.sec with nonce := some ([], 0) } }).stroke.ticks < 0 + 60000 := by
  unfold ServedAll CoxServes; decide +kernel

theorem meets_DebugUnlockAndCoxRestart_restarts :
    up.cox.restart = none ∧ up.coxIdle = false ∧ up.activating = false ∧
    (let s := withLop up { lopOf 0xA1 1 with progress := 2 }
     s.cox.restart = none ∧ s.coxIdle = false ∧ s.activating = true) ∧
    (∀ b, b ∈ [true, false] → let s : State := { up with cox := { up.cox with restart := some (b, 0), lops := [{ lopOf 0xA1 1 with progress := 2 }] } }
      s.cox.restart = some (b, 0) ∧ s.cox.resetOwed = false ∧ s.sec.latched = [] ∧ s.cox.queue = [] ∧
      s.liveOf 0xA1 = some { lopOf 0xA1 1 with progress := 2 } ∧ s.lop 9 = some { lopOf 0xA1 1 with progress := 2 }) ∧
    (∀ st, st ∈ [0, 3] → let s := atTick 1000 { paired st id with cox := { up.cox with restart := some (true, 0) } }
      s.cox.restart = some (true, 0) ∧ 0 + 1000 ≤ s.stroke.ticks ∧ s.pstate = st ∧ s.pairUp ≠ [] ∧ s.mirror.imageWanted = false) := by
  decide +kernel

theorem meets_DebugUnlockAndCoxRestart_images :
    Arrives (paired 3 id) 8 0 (fun s => s.mirror.imageWanted = false) ∧
    Arrives (paired 3 fun m => { m with imageWanted := true }) 8 0 (fun s => s.mirror.imageWanted = true ∧
      (joinChunks (s.sec.chunks ++ [(0, [1])]) 0 (s.sec.chunks.length + 1)).length < 4096) :=
  ⟨⟨pairInOrder_of _ _ _ (by decide +kernel) (by decide +kernel), by decide +kernel⟩,
    ⟨pairInOrder_of _ _ _ (by decide +kernel) (by decide +kernel), by decide +kernel⟩⟩

theorem meets_SpdmRequests :
    up.coxIdle = false ∧ (up.setf DEV_STATUS DEV_STATUS_COX_RST 1).coxIdle = true ∧ (true && false) = false ∧ (0 : BitVec 16).toNat ≤ up.chain.length ∧
    1 ≤ (6 : BitVec 8).toNat ∧ 6 < (7 : BitVec 8).toNat ∧ (254 : BitVec 8).toNat < 255 :=
  ⟨by decide +kernel, by decide +kernel, rfl, Nat.zero_le _, by decide, by decide, by decide⟩

/-- The PLDM update is in state st, with 2 of 2 bytes. -/
def updating (st : Nat) : State :=
  { up with sec := { up.sec with pldm := st, pldmLen := 2, pldmData := [1, 2], applied := true } }

theorem meets_PldmUpdate :
    (∀ st, st < 7 → (updating st).coxIdle = false ∧ (updating st).sec.pldm = st) ∧ (updating 0).fwBusy = false ∧
    (updating 3).sec.pldmData.length + ([] : List Byte).length ≤ (updating 3).sec.pldmLen ∧ (updating 3).sec.pldmLen ≤ 4194304 ∧
    (updating 3).sec.pldmData.length = (updating 3).sec.pldmLen ∧ (updating 5).recovering = false ∧ (updating 2).sec.applied = true ∧
    (updating 2).pstate = 0 := by decide +kernel

/-! ### Control space and the error log -/

/-- Control stores and loads of tile 255 in the control space of the hub. -/
def ctlStore : OutStore := { tile := 255, addr := CRW_CTRL, width := 8, value := 1, ctl := true }
def ctlLoad (a : Nat) (r : Option Nat) : State := { up with links := { Links.init with ctlReads := [⟨255, a, 8, r⟩] } }

theorem meets_ControlAccesses_writes :
    descOf (hubBase / 8 * 8 + 0x6FFFF8) = none ∧ notifyAlias 0x6FFFF8 = none ∧ up.hostOpen = false ∧ (up.setf PCI_STATUS PCI_STATUS_MSE 1).hostOpen = true ∧
    (BitVec.ofNat 52 (bar0Base + 0x3FFFFFF)).toNat < bar0Base + 0x4000000 ∧ hubBase + 0x7FFFFF < hubBase + 0x800000 ∧
    (BitVec.ofNat 52 (RAS_RMASK 7)).toNat = RAS_RMASK 7 ∧ (255 : Nat) / 32 = 7 ∧ (BitVec.ofNat 64 (2 ^ 32 - 1)).toNat < 2 ^ 32 ∧
    2 ^ 32 ≤ (BitVec.ofNat 64 (2 ^ 32)).toNat ∧ (223 : Nat) / 32 ≠ 7 ∧ Master.tile 255 ≠ .host := by decide +kernel

theorem meets_ControlAccesses_stores :
    (let s : State := { up with store := { up.store with outStores := [ctlStore] } }
     s.store.outStores.find? (fun o => o.ctl && o.tile == (255 : BitVec 8).toNat && ctlWith (255 : BitVec 8).toNat o.addr (BitVec.ofNat 48 CRW_CTRL).toNat) =
       some ctlStore ∧ s.holds (255 / 32) (dieOf ctlStore.addr) = false ∧
     ctlBlock ctlStore.addr = ctlBlock (BitVec.ofNat 48 CRW_CTRL).toNat ∧
     ctlWith 255 ctlStore.addr (BitVec.ofNat 48 FAB_STATUS).toNat = true ∧ ctlBlock ctlStore.addr ≠ ctlBlock (BitVec.ofNat 48 FAB_STATUS).toNat ∧ ctlStore.addr < 2 ^ 48 ∧ ctlStore.width = 8 ∧ s.reach (255 / 32) (dieOf ctlStore.addr) = true) ∧
    (let s : State := { up.wr (VKN_ROUTE 7) (BitVec.allOnes 64) with store := { up.store with outStores := [ctlStore] } }
     s.reach (255 / 32) (dieOf ctlStore.addr) = false ∧ s.holds (255 / 32) (dieOf ctlStore.addr) = false) := by decide +kernel

theorem meets_ControlAccesses_loads :
    (∀ a, a ∈ [CRW_CTRL, hubBase + 0x6FFFF8, hubBase + 0x700000, TIL_MSG_CTRL 254] →
      (ctlLoad a none).links.ctlReads.find? (fun q => q.tile == (255 : BitVec 8).toNat && q.reply.isNone) = some ⟨255, a, 8, none⟩ ∧
      ((ctlLoad a none).store.outStores.any fun o => o.ctl && o.tile == 255 && ctlWith 255 o.addr a) = false ∧ (ctlLoad a none).holds (255 / 32) (dieOf a) = false ∧
      (ctlLoad a none).reach (255 / 32) (dieOf a) = true) ∧
    (descOf (CRW_CTRL / 8 * 8)).isSome = true ∧ descOf ((hubBase + 0x6FFFF8) / 8 * 8) = none ∧ (descOf (TIL_MSG_CTRL 254)).isSome = true ∧
    32 * ((TIL_MSG_CTRL 254 - dieBase 0) / 0x02000000) + (TIL_MSG_CTRL 254 - dieBase 0) % 0x02000000 / 0x10000 = 254 ∧
    (let s : State := { ctlLoad CRW_CTRL none with store := { up.store with outStores := [ctlStore] } }
     (s.store.outStores.any fun o => o.ctl && o.tile == 255 && ctlWith 255 o.addr CRW_CTRL) = true) ∧
    (let s := (ctlLoad CRW_CTRL none).wr (VKN_ROUTE 7) (BitVec.allOnes 64)
     s.reach (255 / 32) (dieOf CRW_CTRL) = false ∧ s.holds (255 / 32) (dieOf CRW_CTRL) = false ∧ s.stilled 255 = false) := by decide +kernel

theorem meets_ControlAccesses_replies :
    let s := (ctlLoad CRW_CTRL (some 0xFF)).setTile 255 { Tile.start with mode := .ctlLoad 31 false 8 true, pc := 0x1000 }
    s.links.ctlReads.find? (fun q => q.tile == (255 : BitVec 8).toNat && q.reply.isSome) = some ⟨255, CRW_CTRL, 8, some 0xFF⟩ ∧
    s.stilled 255 = false ∧ s.holds (dieOf CRW_CTRL) (255 / 32) = false ∧ (s.tile 255).mode = .ctlLoad 31 false 8 true ∧ InSequence s 255 := by
  unfold InSequence; decide +kernel

/-- A record of a SOURCE at this tick, and a hub queue that holds it. -/
def rasRec (sev tick : Nat) : RasRec := { stroke := 0, tick := tick, source := 9, sev := sev, die := 8, unit := 255, detail := 0, count := 1, addr := 64 }
def queued (sev tick : Nat) (log : List (Nat × RasRec)) : State :=
  let s := up.setRasQueue 8 [rasRec sev tick]
  { s with ras := { s.ras with log := log } }

theorem meets_ErrorQueueAndLog_queue :
    (8 : BitVec 4).toNat ≤ 8 ∧ Master.host ≠ .cox ∧ 1 < (2 : Word).toNat ∧ up.rasQueue 8 = [] ∧
    (queued 4 5 []).rasQueue 8 = [rasRec 4 5] ∧ (rasRec 4 5).tick < 2 ^ 32 ∧ (∀ p ∈ (queued 4 5 []).ras.log, p.2.source ≠ 9) ∧
    (queued 4 5 []).ras.log.length < 4096 ∧ (queued 4 5 []).ras.flashLog.length < 256 ∧ (rasRec 3 5).sev < 4 ∧
    (let s := queued 0 5 [(7, rasRec 0 4)]
     s.ras.log = [] ++ [(7, rasRec 0 4)] ∧ (rasRec 0 4).tick ≤ (rasRec 0 5).tick ∧ (rasRec 0 5).tick ≤ (rasRec 0 4).tick + 1) := by decide +kernel

theorem meets_ErrorQueueAndLog_others :
    up.fld SEC_DEBUG SEC_DEBUG_LEVEL < 2 ∧ rsvBad (RAS_INJECT 8) 0 = false ∧ 2 ≤ (up.setf SEC_DEBUG SEC_DEBUG_LEVEL 2).fld SEC_DEBUG SEC_DEBUG_LEVEL ∧
    (let v := BitVec.ofNat 64 (2 ^ 63 + 0x0C * 2 ^ 48)
     v.toNat / 2 ^ 56 % 128 = 0 ∧ v.toNat / 2 ^ 48 % 256 ∈ [0x01, 0x02, 0x06, 0x09, 0x0A, 0x0B, 0x0C]) ∧
    (0x0D * 2 ^ 48) / 2 ^ 48 % 256 ∉ [0x01, 0x02, 0x06, 0x09, 0x0A, 0x0B, 0x0C] ∧
    (up.setf (RAS_LOSTPG 7 15) RAS_LOSTPG_V 1).bit (RAS_LOSTPG 7 15) RAS_LOSTPG_V = true ∧ up.bit (RAS_LOSTPG 7 15) RAS_LOSTPG_V = false ∧
    (∀ r ∈ up.flashWanted, r ∈ up.ras.flashRecs) ∧
    (let s : State := { up with placement := { Placement.init with place := [(255, 34 * 7 + 33)] } }
     s.flashWanted.find? (fun r => !s.ras.flashRecs.contains r) = some (.tile 255 (34 * 7 + 33))) := by decide +kernel

/-! ### Power-up and boot -/

/-- Boot stage n runs with r rails good. -/
def booting (n r : Nat) : State :=
  let s := (up.setf DEV_STATUS DEV_STATUS_STAGE n).setf DEV_STATUS DEV_STATUS_READY 0
  { s with boot := { Boot.init with qualified := true, rails := r } }

theorem meets_PowerUpAndTrips :
    up.boot.qualified = true ∧ State.reset.boot.qualified = false ∧ 8 ≤ up.boot.rails ∧
    (∀ n, n < 6 → let s := booting n 2
      s.boot.qualified = true ∧ s.boot.rails < 8 ∧ s.sec.latched = [] ∧ s.cox.queue = [] ∧ s.fld DEV_STATUS DEV_STATUS_STAGE = n ∧
      s.boot.held = false) ∧
    (6 : BitVec 8) ≠ 0 ∧ (6 : BitVec 8) ≠ 3 ∧ (6 : BitVec 8).toNat ≤ 6 ∧ 6 < (7 : BitVec 8).toNat ∧
    (∀ t, t ∈ [true, false] → let s : State := { booting 0 3 with boot := { Boot.init with qualified := true, rails := 3, tripped := t } }
      s.boot.held = false ∧ s.boot.tripped = t ∧ s.boot.qualified = true) ∧
    (∀ t, t ∈ [true, false] → let s : State := { booting 0 3 with boot := { Boot.init with qualified := true, rails := 3, tripped := t, held := true } }
      s.boot.held = true ∧ s.boot.tripped = t ∧ s.fld DEV_STATUS DEV_STATUS_STAGE = 0 ∧ 3 ≤ s.boot.rails) := by decide +kernel

theorem meets_BootStages :
    (∀ n, n ∈ [1, 2, 3, 4, 5, 6] → BootsStage (booting n 8) n ∧ (booting n 8).boot.rails = 8 ∧ (booting n 3).boot.rails = 3) ∧
    (booting 2 8).ras.flashRecs = [] ∧ (booting 2 8).sec.latched = [] ∧ (booting 2 8).cox.queue = [] ∧ (booting 2 8).bit PWR_TRIP PWR_TRIP_V = false ∧
    (let s := (booting 2 8).setf PWR_TRIP PWR_TRIP_V 1
     BootsStage s 2 ∧ s.bit PWR_TRIP PWR_TRIP_V = true ∧ s.ras.log = [] ∧ s.ras.flashRecs = []) ∧
    (atTick 1000 (booting 2 8)).boot.stageTick + 1000 ≤ (atTick 1000 (booting 2 8)).stroke.ticks ∧
    (atTick 999 (booting 2 8)).stroke.ticks < (atTick 999 (booting 2 8)).boot.stageTick + 1000 ∧
    (∀ m, m < 64 → lanesRepair m ((List.replicate 16 [] ++ List.replicate 48 [1, 0]).getD m []) = true) ∧ isPort 7 2 = true ∧
    (booting 3 8).bit (VKN_PCTRL 7 2) VKN_PCTRL_EN = true ∧ ((booting 4 8).memInfo 63).retired = false ∧
    (booting 4 8).fld (HBM_STATE 63) HBM_STATE_TSTATE ≠ 3 ∧ (booting 4 8).reach 8 (memDie 63) = true ∧ ((booting 4 8).memInfo 63).trained = false ∧
    ({ up with boot := { up.boot with dataReset := some (9, 2, 4) } } : State).boot.dataReset = some (9, 2, 4) ∧
    (booting 5 8).ras.flashRecs = [] ∧ (booting 5 8).reach 8 7 = true ∧ (booting 6 8).placement.setAside = [] ∧ (booting 6 8).ras.flashRecs = [] ∧
    (up.fld DEV_STATUS DEV_STATUS_STAGE = 7 ∧ up.boot.dataReset = none) := by
  unfold BootsStage; decide +kernel

theorem meets_BootStages_tiles :
    let s := (List.range 8).foldl (fun s d => (s.setf (LLS_STATUS d) LLS_STATUS_TAGS_VALID 1).setf (LLS_CTRL d) LLS_CTRL_EN 1) (booting 6 8)
    BootsStage s 6 ∧ (∀ d, d < 8 → s.reach 8 d = true ∧ s.bit (LLS_STATUS d) LLS_STATUS_TAGS_VALID = true ∧ s.bit (LLS_CTRL d) LLS_CTRL_EN = true) ∧
    (booting 6 8).bit (LLS_STATUS 7) LLS_STATUS_TAGS_VALID = false := by
  unfold BootsStage; decide +kernel

theorem meets_ReclaimReleases :
    ServedAll { up with cox := { up.cox with owners := [⟨2, 511, 0, 7⟩] } } (fun s => s.cox.owners = [⟨2, 511, 0, 7⟩] ∧ ∀ o ∈ s.cox.owners, 1 ≤ o.kind ∧ o.kind ≤ 4) [(0xB1, 2, 16, [7, 0]), (0xB1, 2, 16, [7, 2])] := by
  unfold ServedAll CoxServes; decide +kernel

/-! ### The TAP, die test, margins, and rules of the whole device -/

/-- `up` with the debug level n and the TAP instruction DBG_TOKEN loaded. -/
def tapped (n : Nat) : State :=
  let s := up.setf SEC_DEBUG SEC_DEBUG_LEVEL n
  { s with tap := { s.tap with ir := 0x10 } }

/-- A DBG_ACCESS of the given address: w writes, d is 64 bits wide. -/
def single (w d : Nat) (a : Nat) : BitVec 128 := BitVec.ofNat 128 (w * 2 ^ 127 + 2 ^ 126 + d * 2 ^ 125 + a * 2 ^ 64)

theorem meets_TapInstructions :
    (BitVec.ofNat 7 (0x30 + up.boot.moduleId)).toNat = 0x30 + up.boot.moduleId ∧ up.boot.i3c = none ∧ 3 ≤ up.boot.rails ∧
    State.reset.boot.rails < 3 ∧ up.boot.held = false ∧ ({ up with boot := { up.boot with held := true } } : State).boot.held = true ∧
    up.tap.ir ≠ 0x10 ∧ (tapped 0).tap.ir = 0x10 ∧ (tapped 0).sec.nonce = none ∧
    (let b : List Byte := List.replicate 8 0
     imgField b 0 63 60 = 0 ∧ imgField b 0 55 0 = 0 ∧ allZero b 0x30 0x10 = true ∧ allZero b 0x741 0xBF = true) ∧
    (let b : List Byte := List.replicate 8 0 ++ [1]
     let s : State := { tapped 0 with sec := { (tapped 0).sec with nonce := some (List.replicate 32 0, 0) } }
     s.tap.ir = 0x10 ∧ imgField b 0 63 60 = 0 ∧ imgField b 0 55 0 = 0 ∧ allZero b 0x30 0x10 = true ∧ allZero b 0x741 0xBF = true ∧
     dword b 8 ≠ s.fuses.serial) ∧
    (∀ n, n < 3 → (tapped n).fld SEC_DEBUG SEC_DEBUG_LEVEL = n) ∧ (0 : BitVec 128).getLsbD 126 = false ∧
    (single 0 1 0 + BitVec.ofNat 128 (2 ^ 112)).toNat / 2 ^ 112 % 2 ^ 13 ≠ 0 ∧
    (∀ p ∈ [(1, 0, DBG_TRC_CTRL 0 - 1), (1, 0, DBG_TRC_CTRL 8), (1, 0, dieBase 0 - 1), (1, 0, hubBase + 0x1000000), (1, 0, hubBase + 0x700000),
        (1, 0, hubBase + 0x7FFFFF), (0, 0, dieBase 0 + 2), (0, 1, hubBase), (1, 1, hubBase)],
      let v := single p.1 p.2.1 p.2.2
      v.getLsbD 126 = true ∧ v.toNat / 2 ^ 112 % 2 ^ 13 = 0 ∧ v.getLsbD 127 = (p.1 == 1) ∧ v.getLsbD 125 = (p.2.1 == 1) ∧
      v.toNat / 2 ^ 64 % 2 ^ 48 = p.2.2) ∧
    (descOf hubBase).isSome = true ∧ hubBase % 8 = 0 ∧ (dieBase 0 + 2) % 4 ≠ 0 := by decide +kernel

theorem meets_DieTestAndMargins :
    (Master.tile 255 ≠ Master.cox) ∧ (0x3F000000FFFFFFFF : Word) &&& 0x3F000000FFFFFFFF ≠ 0 ∧ (1 : Word) &&& 0x3F000000FFFFFFFF ≠ 0 ∧
    (0xC0FFFFFF00000000 : Word) &&& 0x3F000000FFFFFFFF = 0 ∧ up.boot.held = false ∧
    (let s : State := { tapped 2 with boot := { up.boot with held := true } }
     s.boot.held = true ∧ 3 ≤ s.boot.rails ∧ 2 ≤ s.fld SEC_DEBUG SEC_DEBUG_LEVEL ∧ s.tap.testing = false ∧
     ({ s with tap := { s.tap with testing := true } } : State).tap.testing = true) ∧
    isPort 8 7 = true ∧ isPort 7 2 = true ∧ isPort 0 0 = true ∧ isPort 7 3 = false ∧ (3 : BitVec 4).toNat < fullWidth 8 7 ∧
    fullWidth 8 7 ≤ (4 : BitVec 4).toNat ∧ (7 : BitVec 4).toNat < fullWidth 0 0 ∧ fullWidth 0 0 ≤ (8 : BitVec 4).toNat := by decide +kernel

theorem meets_LinkAndMemoryRegistersAreTheCoxs :
    (∀ p ∈ [(VKN_STATUS 8, 8), (VKN_STATUS 0, 0)], p.1 < 2 ^ 52 ∧ p.1 % 8 = 0 ∧ (descOf p.1).isSome = true ∧ p.2 ≤ 8 ∧ vknBase p.2 ≤ p.1 ∧
      p.1 < vknBase p.2 + 0x100000) ∧
    (∀ p ∈ [(HBM_THR 63, 63), (HBM_THR 15, 15), (HBM_THR 0, 0)], p.1 < 2 ^ 52 ∧ p.1 % 8 = 0 ∧ (descOf p.1).isSome = true ∧ p.2 < 64 ∧
      memBase p.2 ≤ p.1 ∧ p.1 < memBase p.2 + (if p.2 < 16 then 0x40000 else 0x1000)) ∧
    (∀ a ∈ [VKN_STATUS 8, HBM_THR 63],
      let s : State := { up with links := { up.links with ctlReads := [⟨255, a, 8, none⟩] } }
      s.flows ((255 : BitVec 8).toNat / 32) (dieOf a) = true ∧ s.store.outStores = [] ∧
      s.links.ctlReads = [⟨(255 : BitVec 8).toNat, a, 8, none⟩]) := by decide +kernel

theorem meets_HotDieTripsModule :
    (8 : BitVec 4).toNat ≤ 8 ∧ 4 ≤ up.boot.rails ∧
    (∀ h ∈ [(115 : Int), 114, 105, 104, 95, 94, -40], let temps := [(-50 : BitVec 8), BitVec.ofInt 8 h]
      (∀ c ∈ temps, c.toInt ≤ h) ∧ ∃ c ∈ temps, c.toInt = h) := by decide +kernel

theorem meets_RestartAnswersRequestResynch :
    (let up := up.setf DEV_STATUS DEV_STATUS_COX_RST 1
     let s : State := { up with cox := { up.cox with restart := some (false, 0) }, sec := { up.sec with latched := [⟨5, 0xE0, [1, 0]⟩, ⟨5, 0x84, []⟩] } }
     s.bit HOST_INT_MASK HOST_INT_CAUSE_COX_RST = true ∧ s.cox.restart = some (false, 0) ∧ s.coxIdle = true ∧ s.cox.resetOwed = false ∧ s.cox.queue = [] ∧
     s.sec.latched = [⟨5, 0xE0, [1, 0]⟩, ⟨(5 : BitVec 8).toNat, 0x84, []⟩]) := by decide +kernel
end Sys2Proof.Tests
end

section
/-!
Proofs about single-stepping (03 R77): what an integer instruction leaves (Tables 3.3 and 3.4), how an instruction retires
where it may be stepped, and what a supervisor-level eret does with a frame that reads without error (R79).
-/
namespace Sys2Proof.Machine

/-! ### Values of the integer instructions -/

theorem add_eq_ofInt (a b : Word) : a + b = BitVec.ofInt 64 (a.toInt + b.toInt) := by
  rw [BitVec.ofInt_add, BitVec.ofInt_toInt, BitVec.ofInt_toInt]

theorem sub_eq_ofInt (a b : Word) : a - b = BitVec.ofInt 64 (a.toInt - b.toInt) := by
  rw [Int.sub_eq_add_neg, BitVec.ofInt_add, BitVec.ofInt_neg, BitVec.ofInt_toInt, BitVec.ofInt_toInt, BitVec.sub_eq_add_neg]

theorem mul_eq_ofInt (a b : Word) : a * b = BitVec.ofInt 64 (a.toInt * b.toInt) := by
  rw [BitVec.ofInt_mul, BitVec.ofInt_toInt, BitVec.ofInt_toInt]

theorem shiftLeft_eq_ofNat (a : Word) (k : Nat) : a <<< k = BitVec.ofNat 64 (a.toNat * 2 ^ k) := by
  apply BitVec.eq_of_toNat_eq
  rw [BitVec.toNat_shiftLeft, Nat.shiftLeft_eq, BitVec.toNat_ofNat]

theorem ushiftRight_eq_ofNat (a : Word) (k : Nat) : a >>> k = BitVec.ofNat 64 (a.toNat / 2 ^ k) := by
  apply BitVec.eq_of_toNat_eq
  rw [BitVec.toNat_ushiftRight, Nat.shiftRight_eq_div_pow, BitVec.toNat_ofNat,
    Nat.mod_eq_of_lt (Nat.lt_of_le_of_lt (Nat.div_le_self _ _) a.isLt)]

theorem sshiftRight_eq_ofInt (a : Word) (k : Nat) : a.sshiftRight k = BitVec.ofInt 64 (a.toInt / 2 ^ k) := by
  rw [BitVec.sshiftRight, Int.shiftRight_eq_div_pow, Int.natCast_pow]; rfl

theorem ofBool_slt (a b : Word) : ofBool (a.slt b) = if a.toInt < b.toInt then 1 else 0 := by
  simp [ofBool, BitVec.slt_iff_toInt_lt]

theorem ofBool_ult (a b : Word) : ofBool (a.ult b) = if a.toNat < b.toNat then 1 else 0 := by
  simp [ofBool, BitVec.ult_iff_toNat_lt]

theorem minS_eq_ofInt (a b : Word) : (if b.slt a then b else a) = BitVec.ofInt 64 (min a.toInt b.toInt) := by
  rw [min_comm, min_def_lt]
  simp only [BitVec.slt_iff_toInt_lt]
  split <;> rw [BitVec.ofInt_toInt]

theorem maxS_eq_ofInt (a b : Word) : (if a.slt b then b else a) = BitVec.ofInt 64 (max a.toInt b.toInt) := by
  rw [max_def_lt]
  simp only [BitVec.slt_iff_toInt_lt]
  split <;> rw [BitVec.ofInt_toInt]

theorem minU_eq_ofNat (a b : Word) : (if b.ult a then b else a) = BitVec.ofNat 64 (min a.toNat b.toNat) := by
  rw [min_comm, min_def_lt]
  simp only [BitVec.ult_iff_toNat_lt]
  split <;> rw [BitVec.ofNat_toNat, BitVec.setWidth_eq]

theorem maxU_eq_ofNat (a b : Word) : (if a.ult b then b else a) = BitVec.ofNat 64 (max a.toNat b.toNat) := by
  rw [max_def_lt]
  simp only [BitVec.ult_iff_toNat_lt]
  split <;> rw [BitVec.ofNat_toNat, BitVec.setWidth_eq]

theorem remS_eq_ofInt (a b : Word) : remS a b = BitVec.ofInt 64 (a.toInt.tmod b.toInt) := by
  unfold remS
  split
  · next hb => rw [show b.toInt = 0 from hb ▸ BitVec.toInt_zero, Int.tmod_zero, BitVec.ofInt_toInt]
  · rfl

theorem remU_eq_ofNat (a b : Word) : remU a b = BitVec.ofNat 64 (a.toNat % b.toNat) := by
  unfold remU
  split
  · next hb => rw [show b.toNat = 0 from hb ▸ BitVec.toNat_zero, Nat.mod_zero, BitVec.ofNat_toNat, BitVec.setWidth_eq]
  · rfl

theorem add_sx14_eq_ofInt (a : Word) (i : BitVec 14) : a + sx14 i = BitVec.ofInt 64 (a.toInt + i.toInt) := by
  rw [BitVec.ofInt_add, BitVec.ofInt_toInt]; rfl

theorem zx14_eq_ofNat (i : BitVec 14) : zx14 i = BitVec.ofNat 64 i.toNat := (BitVec.ofNat_toNat 64 i).symm

theorem ofBool_slt_sx14 (a : Word) (i : BitVec 14) : ofBool (a.slt (sx14 i)) = if a.toInt < i.toInt then 1 else 0 := by
  rw [ofBool_slt, sx14, BitVec.toInt_signExtend_of_le (by decide)]

theorem wideField_eq_ofNat (i : BitVec 16) (k : Nat) : (i.setWidth 64 : Word) <<< k = BitVec.ofNat 64 (i.toNat * 2 ^ k) := by
  rw [shiftLeft_eq_ofNat, BitVec.toNat_setWidth_of_le (by decide)]

/-! ### Integer instructions write their result and retire -/

section
variable {s : State} {t : BitVec 8} {rd a b : BitVec 5} {v : Word}

theorem aluRR_result {f : Word → Word → Word} (h : Executes s t [.s a.toNat, .s b.toNat])
    (hv : f ((s.tile t.toNat).rs a.toNat) ((s.tile t.toNat).rs b.toNat) = v) :
    aluRR t rd a b f s = .next (s.finS t.toNat rd.toNat v) := by
  unfold aluRR; rw [onTile_executes h, hv]

theorem aluRI_result {f : Word → Word} (h : Executes s t [.s a.toNat]) (hv : f ((s.tile t.toNat).rs a.toNat) = v) :
    aluRI t rd a f s = .next (s.finS t.toNat rd.toNat v) := by
  unfold aluRI; rw [onTile_executes h, hv]

/-- A shift immediate below 64 has bits [13:6] zero (R65). -/
theorem shiftI_result {i : BitVec 14} {fn : Nat} {f : Word → Nat → Word} (hi : i.toNat < 64) (h : Executes s t [.s a.toNat])
    (hv : f ((s.tile t.toNat).rs a.toNat) i.toNat = v) :
    shiftI t rd a i fn f s = .next (s.finS t.toNat rd.toNat v) := by
  unfold shiftI
  rw [onTile_executes h, if_neg (by simp [Nat.div_eq_of_lt hi]), Nat.mod_eq_of_lt hi, hv]

end

theorem moveWide_result {s : State} {t : BitVec 8} {rd : BitVec 5} {sh : BitVec 2} {imm : BitVec 16} (h : Executes s t []) :
    exec (.moveWide t rd sh false imm) s =
      .next (s.finS t.toNat rd.toNat (BitVec.ofNat 64 (imm.toNat * 2 ^ (16 * sh.toNat)))) := by
  have harm : exec (.moveWide t rd sh false imm) s = execMoveWide t rd sh false imm s := rfl
  rw [harm, ← wideField_eq_ofNat, execMoveWide, onTile_executes (by simpa using h)]
  rfl

/-- Each instruction of Tables 3.3 and 3.4 that has an integer result writes it and retires: one case for each alternative of
`integerResult`, in its order. -/
theorem exec_integerResult {s : State} {i : Instr} {t : BitVec 8} {reads : List ParReg} {rd : BitVec 5} {v : Word}
    (h : integerResult s i = some (t, reads, rd, v)) (hx : Executes s t reads) :
    exec i s = .next (s.finS t.toNat rd.toNat v) := by
  unfold integerResult at h
  split at h
  · cases h; exact (aluRR_result hx (add_eq_ofInt _ _) : execAdd _ _ _ _ _ = _)
  · cases h; exact (aluRR_result hx (sub_eq_ofInt _ _) : execSub _ _ _ _ _ = _)
  · cases h; exact (aluRR_result hx rfl : execAnd _ _ _ _ _ = _)
  · cases h; exact (aluRR_result hx rfl : execOr _ _ _ _ _ = _)
  · cases h; exact (aluRR_result hx rfl : execXor _ _ _ _ _ = _)
  · cases h; exact (aluRR_result hx (shiftLeft_eq_ofNat _ _) : execSll _ _ _ _ _ = _)
  · cases h; exact (aluRR_result hx (ushiftRight_eq_ofNat _ _) : execSrl _ _ _ _ _ = _)
  · cases h; exact (aluRR_result hx (sshiftRight_eq_ofInt _ _) : execSra _ _ _ _ _ = _)
  · cases h; exact (aluRR_result hx (ofBool_slt _ _) : execSlt _ _ _ _ _ = _)
  · cases h; exact (aluRR_result hx (ofBool_ult _ _) : execSltu _ _ _ _ _ = _)
  · cases h; exact (aluRR_result hx (minS_eq_ofInt _ _) : execMin _ _ _ _ _ = _)
  · cases h; exact (aluRR_result hx (maxS_eq_ofInt _ _) : execMax _ _ _ _ _ = _)
  · cases h; exact (aluRR_result hx (minU_eq_ofNat _ _) : execMinu _ _ _ _ _ = _)
  · cases h; exact (aluRR_result hx (maxU_eq_ofNat _ _) : execMaxu _ _ _ _ _ = _)
  · cases h; exact (aluRR_result hx (mul_eq_ofInt _ _) : execMul _ _ _ _ _ = _)
  · cases h; exact (aluRR_result hx rfl : execMulh _ _ _ _ _ = _)
  · cases h; exact (aluRR_result hx rfl : execMulhu _ _ _ _ _ = _)
  · cases h; exact (aluRR_result hx rfl : execDiv _ _ _ _ _ = _)
  · cases h; exact (aluRR_result hx rfl : execDivu _ _ _ _ _ = _)
  · cases h; exact (aluRR_result hx (remS_eq_ofInt _ _) : execRem _ _ _ _ _ = _)
  · cases h; exact (aluRR_result hx (remU_eq_ofNat _ _) : execRemu _ _ _ _ _ = _)
  · cases h; exact (aluRI_result hx (add_sx14_eq_ofInt _ _) : execAddi _ _ _ _ _ = _)
  · cases h; exact (aluRI_result hx (congrArg (_ &&& ·) (zx14_eq_ofNat _)) : execAndi _ _ _ _ _ = _)
  · cases h; exact (aluRI_result hx (congrArg (_ ||| ·) (zx14_eq_ofNat _)) : execOri _ _ _ _ _ = _)
  · cases h; exact (aluRI_result hx (congrArg (_ ^^^ ·) (zx14_eq_ofNat _)) : execXori _ _ _ _ _ = _)
  · obtain ⟨hi, h⟩ := Option.ite_none_right_eq_some.mp h
    cases h; exact (shiftI_result hi hx (shiftLeft_eq_ofNat _ _) : execSlli _ _ _ _ _ = _)
  · obtain ⟨hi, h⟩ := Option.ite_none_right_eq_some.mp h
    cases h; exact (shiftI_result hi hx (ushiftRight_eq_ofNat _ _) : execSrli _ _ _ _ _ = _)
  · obtain ⟨hi, h⟩ := Option.ite_none_right_eq_some.mp h
    cases h; exact (shiftI_result hi hx (sshiftRight_eq_ofInt _ _) : execSrai _ _ _ _ _ = _)
  · cases h; exact (aluRI_result hx (ofBool_slt_sx14 _ _) : execSlti _ _ _ _ _ = _)
  · cases h; exact (aluRI_result hx (ofBool_ult _ _) : execSltiu _ _ _ _ _ = _)
  · cases h; exact moveWide_result hx
  · cases h; exact (onTile_executes hx : execFmvXD _ _ _ _ = _)
  · cases h

/-! ### Retirement where the instruction may be stepped (R77) -/

/-- Where no loop body ends, an instruction retires in sequence, and SSTEP follows at user level with status.SSTEP set. -/
theorem State.retire1_plain {s : State} {t : Nat} (h0 : (s.tile t).atLoopEnd 0 = false) (h1 : (s.tile t).atLoopEnd 1 = false) :
    s.retire1 t = (s.setTile t { (s.tile t).countRet with pc := (s.tile t).pc + 4, mode := .running }).stepTrap t
      (s.tile t).user ((s.tile t).cf csrStatus stSstep == 1) := by
  have hpc : (s.tile t).countRet.pc = (s.tile t).pc := by rw [Tile.countRet_rest]
  unfold State.retire1
  dsimp only
  rw [Tile.seqNext_plain _ ((Tile.atLoopEnd_countRet _ (by decide)).trans h0)
    ((Tile.atLoopEnd_countRet _ (by decide)).trans h1)]
  simp only [hpc, Bool.false_eq_true, if_false]

theorem State.stepTrap_eq (s : State) (t : Nat) (user : Bool) (n : Nat) :
    s.stepTrap t user (n == 1) = if user = true ∧ n = 1 then s.exc t 0x0F 0 0 else s := by
  simp only [State.stepTrap, Bool.and_eq_true, beq_iff_eq]; rfl

/-! ### Writes of one tile -/

/-- The first of two writes of a key leaves no trace where it wrote a value that the table lists, whatever form the table had. -/
theorem SMap.set_set {β : Type} [DecidableEq β] {d : Nat → β} {k : Nat} {v w : β} (hv : v ≠ d k) :
    ∀ m : SMap β, SMap.set d (SMap.set d m k v) k w = SMap.set d m k w
  | [] => by by_cases hw : w = d k <;> simp [SMap.set, hv, hw]
  | (j, u) :: r => by
    by_cases h1 : j < k
    · simp [SMap.set, h1, SMap.set_set hv r]
    · by_cases h2 : j = k <;> by_cases hw : w = d k <;> simp [SMap.set, hv, h1, h2, hw]

/-- A tile that runs is not in its start state, so the table of tiles lists it. -/
theorem State.setTile_setTile {s : State} {t : Nat} {x y : Tile} (hx : x.mode = .running) :
    (s.setTile t x).setTile t y = s.setTile t y := by
  have hne : x ≠ noTile t := fun e => by rw [e] at hx; cases hx
  unfold State.setTile
  rw [SMap.set_set hne]

theorem State.mode_of_runs {s : State} {t : Nat} (h : s.runs t = true) : (s.tile t).mode = .running := by
  simp only [State.runs, Bool.and_eq_true, beq_iff_eq] at h
  exact h.1

theorem Tile.atLoopEnd_setS (x : Tile) (r n : Nat) (v : Word) : (x.setS r v).atLoopEnd n = x.atLoopEnd n :=
  Tile.atLoopEnd_congr n (by simp) (by simp) (by simp)

theorem Tile.cf_setS (x : Tile) (r n : Nat) (v : Word) (f : Fld) : (x.setS r v).cf n f = x.cf n f := by simp [Tile.cf]

/-- A scalar instruction that single-steps: its result is written, it retires, and SSTEP is raised. -/
theorem State.finS_stepped {s : State} {t rd : Nat} {v : Word} (hm : (s.tile t).mode = .running)
    (h0 : (s.tile t).atLoopEnd 0 = false) (h1 : (s.tile t).atLoopEnd 1 = false)
    (hu : (s.tile t).user = true) (hs : (s.tile t).cf csrStatus stSstep = 1) :
    s.finS t rd v =
      (s.setTile t { ((s.tile t).setS rd v).countRet with pc := (s.tile t).pc + 4, mode := .running }).exc t 0x0F 0 0 := by
  have hu' : ((s.tile t).setS rd v).user = true := by rw [Tile.user, Tile.cf_setS]; exact hu
  unfold State.finS
  rw [State.retire1_plain (by rw [State.tile_setTile_same, Tile.atLoopEnd_setS]; exact h0)
      (by rw [State.tile_setTile_same, Tile.atLoopEnd_setS]; exact h1), State.stepTrap_eq, State.tile_setTile_same,
    if_pos ⟨hu', (Tile.cf_setS ..).trans hs⟩, State.setTile_setTile (by rw [Tile.setS_mode]; exact hm), Tile.setS_pc]

/-! ### Reads of stored bytes -/

theorem State.bytes_lt (s : State) (a : Nat) : ∀ n, s.bytes a n < 256 ^ n
  | 0 => Nat.one_pos
  | n + 1 => by
    have hb : (s.byte (a + n)).toNat + 1 ≤ 256 := (s.byte (a + n)).isLt
    calc s.bytes a n + (s.byte (a + n)).toNat * 256 ^ n
        < 256 ^ n + (s.byte (a + n)).toNat * 256 ^ n := Nat.add_lt_add_right (s.bytes_lt a n) _
      _ = ((s.byte (a + n)).toNat + 1) * 256 ^ n := by ring
      _ ≤ 256 * 256 ^ n := Nat.mul_le_mul_right _ hb
      _ = 256 ^ (n + 1) := by ring

/-- The first m of n bytes are the low bytes of the number they spell (R6). -/
theorem State.bytes_mod (s : State) (a m : Nat) : ∀ k, s.bytes a (m + k) % 256 ^ m = s.bytes a m
  | 0 => Nat.mod_eq_of_lt (s.bytes_lt a m)
  | k + 1 => by
    have hstep : s.bytes a (m + (k + 1)) = s.bytes a (m + k) + 256 ^ m * ((s.byte (a + (m + k))).toNat * 256 ^ k) := by
      rw [← Nat.add_assoc, State.bytes, pow_add]; ring
    rw [hstep, Nat.add_mul_mod_self_left, s.bytes_mod a m k]

/-- An injected error that is not armed, or whose byte is not among those accessed, is not met (Table 15.7). -/
theorem State.meetInjected_eq_self {s : State} {d a n : Nat}
    (h : s.bit (RAS_INJECT d) RAS_INJECT_ARM = false ∨ RAS_INJECT_ADDR.get (s.rd (RAS_INJECT d)) < a ∨
      a + n ≤ RAS_INJECT_ADDR.get (s.rd (RAS_INJECT d))) : s.meetInjected d a n = s := by
  unfold State.meetInjected
  dsimp only
  rw [if_pos (by simpa [or_assoc] using h)]

/-- Bytes with good parity are read as they stand. -/
theorem State.storeRead_good {s : State} {t a n : Nat} (h : GoodBytes s (t / 32) a n) :
    s.storeRead t a n = (s, .ok (s.bytes a n)) := by
  obtain ⟨hbad, hinj⟩ := h
  unfold State.storeRead
  dsimp only
  rw [State.meetInjected_eq_self hinj, hbad]; rfl

/-! ### Return from a trap (R79) -/

/-- Tile t has returned from a trap whose frame at fsp holds the doublewords f. -/
def State.trapReturned (s : State) (t fsp : Nat) (f : Nat → Word) : State :=
  let target := (f 0).toNat / 4 * 4
  let x := ((s.tile t).restore f).setC csrFsp (BitVec.ofNat 64 (fsp + 256))
  let s := s.setTile t x.countRet
  let s := s.setTile t { s.tile t with pc := BitVec.ofNat 48 target, pcHigh := BitVec.ofNat 16 (target / 2 ^ 48) }
  s.trace t 3 0 target

theorem State.notLast_eq {s k : State} {t : Nat} {w : Word} (h0 : (s.tile t).atLoopEnd 0 = false)
    (h1 : (s.tile t).atLoopEnd 1 = false) : s.notLast t w k = k := by
  unfold State.notLast
  simp [h0, h1]

/-- Writes of s registers change nothing else. -/
theorem Tile.foldl_setS_rest (r : Nat → Nat) (v : Nat → Word) : ∀ (l : List Nat) (x : Tile),
    l.foldl (fun x i => x.setS (r i) (v i)) x = { x with s := (l.foldl (fun x i => x.setS (r i) (v i)) x).s }
  | [], _ => rfl
  | i :: l, x => by
    have hset : x.setS (r i) (v i) = { x with s := (x.setS (r i) (v i)).s } := by unfold Tile.setS; split <;> rfl
    rw [List.foldl_cons, Tile.foldl_setS_rest r v l, hset]

theorem Tile.restore_kPause (x : Tile) (f : Nat → Word) : (x.restore f).kPause = x.kPause := by
  unfold Tile.restore
  rw [Tile.foldl_setS_rest]
  rfl

/-- A supervisor-level eret whose frame reads without error, with no unit paused, restores the frame and steps nothing. -/
theorem exec_eret_supervisor {s : State} {t : BitVec 8} (hseq : InSequence s t.toNat)
    (hd : (s.tile t.toNat).drainBusy = false) (hx : Executes s t []) (hu : (s.tile t.toNat).user = false)
    (hk : (s.tile t.toNat).kPause = .none) (hin : inStore t.toNat ((s.tile t.toNat).c csrFsp).toNat 256 = true)
    (hg : GoodBytes s (t.toNat / 32) ((s.tile t.toNat).c csrFsp).toNat 256) :
    exec (.eret t) s = .next (s.trapReturned t.toNat ((s.tile t.toNat).c csrFsp).toNat
      fun k => BitVec.ofNat 64 (s.bytes ((s.tile t.toNat).c csrFsp).toNat 256 / 2 ^ (64 * k))) := by
  obtain ⟨h0, h1, -⟩ := hseq
  have harm : exec (.eret t) s = execEret t s := rfl
  rw [harm, execEret, onTileSerial_executes hx hd, State.notLast_eq h0 h1]
  simp only [hu, hin, State.storeRead_good hg, Tile.setC_kPause, Tile.restore_kPause, hk]
  rfl

theorem Tile.c_congr {x y : Tile} (h : y.csr = x.csr) {n : Nat} : y.c n = x.c n := by unfold Tile.c; rw [h]

theorem Tile.c_foldl_setS (r : Nat → Nat) (v : Nat → Word) (l : List Nat) (x : Tile) (n : Nat) :
    (l.foldl (fun x i => x.setS (r i) (v i)) x).c n = x.c n := Tile.c_congr (by rw [Tile.foldl_setS_rest])

/-- The frame restores status, mask and the loop CSRs, and no other CSR. -/
theorem Tile.c_restore (x : Tile) (f : Nat → Word) {n : Nat} (h : n ∉ [csrStatus, csrMask, csrLc 0, csrLs 0, csrLc 1, csrLs 1]) :
    (x.restore f).c n = x.c n := by
  simp only [List.mem_cons, List.not_mem_nil, or_false, not_or] at h
  obtain ⟨hst, hmk, hc0, hs0, hc1, hs1⟩ := h
  unfold Tile.restore
  rw [Tile.c_foldl_setS, Tile.c_setC_ne _ _ hs1, Tile.c_setC_ne _ _ hc1, Tile.c_setC_ne _ _ hs0,
    Tile.c_setC_ne _ _ hc0, Tile.c_setC_ne _ _ hmk, Tile.c_setC_ne _ _ hst]

theorem State.trapReturned_pc (s : State) (t fsp : Nat) (f : Nat → Word) :
    ((s.trapReturned t fsp f).tile t).pc = BitVec.ofNat 48 ((f 0).toNat / 4 * 4) := by
  unfold State.trapReturned
  simp only
  rw [State.trace_tile, State.tile_setTile_same]

/-- A return raises no exception: cause keeps its value. -/
theorem State.trapReturned_cause (s : State) (t fsp : Nat) (f : Nat → Word) :
    ((s.trapReturned t fsp f).tile t).c csrCause = (s.tile t).c csrCause := by
  have hcsr : ((s.trapReturned t fsp f).tile t).csr =
      (((s.tile t).restore f).setC csrFsp (BitVec.ofNat 64 (fsp + 256))).countRet.csr := by
    unfold State.trapReturned
    simp only
    rw [State.trace_tile, State.tile_setTile_same, State.tile_setTile_same]
  rw [Tile.c_congr hcsr, Tile.c_countRet _ (by decide) (by decide), Tile.c_setC_ne _ _ (by decide), Tile.c_restore _ _ (by decide)]

/-- The pc of a frame is its first doubleword with bits [1:0] cleared, within the 48 bits of the pc. -/
theorem framePc_toNat (s : State) (a : Nat) :
    (BitVec.ofNat 48 ((BitVec.ofNat 64 (s.bytes a 256 / 2 ^ (64 * 0))).toNat / 4 * 4)).toNat = s.bytes a 8 / 4 * 4 % 2 ^ 48 := by
  have hlow : s.bytes a 256 % 2 ^ 64 = s.bytes a 8 := s.bytes_mod a 8 248
  rw [Nat.mul_zero, Nat.pow_zero, Nat.div_one, BitVec.toNat_ofNat, BitVec.toNat_ofNat, hlow]

/-- Settles O13: retirement in sequence raises SSTEP exactly at user level with status.SSTEP set, each integer instruction retires
so, and eret, which retires by its own frame, changes pc and leaves cause as it was. -/
theorem singleStepRaisesSstep : Obligations.SingleStepRaisesSstep := by
  refine ⟨fun s t h0 h1 => ?_, fun s i t reads rd v hi hx h0 h1 hu hs => ?_, fun s t hseq hd hx hu hk hin hg => ?_⟩
  · exact (State.retire1_plain h0 h1).trans (State.stepTrap_eq ..)
  · have hm : (s.tile t.toNat).mode = .running := State.mode_of_runs hx.1
    rw [exec_integerResult hi hx, State.finS_stepped hm h0 h1 hu hs]
  · refine ⟨_, exec_eret_supervisor hseq hd hx hu hk hin hg, State.trapReturned_cause .., ?_⟩
    rw [State.trapReturned_pc, framePc_toNat]

end Sys2Proof.Machine
end

section
/-!
Proofs about the registers of the memory controllers (09 R236) and of the VKN_ blocks (10 R269): where control space places
them, what a write of one there does for a tile, and what a control-space load of a tile answers.
-/
namespace Sys2Proof.Machine

/-! ### Where the blocks lie (Tables 12.11 and 12.12) -/

theorem dieBase_add_sub (d o : Nat) : dieBase d + o - dieBase 0 = o + 0x02000000 * d := by
  unfold dieBase; omega

theorem dieBase_add_div {d o : Nat} (ho : o < 0x02000000) : (dieBase d + o - dieBase 0) / 0x02000000 = d := by
  rw [dieBase_add_sub]; omega

theorem dieBase_add_mod {d o : Nat} (ho : o < 0x02000000) : (dieBase d + o - dieBase 0) % 0x02000000 = o := by
  rw [dieBase_add_sub]; omega

theorem dieBase_add_lt_hubBase {d o : Nat} (hd : d < 8) (ho : o < 0x02000000) : dieBase d + o < hubBase := by
  unfold dieBase hubBase; omega

theorem dieBase_zero_le_hubBase : dieBase 0 ≤ hubBase := by decide

theorem vknBase_die_add {k : Nat} (hk : k < 8) (r : Nat) : vknBase k + r = dieBase k + (0x600000 + r) := by
  rw [vknBase, if_pos hk, Nat.add_assoc]

theorem vknBase_hub_add (r : Nat) : vknBase 8 + r = hubBase + (0x800000 + r) := Nat.add_assoc ..

theorem memBase_stack_add {m : Nat} (hm : m < 16) (r : Nat) :
    memBase m + r = dieBase (m / 2) + (0x300000 + (m % 2 * 0x40000 + r)) := by
  rw [memBase, if_pos hm]; omega

theorem memBase_bulk_add {m : Nat} (hm : ¬ m < 16) (r : Nat) :
    memBase m + r = dieBase ((m - 16) / 6) + (0x400000 + ((m - 16) % 6 * 0x1000 + r)) := by
  rw [memBase, if_neg hm]; omega

/-- NOTIFY of a ring lies in that ring's page, and no ring has a page here (R294). -/
theorem notifyAlias_eq_none {o : Nat} (h : 0x300000 ≤ o) : notifyAlias o = none := by
  unfold notifyAlias
  rw [if_neg (by omega)]

section
variable {s : State} {w : Master} {v : Word}

/-! ### A write reaches the block that holds the register -/

theorem State.ctlWrite_die {d o : Nat} (hd : d < 8) (ho : o < 0x02000000) (h8 : (dieBase d + o) % 8 = 0) :
    s.ctlWrite w (dieBase d + o) v = s.dieWrite w (dieBase d + o) v := by
  have hhub : dieBase d + o < hubBase := dieBase_add_lt_hubBase hd ho
  have hlow : dieBase 0 ≤ dieBase d + o := by unfold dieBase; omega
  unfold State.ctlWrite
  rw [if_neg (by omega), if_neg (by omega), Nat.div_mul_cancel (Nat.dvd_of_mod_eq_zero h8)]

theorem State.ctlWrite_hub {o : Nat} (ho : o < 0x1000000) (h8 : (hubBase + o) % 8 = 0) :
    s.ctlWrite w (hubBase + o) v = s.hubWrite w (hubBase + o) v := by
  have hlow : dieBase 0 ≤ hubBase := dieBase_zero_le_hubBase
  unfold State.ctlWrite
  rw [if_neg (by omega), if_pos (by omega), Nat.div_mul_cancel (Nat.dvd_of_mod_eq_zero h8)]

theorem State.dieWrite_stack {d o : Nat} (ho : o < 0x02000000) (hblock : o / 0x100000 = 3)
    (hreg : (descOf (dieBase d + o)).isSome = true) :
    s.dieWrite w (dieBase d + o) v = s.memCtlWrite w (2 * d + o % 0x100000 / 0x40000) (o % 0x100000 % 0x40000) v := by
  have hsome : (descOf (dieBase d + o)).isNone = false := Option.isNone_eq_false_iff.mpr hreg
  unfold State.dieWrite
  simp only [hsome, dieBase_add_div ho, dieBase_add_mod ho, hblock, Bool.false_eq_true, if_false]
  rw [if_neg (by omega)]

theorem State.dieWrite_bulk {d o : Nat} (ho : o < 0x02000000) (hblock : o / 0x100000 = 4)
    (hreg : (descOf (dieBase d + o)).isSome = true) :
    s.dieWrite w (dieBase d + o) v = s.memCtlWrite w (16 + 6 * d + o % 0x100000 / 0x1000) (o % 0x100000 % 0x1000) v := by
  have hsome : (descOf (dieBase d + o)).isNone = false := Option.isNone_eq_false_iff.mpr hreg
  unfold State.dieWrite
  simp only [hsome, dieBase_add_div ho, dieBase_add_mod ho, hblock, Bool.false_eq_true, if_false]
  rw [if_neg (by omega)]

theorem State.dieWrite_vkn {d o : Nat} (ho : o < 0x02000000) (hblock : o / 0x100000 = 6)
    (hreg : (descOf (dieBase d + o)).isSome = true) :
    s.dieWrite w (dieBase d + o) v = s.vknWrite w d (o % 0x100000) v := by
  have hsome : (descOf (dieBase d + o)).isNone = false := Option.isNone_eq_false_iff.mpr hreg
  unfold State.dieWrite
  simp only [hsome, dieBase_add_div ho, dieBase_add_mod ho, hblock, Bool.false_eq_true, if_false]
  rw [if_neg (by omega)]

/-- The definition is unfolded before it is applied: applied to a, the kernel would compute a - hubBase by recursion on hubBase. -/
theorem State.hubWrite_vkn {a : Nat} (hblock : (a - hubBase) / 0x100000 = 8) (hreg : (descOf a).isSome = true) :
    s.hubWrite w a v = s.vknWrite w 8 ((a - hubBase) % 0x100000) v := by
  have hsome : (descOf a).isNone = false := Option.isNone_eq_false_iff.mpr hreg
  have hring : notifyAlias (a - hubBase) = none := notifyAlias_eq_none (by omega)
  have hfun : State.hubWrite = State.hubWrite := rfl
  conv at hfun => rhs; delta State.hubWrite
  rw [hfun]
  simp only [hring, hsome, hblock, Bool.false_eq_true, if_false]

/-- A write of any register of a VKN_ block, by any master, is a write of that block. -/
theorem State.ctlWrite_vkn {k r : Nat} (hk : k ≤ 8) (hr : r < 0x100000) (h8 : (vknBase k + r) % 8 = 0)
    (hreg : (descOf (vknBase k + r)).isSome = true) : s.ctlWrite w (vknBase k + r) v = s.vknWrite w k r v := by
  rcases Nat.lt_or_eq_of_le hk with hdie | rfl
  · have hoff : (0x600000 + r) % 0x100000 = r := by omega
    rw [vknBase_die_add hdie] at h8 hreg ⊢
    rw [State.ctlWrite_die hdie (by omega) h8, State.dieWrite_vkn (by omega) (by omega) hreg, hoff]
  · have hoff : (0x800000 + r) % 0x100000 = r := by omega
    have hsub : hubBase + (0x800000 + r) - hubBase = 0x800000 + r := Nat.add_sub_cancel_left ..
    rw [vknBase_hub_add] at h8 hreg ⊢
    rw [State.ctlWrite_hub (by omega) h8, State.hubWrite_vkn (by omega) hreg, hsub, hoff]

/-- A write of any register of a memory controller, by any master, is a write of that controller. -/
theorem State.ctlWrite_mem {m r : Nat} (hm : m < 64) (hr : r < if m < 16 then 0x40000 else 0x1000)
    (h8 : (memBase m + r) % 8 = 0) (hreg : (descOf (memBase m + r)).isSome = true) :
    s.ctlWrite w (memBase m + r) v = s.memCtlWrite w m r v := by
  by_cases hstack : m < 16
  · rw [if_pos hstack] at hr
    have hmem : 2 * (m / 2) + (0x300000 + (m % 2 * 0x40000 + r)) % 0x100000 / 0x40000 = m := by omega
    have hoff : (0x300000 + (m % 2 * 0x40000 + r)) % 0x100000 % 0x40000 = r := by omega
    rw [memBase_stack_add hstack] at h8 hreg ⊢
    rw [State.ctlWrite_die (by omega) (by omega) h8, State.dieWrite_stack (by omega) (by omega) hreg, hmem, hoff]
  · rw [if_neg hstack] at hr
    have hmem : 16 + 6 * ((m - 16) / 6) + (0x400000 + ((m - 16) % 6 * 0x1000 + r)) % 0x100000 / 0x1000 = m := by omega
    have hoff : (0x400000 + ((m - 16) % 6 * 0x1000 + r)) % 0x100000 % 0x1000 = r := by omega
    rw [memBase_bulk_add hstack] at h8 hreg ⊢
    rw [State.ctlWrite_die (by omega) (by omega) h8, State.dieWrite_bulk (by omega) (by omega) hreg, hmem, hoff]

/-! ### What these blocks do with a write of a master other than the Cox -/

theorem State.vknWrite_permErr {k r : Nat} (hw : isCox w = false) :
    s.vknWrite w k r v = s.setf (VKN_STATUS k) VKN_STATUS_PERM_ERR 1 := by
  unfold State.vknWrite
  rw [hw]; rfl

theorem State.memCtlWrite_permErr {m r : Nat} (hw : isCox w = false) :
    s.memCtlWrite w m r v = s.setf (HBM_STATE m) HBM_STATE_PERM_ERR 1 := by
  unfold State.memCtlWrite
  rw [hw]; rfl

/-- REGISTER_WRITE of a tile is its write in control space. -/
theorem exec_registerWrite_tile {t a : Nat} (ha : a < 2 ^ 52) :
    exec (.registerWrite (.tile t) (BitVec.ofNat 52 a) v) s = .next (s.ctlWrite (.tile t) a v) := by
  have harm : exec (.registerWrite (.tile t) (BitVec.ofNat 52 a) v) s =
    .next (s.ctlWrite (.tile t) (BitVec.ofNat 52 a).toNat v) := rfl
  rw [harm, BitVec.toNat_ofNat, Nat.mod_eq_of_lt ha]

/-! ### Reads answer the register and change nothing -/

theorem State.ctlRead_die {d o : Nat} (hd : d < 8) (ho : o < 0x02000000) (htil : 0x200000 ≤ o) (hras : o / 0x100000 ≠ 8)
    (h8 : (dieBase d + o) % 8 = 0) (hreg : (descOf (dieBase d + o)).isSome = true) :
    s.ctlRead w (dieBase d + o) = (s, s.rd (dieBase d + o)) := by
  have hhub : dieBase d + o < hubBase := dieBase_add_lt_hubBase hd ho
  have hsome : (descOf (dieBase d + o)).isNone = false := Option.isNone_eq_false_iff.mpr hreg
  unfold State.ctlRead
  simp only [Nat.div_mul_cancel (Nat.dvd_of_mod_eq_zero h8), hsome, dieBase_add_mod ho, Bool.false_eq_true, false_or]
  rw [if_neg (by omega), if_neg (by omega), if_neg (by omega), if_neg hras]

theorem State.ctlRead_vknHub {a : Nat} (hblock : (a - hubBase) / 0x100000 = 8) (h8 : a % 8 = 0)
    (hreg : (descOf a).isSome = true) : s.ctlRead w a = (s, s.rd a) := by
  have hsome : (descOf a).isNone = false := Option.isNone_eq_false_iff.mpr hreg
  unfold State.ctlRead
  simp only [Nat.div_mul_cancel (Nat.dvd_of_mod_eq_zero h8), hsome, hblock, Bool.false_eq_true, false_or]
  rw [if_neg (by omega), if_pos (by omega)]

theorem State.ctlRead_vkn {k r : Nat} (hk : k ≤ 8) (hr : r < 0x100000) (h8 : (vknBase k + r) % 8 = 0)
    (hreg : (descOf (vknBase k + r)).isSome = true) : s.ctlRead w (vknBase k + r) = (s, s.rd (vknBase k + r)) := by
  rcases Nat.lt_or_eq_of_le hk with hdie | rfl
  · rw [vknBase_die_add hdie] at h8 hreg ⊢
    exact State.ctlRead_die hdie (by omega) (by omega) (by omega) h8 hreg
  · have hsub : vknBase 8 + r - hubBase = 0x800000 + r := by rw [vknBase_hub_add, Nat.add_sub_cancel_left]
    exact State.ctlRead_vknHub (by omega) h8 hreg

theorem State.ctlRead_mem {m r : Nat} (hm : m < 64) (hr : r < if m < 16 then 0x40000 else 0x1000)
    (h8 : (memBase m + r) % 8 = 0) (hreg : (descOf (memBase m + r)).isSome = true) :
    s.ctlRead w (memBase m + r) = (s, s.rd (memBase m + r)) := by
  by_cases hstack : m < 16
  · rw [if_pos hstack] at hr
    rw [memBase_stack_add hstack] at h8 hreg ⊢
    exact State.ctlRead_die (by omega) (by omega) (by omega) (by omega) h8 hreg
  · rw [if_neg hstack] at hr
    rw [memBase_bulk_add hstack] at h8 hreg ⊢
    exact State.ctlRead_die (by omega) (by omega) (by omega) (by omega) h8 hreg

/-- The 8 bytes at an aligned address are the whole doubleword. -/
theorem part_doubleword (x : Word) {a : Nat} (h8 : a % 8 = 0) : part x a 8 = x.toNat := by
  rw [part, h8, Nat.pow_zero, Nat.div_one, Nat.mod_eq_of_lt (show x.toNat < 256 ^ 8 from x.isLt)]

/-- A tile's only control-space load, with a way to its block and no store before it, is answered with the register there. -/
theorem exec_crd_alone {t : BitVec 8} {a : Nat} (hflow : s.flows (t.toNat / 32) (dieOf a) = true)
    (hstores : s.store.outStores = []) (hload : s.links.ctlReads = [⟨t.toNat, a, 8, none⟩]) (h8 : a % 8 = 0)
    (hread : s.ctlRead (.tile t.toNat) a = (s, s.rd a)) :
    exec (.crd t) s = .next { s with links := { s.links with ctlReads := [⟨t.toNat, a, 8, some (s.rd a).toNat⟩] } } := by
  have harm : exec (.crd t) s = execCrd t s := rfl
  obtain ⟨hreach, hholds⟩ : s.reach (t.toNat / 32) (dieOf a) = true ∧ s.holds (t.toNat / 32) (dieOf a) = false := by
    simpa [State.flows] using hflow
  rw [harm, execCrd]
  simp [hload, hstores, hreach, hholds, hread, part_doubleword _ h8]

end

/-- Settles O37: each register lies in one block of control space (R236, R269), whose write by a tile sets PERM_ERR alone and
whose read is the register's value. -/
theorem linkAndMemoryRegistersAreTheCoxs : Obligations.LinkAndMemoryRegistersAreTheCoxs := by
  intro s a ha h8 hreg
  refine ⟨fun t v => ⟨fun k hk hlo hhi => ?_, fun m hm hlo hhi => ?_⟩, fun hblock t hflow hstores hload => ?_⟩
  · obtain ⟨r, rfl⟩ := Nat.exists_eq_add_of_le hlo
    rw [exec_registerWrite_tile ha, State.ctlWrite_vkn hk (Nat.add_lt_add_iff_left.mp hhi) h8 hreg, State.vknWrite_permErr rfl]
  · obtain ⟨r, rfl⟩ := Nat.exists_eq_add_of_le hlo
    rw [exec_registerWrite_tile ha, State.ctlWrite_mem hm (Nat.add_lt_add_iff_left.mp hhi) h8 hreg, State.memCtlWrite_permErr rfl]
  · refine exec_crd_alone hflow hstores hload h8 ?_
    rcases hblock with ⟨k, hk, hlo, hhi⟩ | ⟨m, hm, hlo, hhi⟩
    · obtain ⟨r, rfl⟩ := Nat.exists_eq_add_of_le hlo
      exact State.ctlRead_vkn hk (Nat.add_lt_add_iff_left.mp hhi) h8 hreg
    · obtain ⟨r, rfl⟩ := Nat.exists_eq_add_of_le hlo
      exact State.ctlRead_mem hm (Nat.add_lt_add_iff_left.mp hhi) h8 hreg

end Sys2Proof.Machine
end

section
/-!
Proofs about a sample of a die's temperature (16 R399, R400) and about a trip (16 R386, Table 18.1): what a field reads after
a write of its register, what the report of an event leaves unchanged, what a wipe keeps, and what the sample leads to below
115 °C and at or above it.
-/
namespace Sys2Proof.Machine

/-! ### Fields of a register -/

theorem Fld.testBit_get (f : Fld) (v : Word) (i : Nat) : (f.get v).testBit i = (decide (i < f.len) && v.getLsbD (f.lo + i)) := by
  rw [Fld.get, Nat.testBit_mod_two_pow, Nat.testBit_shiftRight, BitVec.testBit_toNat]

/-- The low bits of n at the place of a field. -/
theorem Fld.getLsbD_placed (f : Fld) (n i : Nat) : (BitVec.ofNat 64 ((n % 2 ^ f.len) <<< f.lo)).getLsbD i =
    (decide (i < 64) && (decide (f.lo ≤ i ∧ i < f.lo + f.len) && n.testBit (i - f.lo))) := by
  rw [BitVec.getLsbD_ofNat, Nat.testBit_shiftLeft, Nat.testBit_mod_two_pow]
  by_cases hlo : f.lo ≤ i
  · simp [hlo, Nat.sub_lt_iff_lt_add hlo, Nat.add_comm]
  · simp [hlo]

theorem Fld.getLsbD_mask (f : Fld) (i : Nat) :
    f.mask.getLsbD i = (decide (i < 64) && decide (f.lo ≤ i ∧ i < f.lo + f.len)) := by
  have hones : 2 ^ f.len - 1 = (2 ^ f.len - 1) % 2 ^ f.len := (Nat.mod_eq_of_lt (Nat.sub_lt (Nat.two_pow_pos _) Nat.one_pos)).symm
  rw [Fld.mask, hones, Fld.getLsbD_placed, Nat.testBit_two_pow_sub_one, ← Bool.decide_and]
  congr 2
  exact propext ⟨And.left, fun h => ⟨h, by omega⟩⟩

/-- A field written holds the bits of the value; the bits outside it stand. -/
theorem Fld.getLsbD_put (f : Fld) (v : Word) (n i : Nat) : (f.put v n).getLsbD i =
    if f.lo ≤ i ∧ i < f.lo + f.len then decide (i < 64) && n.testBit (i - f.lo) else v.getLsbD i := by
  have hv : 64 ≤ i → v.getLsbD i = false := BitVec.getLsbD_of_ge v i
  rw [Fld.put, BitVec.getLsbD_or, BitVec.getLsbD_and, BitVec.getLsbD_not, Fld.getLsbD_mask, Fld.getLsbD_placed]
  by_cases h64 : i < 64
  · by_cases hin : f.lo ≤ i ∧ i < f.lo + f.len <;> simp [hin, h64]
  · simp [h64, hv (Nat.le_of_not_lt h64)]

theorem Fld.get_put_same {f : Fld} (hf : f.lo + f.len ≤ 64) (v : Word) (n : Nat) : f.get (f.put v n) = n % 2 ^ f.len := by
  refine Nat.eq_of_testBit_eq fun i => ?_
  rw [Fld.testBit_get, Fld.getLsbD_put, Nat.testBit_mod_two_pow, Nat.add_sub_cancel_left]
  by_cases hi : i < f.len
  · rw [if_pos (by omega), decide_eq_true (show f.lo + i < 64 by omega), Bool.true_and]
  · simp [hi]

theorem Fld.get_put_apart {f g : Fld} (hfg : g.lo + g.len ≤ f.lo ∨ f.lo + f.len ≤ g.lo) (v : Word) (n : Nat) :
    g.get (f.put v n) = g.get v := by
  refine Nat.eq_of_testBit_eq fun i => ?_
  rw [Fld.testBit_get, Fld.testBit_get, Fld.getLsbD_put]
  by_cases hi : i < g.len
  · rw [if_neg (by omega)]
  · simp [hi]

section
variable {s : State} {a : Nat} {f g : Fld} {n : Nat}

theorem State.fld_setf_same (hf : f.lo + f.len ≤ 64) : (s.setf a f n).fld a f = n % 2 ^ f.len := by
  rw [State.fld, State.setf, State.rd_wr_same, Fld.get_put_same hf]

theorem State.fld_setf_apart (hfg : g.lo + g.len ≤ f.lo ∨ f.lo + f.len ≤ g.lo) : (s.setf a f n).fld a g = s.fld a g := by
  rw [State.fld, State.setf, State.rd_wr_same, Fld.get_put_apart hfg, State.fld]

end

/-! ### Changes confined to some registers -/

/-- The state u differs from s in no register outside A, and in no byte of memory, no tile and no command that waits. -/
def QuietOutside (A : Nat → Prop) (s u : State) : Prop := (∀ a, ¬ A a → u.rd a = s.rd a) ∧ Quiet s u

section
variable {A B : Nat → Prop} {s u v : State}

theorem Quiet.trans (h : Quiet s u) (k : Quiet u v) : Quiet s v := by
  obtain ⟨hmem, htiles, hpending⟩ := h
  obtain ⟨kmem, ktiles, kpending⟩ := k
  exact ⟨kmem.trans hmem, ktiles.trans htiles, kpending.trans hpending⟩

theorem QuietOutside.refl : QuietOutside A s s := ⟨fun _ _ => rfl, rfl, rfl, rfl⟩

theorem QuietOutside.trans (h : QuietOutside A s u) (k : QuietOutside A u v) : QuietOutside A s v :=
  ⟨fun a ha => (k.1 a ha).trans (h.1 a ha), Quiet.trans h.2 k.2⟩

theorem QuietOutside.mono (hAB : ∀ a, A a → B a) (h : QuietOutside A s u) : QuietOutside B s u :=
  ⟨fun a ha => h.1 a fun hA => ha (hAB a hA), h.2⟩

theorem QuietOutside.setf {a : Nat} (ha : A a) (s : State) (f : Fld) (n : Nat) : QuietOutside A s (s.setf a f n) :=
  ⟨fun _ hb => State.rd_wr_ne s _ fun e => hb (e ▸ ha), rfl, rfl, rfl⟩

theorem QuietOutside.ite {p : Prop} [Decidable p] (h : QuietOutside A s u) : QuietOutside A s (if p then u else s) := by
  split
  · exact h
  · exact .refl

theorem QuietOutside.foldl {α : Type} {f : State → α → State} {l : List α} (hf : ∀ s, ∀ x ∈ l, QuietOutside A s (f s x)) (s : State) :
    QuietOutside A s (l.foldl f s) :=
  List.foldlRecOn l f .refl fun u hu x hx => hu.trans (hf u x hx)

theorem QuietOutside.fld {a : Nat} (h : QuietOutside A s u) (ha : ¬ A a) (f : Fld) : u.fld a f = s.fld a f :=
  congrArg f.get (h.1 a ha)

end

/-! ### The report of an event changes no register -/

theorem State.raiseVec_quiet (s : State) (v : Nat) : QuietOutside (fun _ => False) s (s.raiseVec v) := by
  unfold State.raiseVec
  dsimp only
  split
  · exact .refl
  · exact .ite .refl

theorem State.sessionEvent_quiet (s : State) (x : Session) (e : Ev) : QuietOutside (fun _ => False) s (s.sessionEvent x e) := by
  unfold State.sessionEvent
  dsimp only
  split
  · exact QuietOutside.trans (u := { s with cox := _ }) .refl (State.raiseVec_quiet _ _)
  · exact .refl

theorem State.event_quiet (s : State) (e : Ev) : QuietOutside (fun _ => False) s (s.event e) :=
  .foldl (fun s x _ => .ite (s.sessionEvent_quiet x e)) s

theorem State.notify_quiet (s : State) (a b : Nat) (ev : Option Ev) : QuietOutside (fun _ => False) s (s.notify a b ev) := by
  unfold State.notify
  split
  · exact .refl
  · cases ev with
    | none => exact .refl
    | some e => exact QuietOutside.trans (u := { s with coxIrq := _ }) .refl (State.event_quiet _ e)

/-! ### A sample below 115 °C (R399) -/

/-- A sticky bit of PWR_STATUS is set, and the event reported. -/
theorem State.heatAlarm_quiet (s : State) (f : Fld) (what state object : Nat) :
    QuietOutside (· = PWR_STATUS) s ((s.setf PWR_STATUS f 1).heatEvent what state object) :=
  (QuietOutside.setf (A := (· = PWR_STATUS)) rfl s f 1).trans ((State.notify_quiet _ _ _ _).mono fun _ => False.elim)

/-- The state of a die at temperature c, by WARN and THROT of THM_THR. -/
def State.heatState (s : State) (c : Int) : Nat :=
  if (s.fld THM_THR THM_THR_THROT : Int) ≤ c then 2 else if (s.fld THM_THR THM_THR_WARN : Int) ≤ c then 1 else 0

theorem State.heatState_lt (s : State) (c : Int) : s.heatState c < 2 ^ 2 := by
  unfold State.heatState
  split
  · decide
  · split <;> decide

/-- The PAT_MON registers of a compute die lie below those of the hub. -/
theorem PAT_MON_W1_lt_hubBase {d i : Nat} (hd : d < 8) (hi : i < 34) : PAT_MON_W1 d i < hubBase := by
  unfold PAT_MON_W1
  simp only [Nat.add_assoc]
  exact dieBase_add_lt_hubBase hd (by omega)

theorem THM_DIE_ne_PWR_STATUS (d : Nat) : THM_DIE d ≠ PWR_STATUS := by
  unfold THM_DIE PWR_STATUS; omega

/-- THM_DIE of die d shows temperature c and the state it means. -/
def State.showDie (s : State) (d : Nat) (c : Int) : State :=
  (s.setf (THM_DIE d) THM_DIE_TEMP (BitVec.ofInt 8 c).toNat).setf (THM_DIE d) THM_DIE_STATE (s.heatState c)

theorem State.showDie_temp (s : State) (d : Nat) (c : Int) :
    (s.showDie d c).fld (THM_DIE d) THM_DIE_TEMP = (BitVec.ofInt 8 c).toNat := by
  rw [State.showDie, State.fld_setf_apart (by decide), State.fld_setf_same (by decide)]
  exact Nat.mod_eq_of_lt (BitVec.isLt _)

theorem State.showDie_state (s : State) (d : Nat) (c : Int) :
    (s.showDie d c).fld (THM_DIE d) THM_DIE_STATE = s.heatState c := by
  rw [State.showDie, State.fld_setf_same (by decide)]
  exact Nat.mod_eq_of_lt (s.heatState_lt c)

/-- A die's sample is shown in THM_DIE; the alarms that may follow write PWR_STATUS alone. -/
theorem State.dieTemp_quiet (s : State) (d : Nat) (c : Int) : QuietOutside (· = PWR_STATUS) (s.showDie d c) (s.dieTemp d c) :=
  .trans (.ite (State.heatAlarm_quiet _ _ _ _ _)) (.ite (State.heatAlarm_quiet _ _ _ _ _))

theorem State.dieTemp_effect (s : State) (d : Nat) (c : Int) :
    (s.dieTemp d c).fld (THM_DIE d) THM_DIE_TEMP = (BitVec.ofInt 8 c).toNat ∧
      (s.dieTemp d c).fld (THM_DIE d) THM_DIE_STATE = s.heatState c ∧ Quiet s (s.dieTemp d c) := by
  have hthm (f : Fld) : (s.dieTemp d c).fld (THM_DIE d) f = (s.showDie d c).fld (THM_DIE d) f :=
    (s.dieTemp_quiet d c).fld (THM_DIE_ne_PWR_STATUS d) f
  exact ⟨(hthm _).trans (s.showDie_temp d c), (hthm _).trans (s.showDie_state d c), (s.dieTemp_quiet d c).2⟩

/-- The readings of die n's tiles stand in PAT_MON; the hub has no tiles. -/
def State.showTemps (s : State) (n : Nat) (temps : List (BitVec 8)) : State :=
  if n = 8 then s
  else (List.range (min 34 temps.length)).foldl (fun s i => s.setf (PAT_MON_W1 n i) PAT_MON_W1_TEMP (temps.getD i 0).toNat) s

theorem State.showTemps_quiet {n : Nat} (hn : n ≤ 8) (s : State) (temps : List (BitVec 8)) :
    QuietOutside (· < hubBase) s (s.showTemps n temps) := by
  unfold State.showTemps
  split
  · exact .refl
  · next hdie =>
    refine .foldl (fun u i hi => ?_) s
    have hi34 : i < 34 := Nat.lt_of_lt_of_le (List.mem_range.mp hi) (Nat.min_le_left ..)
    exact .setf (A := (· < hubBase)) (PAT_MON_W1_lt_hubBase (Nat.lt_of_le_of_ne hn hdie) hi34) u _ _

theorem State.heatState_showTemps {n : Nat} (hn : n ≤ 8) (s : State) (temps : List (BitVec 8)) (c : Int) :
    (s.showTemps n temps).heatState c = s.heatState c := by
  have hthr (f : Fld) : (s.showTemps n temps).fld THM_THR f = s.fld THM_THR f := (State.showTemps_quiet hn s temps).fld (by decide) f
  rw [State.heatState, State.heatState, hthr, hthr]

/-! ### What the sample leads to -/

/-- The running maximum over the sensors is the hottest of them. -/
theorem foldl_max_toInt {t : BitVec 8} {ts : List (BitVec 8)} {h : Int} (hle : ∀ c ∈ t :: ts, c.toInt ≤ h)
    (hmem : ∃ c ∈ t :: ts, c.toInt = h) : ts.foldl (fun (m : Int) c => max m c.toInt) t.toInt = h := by
  have hmax : ((t :: ts).map BitVec.toInt).max? = some h := List.max?_eq_some_iff.mpr ⟨List.mem_map.mpr hmem, by simpa using hle⟩
  rw [List.map_cons, List.max?_cons', List.foldl_map] at hmax
  exact Option.some.inj hmax

/-- With the rail of the sensors good, a sample trips the module or is compared with the thresholds. -/
theorem exec_dieTemperatureSample {s : State} {d : BitVec 4} {temps : List (BitVec 8)} {h : Int} (hd : d.toNat ≤ 8)
    (hrails : 4 ≤ s.boot.rails) (hle : ∀ c ∈ temps, c.toInt ≤ h) (hmem : ∃ c ∈ temps, c.toInt = h) :
    exec (.dieTemperatureSample d temps) s =
      .next (if 115 ≤ h then s.trip 3 d.toNat else (s.showTemps d.toNat temps).dieTemp d.toNat h) := by
  have harm : exec (.dieTemperatureSample d temps) s = execDieTemperatureSample d temps s := rfl
  cases temps with
  | nil => simp at hmem
  | cons t ts =>
    rw [harm, execDieTemperatureSample]
    dsimp only
    rw [if_neg (by omega), foldl_max_toInt hle hmem, State.showTemps]

/-! ### Power-on's placement (R475) -/

/-- Every logical tile runs in its own slot. -/
def State.AtHome (s : State) : Prop := ∀ t, s.physOf t = homeSlot t

theorem State.atHome_place {s : State} (h : s.AtHome) (k : Nat) :
    State.AtHome { s with placement := { s.placement with place := SMap.set homeSlot s.placement.place k (homeSlot k) } } := by
  intro t
  unfold State.physOf
  dsimp only
  rw [SMap.get_set]
  split
  · next ht => rw [ht]
  · exact h t

/-- The placement of a die changes the placement alone, and with no slot set aside leaves every tile in its own slot. -/
theorem State.placeDie_effect (s : State) (d : Nat) :
    (∃ p, s.placeDie d = { s with placement := p }) ∧ (s.fuses.setAside = [] → s.AtHome → (s.placeDie d).AtHome) := by
  unfold State.placeDie
  refine ⟨?_, fun hnone hhome => ?_⟩
  · refine List.foldlRecOn _ _ (motive := fun u => ∃ p, u = { s with placement := p }) ⟨s.placement, rfl⟩ ?_
    rintro _ ⟨p, rfl⟩ i -
    dsimp only
    split <;> exact ⟨_, rfl⟩
  · refine List.foldlRecOn _ _ (motive := State.AtHome) hhome fun u hu i hi => ?_
    have hi32 : i < 32 := List.mem_range.mp hi
    have hslot : ((List.range 34).filter fun k => !s.fuses.setAside.contains (34 * d + k))[i]? = some i := by
      simp [hnone, List.getElem?_range (show i < 34 by omega)]
    have hown : 34 * d + i = homeSlot (32 * d + i) := by unfold homeSlot; omega
    rw [hslot]
    dsimp only
    rw [hown]
    exact State.atHome_place hu _

theorem State.placeAll_effect (s : State) :
    (∃ p, s.placeAll = { s with placement := p }) ∧ (s.fuses.setAside = [] → s.placeAll.AtHome) := by
  unfold State.placeAll
  refine List.foldlRecOn _ _
    (motive := fun u => (∃ p, u = { s with placement := p }) ∧ (s.fuses.setAside = [] → u.AtHome)) ?_ ?_
  · exact ⟨⟨_, rfl⟩, fun _ _ => rfl⟩
  · rintro _ ⟨⟨p, rfl⟩, hhome⟩ d -
    obtain ⟨⟨q, hq⟩, hstays⟩ := State.placeDie_effect { s with placement := p } d
    exact ⟨⟨q, by rw [hq]⟩, fun hnone => hstays hnone (hhome hnone)⟩

/-! ### Wipe and trip (R386, Table 18.1) -/

section
variable {s u : State} (h : WipedFrom s u)
include h

theorem WipedFrom.wr {a : Nat} (ha : SEC_FUSE ≠ a) (v : Word) : WipedFrom s (u.wr a v) := by
  simpa [WipedFrom, State.rd_wr_ne u v ha, State.physOf] using h

theorem WipedFrom.setTap (x : Tap) : WipedFrom s { u with tap := x } := h

theorem WipedFrom.boots (f : Boot → Boot) : WipedFrom s (u.boots f) := h

end

/-- A wiped state is the placement of one that holds what Table 18.1 keeps, however its tiles are placed. -/
theorem State.wiped_eq_placeAll (s : State) : ∃ r : State, s.wiped = r.placeAll ∧ r.fuses = s.fuses ∧
    r.boot = { Boot.init with moduleId := s.boot.moduleId } ∧
    ∀ p, (s.fuses.setAside = [] → State.AtHome { r with placement := p }) → WipedFrom s { r with placement := p } := by
  have htrip : SEC_FUSE ≠ PWR_TRIP := by decide
  have hident : SEC_FUSE ≠ DEV_IDENT := by decide
  unfold State.wiped
  extract_lets
  rename_i r
  have hkept (p : Placement) (hhome : s.fuses.setAside = [] → State.AtHome { r with placement := p }) :
      WipedFrom s { r with placement := p } := by
    refine ⟨rfl, rfl, rfl, rfl, rfl, rfl, rfl, rfl, rfl, rfl, rfl, ?_, fun hnone t _ => ?_⟩
    · exact (State.rd_wr_ne _ _ htrip).trans (State.rd_wr_same ..)
    · rw [hhome hnone t, homeSlot, Nat.mul_comm]
  refine ⟨_, rfl, ?_⟩
  split
  · exact ⟨rfl, rfl, fun p hhome => WipedFrom.wr (hkept p hhome) hident _⟩
  · exact ⟨rfl, rfl, hkept⟩

theorem State.wiped_boot (s : State) : s.wiped.boot = { Boot.init with moduleId := s.boot.moduleId } := by
  obtain ⟨r, hr, -, hboot, -⟩ := s.wiped_eq_placeAll
  obtain ⟨⟨p, hp⟩, -⟩ := r.placeAll_effect
  rw [hr, hp, ← hboot]

theorem State.wiped_wipedFrom (s : State) : WipedFrom s s.wiped := by
  obtain ⟨r, hr, hfuses, -, hkept⟩ := s.wiped_eq_placeAll
  obtain ⟨⟨p, hp⟩, hhome⟩ := r.placeAll_effect
  rw [hr, hp]
  rw [hfuses, hp] at hhome
  exact hkept p hhome

@[simp] theorem State.boots_boot (s : State) (f : Boot → Boot) : (s.boots f).boot = f s.boot := rfl

@[simp] theorem State.rd_boots (s : State) (f : Boot → Boot) (a : Nat) : (s.boots f).rd a = s.rd a := rfl

/-- What a trip leaves in PWR_TRIP. -/
def State.tripRecord (s : State) (kind which : Nat) : Word :=
  BitVec.ofNat 64 (2 ^ 63 + kind % 256 * 2 ^ 48 + which % 256 * 2 ^ 40 + s.now.toNat % 2 ^ 32)

theorem State.trip_eq (s : State) (kind which : Nat) : s.trip kind which =
    ({ s.wiped with tap := Tap.init }.wr PWR_TRIP (s.tripRecord kind which)).boots fun b =>
      { b with tripped := true, held := s.boot.held } := by
  unfold State.trip State.tripRecord
  rfl

theorem State.trip_wipedFrom (s : State) (kind which : Nat) : WipedFrom s (s.trip kind which) := by
  rw [State.trip_eq]
  exact WipedFrom.boots (WipedFrom.wr (WipedFrom.setTap s.wiped_wipedFrom _) (by decide) _) _

theorem State.trip_boot (s : State) (kind which : Nat) :
    (s.trip kind which).boot = { s.wiped.boot with tripped := true, held := s.boot.held } := by
  rw [State.trip_eq, State.boots_boot, State.wr_boot]

theorem State.trip_record (s : State) (kind which : Nat) : (s.trip kind which).rd PWR_TRIP = s.tripRecord kind which := by
  rw [State.trip_eq, State.rd_boots, State.rd_wr_same]

/-- The fields of PWR_TRIP after a trip: V, KIND, WHICH and STROKE. -/
theorem State.tripRecord_fields (s : State) {kind which : Nat} (hk : kind < 256) (hw : which < 256) :
    let v := s.tripRecord kind which
    PWR_TRIP_V.get v = 1 ∧ PWR_TRIP_KIND.get v = kind ∧ PWR_TRIP_WHICH.get v = which ∧ PWR_TRIP_STROKE.get v = s.now.toNat % 2 ^ 32 := by
  have hv : (s.tripRecord kind which).toNat = 2 ^ 63 + kind * 2 ^ 48 + which * 2 ^ 40 + s.now.toNat % 2 ^ 32 := by
    rw [State.tripRecord, BitVec.toNat_ofNat]; omega
  simp only [Fld.get, hv, Nat.shiftRight_eq_div_pow, PWR_TRIP_V, PWR_TRIP_KIND, PWR_TRIP_WHICH, PWR_TRIP_STROKE]
  omega

/-- Settles O52: THM_THR resets to the defaults of R399; a sample at or above 115 °C is the trip of R386 with kind 3 and the die;
below it, the sample is shown with its state by THM_THR (R399), once the rail of the sensors is good (log 121). -/
theorem hotDieTripsModule : Obligations.HotDieTripsModule := by
  refine ⟨by decide, by decide, by decide, fun s d temps h hd hrails hle hmem => ⟨fun hhot => ?_, fun hcool => ?_⟩⟩
  · refine ⟨s.trip 3 d.toNat, ?_, s.trip_wipedFrom 3 d.toNat, by rw [State.trip_boot], ?_, ?_⟩
    · rw [exec_dieTemperatureSample hd hrails hle hmem, if_pos hhot]
    · rw [State.trip_boot, State.wiped_boot]; rfl
    · obtain ⟨hv, hkind, hwhich, hstroke⟩ := s.tripRecord_fields (kind := 3) (which := d.toNat) (by decide) (by omega)
      simp only [State.bit, State.fld, State.trip_record, hv, hkind, hwhich, hstroke, beq_self_eq_true, and_self]
  · obtain ⟨htemp, hstate, hquiet⟩ := (s.showTemps d.toNat temps).dieTemp_effect d.toNat h
    refine ⟨_, ?_, htemp, ?_, ?_⟩
    · rw [exec_dieTemperatureSample hd hrails hle hmem, if_neg (by omega)]
    · rw [hstate, State.heatState_showTemps hd, State.heatState]
    · exact Quiet.trans (State.showTemps_quiet hd s temps).2 hquiet

end Sys2Proof.Machine
end
